-- ==== Sys2Proof/Word.lean ====
section
/-! DEFINITION. The words of the manual: bytes, little-endian numbers (R3) and bit fields (Notation, "Bit fields"). -/

namespace Sys2Proof

/-- One byte. -/
abbrev Byte := BitVec 8

/-- A register's contents: every register is 64 bits wide unless its list says otherwise (R535). -/
abbrev Word := BitVec 64

/-- Field `[lo + w - 1 : lo]` of a number, bit 0 the least significant. -/
def bits (n lo w : Nat) : Nat := (n >>> lo) % 2 ^ w

/-- Bit `i` of a number. -/
def bit (n i : Nat) : Bool := n.testBit i

/-- A number with the field `[lo + w - 1 : lo]` replaced by `v` (reduced to the field's width). -/
def setBits (n lo w v : Nat) : Nat :=
  (n % 2 ^ lo) + (v % 2 ^ w) * 2 ^ lo + (n / 2 ^ (lo + w)) * 2 ^ (lo + w)

/-- `b` as the number 0 or 1. -/
def b2n (b : Bool) : Nat := if b then 1 else 0

/-- The little-endian number held in a list of bytes: byte 0 holds bits [7:0] (R3). -/
def leNat : List Byte → Nat
  | [] => 0
  | b :: bs => b.toNat + 256 * leNat bs

/-- The `k` little-endian bytes of a number (R3). -/
def leBytes : Nat → Nat → List Byte
  | 0, _ => []
  | k + 1, n => BitVec.ofNat 8 (n % 256) :: leBytes k (n / 256)

/-- Bytes `off` to `off + k - 1` of a structure held as a little-endian number. -/
def byteField (n off k : Nat) : Nat := bits n (8 * off) (8 * k)

/-- `k` zero bytes. -/
def zeroBytes (k : Nat) : List Byte := List.replicate k 0#8

/-- Whether every byte of a list is zero. -/
def allZero (bs : List Byte) : Bool := bs.all (· == 0#8)

/-- The list with `new` written over it from position `off` on (what falls outside is dropped). -/
def overlay (old : List Byte) (off : Nat) (new : List Byte) : List Byte :=
  let n := new.take (old.length - off)
  old.take off ++ n ++ old.drop (off + n.length)

/-- A count that saturates at `cap`. -/
def satAdd (cap a b : Nat) : Nat := min cap (a + b)

/-- The value held at the nearest limit of `lo` to `hi`. -/
def clamp (lo hi v : Nat) : Nat := max lo (min hi v)

/-- The quotient rounded up. -/
def ceilDiv (a b : Nat) : Nat := (a + b - 1) / b

/-- The ranges `[a, a + n)` and `[b, b + m)` share a point. -/
def rangesMeet (a n b m : Nat) : Bool := decide (a < b + m) && decide (b < a + n) && decide (0 < n) && decide (0 < m)

/-- `[a, a + n)` lies within `[b, b + m)`. -/
def rangeWithin (a n b m : Nat) : Bool := decide (b ≤ a) && decide (a + n ≤ b + m)

end Sys2Proof
end

