-- ==== Sys2Proof/Syntax.lean ====
section
/-! DEFINITION. The commands the block takes: one constructor per row of spec/opcode_table.json, in the table's order. The
docstring of a constructor names its row's rule; its operands are what the command carries from outside the block. A
command of the shared command set (IDENTIFY ... VOLUME) names by `tag` an accepted entry that the model holds in flight;
every other operand is an address, a value, an index, the bytes of a message, or a fact that the outside decides. -/

namespace Sys2Proof

/-- A command: a write, an operation of the bus or of the link protocol, an event, or a piece of a command's work. -/
inductive Instr where
  /-- CMD_ACQ_ENABLE (R66). -/
  | cmdAcqEnable (f cfg : Nat)
  /-- CMD_ACQ_DISABLE (R66). -/
  | cmdAcqDisable (f cfg : Nat)
  /-- SQ_ENTRY_WRITE (R75). -/
  | sqEntryWrite (f off : Nat) (data : List Byte)
  /-- SQ_TAIL_DOORBELL (R74). -/
  | sqTailDoorbell (f i t : Nat)
  /-- CQ_HEAD_DOORBELL (R89). -/
  | cqHeadDoorbell (f j h : Nat)
  /-- REPLY_WRITE (R87). -/
  | replyWrite (tag : Nat)
  /-- COALESCE_TIME_EXPIRY (R95). -/
  | coalesceTimeExpiry (f v : Nat)
  /-- MSIX_UNMASK (R384). -/
  | msixUnmask (f v : Nat)
  /-- BUS_MASTER_ENABLE_SET (R91). -/
  | busMasterEnableSet (f : Nat)
  /-- HOST_FAULT (R91). -/
  | hostFault (tag kind addr : Nat)
  /-- PROGRESS_WATCHDOG_EXPIRY (R11). -/
  | progressWatchdogExpiry (tag cls unit : Nat)
  /-- IDENTIFY (R106). -/
  | identify (tag : Nat)
  /-- SQ_CREATE (R69). -/
  | sqCreate (tag : Nat)
  /-- SQ_DELETE (R70). -/
  | sqDelete (tag : Nat)
  /-- CQ_CREATE (R69). -/
  | cqCreate (tag : Nat)
  /-- CQ_DELETE (R70). -/
  | cqDelete (tag : Nat)
  /-- RENEW (R140). -/
  | renew (tag : Nat)
  /-- UALLOC (R107). -/
  | ualloc (tag : Nat)
  /-- UFREE (R108). -/
  | ufree (tag : Nat)
  /-- ABORT (R109). -/
  | abort (tag : Nat)
  /-- CLAIM (R136). -/
  | claim (tag : Nat)
  /-- RELEASE (R148). -/
  | release (tag : Nat)
  /-- GRANT (R142). -/
  | grant (tag : Nat)
  /-- READ (R111). -/
  | read (tag : Nat)
  /-- WRITE (R173). -/
  | write (tag : Nat)
  /-- LREAD (R199). -/
  | lread (tag : Nat)
  /-- LSTAGE (R203). -/
  | lstage (tag : Nat)
  /-- LLOAD (R198). -/
  | lload (tag : Nat)
  /-- SOPEN (R221). -/
  | sopen (tag : Nat)
  /-- SAPPEND (R223). -/
  | sappend (tag : Nat)
  /-- APPEND_ORDERED (R223). -/
  | appendOrdered (tag : Nat)
  /-- APPEND_COMMIT (R224). -/
  | appendCommit (tag : Nat)
  /-- SREAD (R227). -/
  | sread (tag : Nat)
  /-- STRIM (R231). -/
  | strim (tag : Nat)
  /-- CHUNK_FREE (R231). -/
  | chunkFree (home stream gen chunk : Nat)
  /-- SCLOSE (R232). -/
  | sclose (tag : Nat)
  /-- PFILL (R241). -/
  | pfill (tag : Nat)
  /-- PCOPY (R242). -/
  | pcopy (tag : Nat)
  /-- PCMP (R243). -/
  | pcmp (tag : Nat)
  /-- PREDUCE (R244). -/
  | preduce (tag : Nat)
  /-- PSCAN (R254). -/
  | pscan (tag : Nat)
  /-- SLICE_GRANT (R246). -/
  | sliceGrant (frag : Nat)
  /-- PASS_COMPLETE (R249). -/
  | passComplete (frag : Nat)
  /-- POUR (R42). -/
  | pour (tag : Nat)
  /-- TRIGGER_SET (R56). -/
  | triggerSet (tag : Nat)
  /-- TRIGGER_CLEAR (R57). -/
  | triggerClear (tag : Nat)
  /-- DALLOC (R287). -/
  | dalloc (tag : Nat)
  /-- DFREE (R288). -/
  | dfree (tag : Nat)
  /-- DSTART (R120). -/
  | dstart (tag : Nat)
  /-- DSTART_ARM_ONLY (R120). -/
  | dstartArmOnly (tag : Nat)
  /-- DSTART_RESUME (R314). -/
  | dstartResume (tag : Nat)
  /-- DSTOP (R321). -/
  | dstop (tag : Nat)
  /-- BQUERY (R122). -/
  | bquery (tag : Nat)
  /-- BLIST (R122). -/
  | blist (tag : Nat)
  /-- PARTITION_ADD (R130). -/
  | partitionAdd (tag : Nat)
  /-- PARTITION_REMOVE (R133). -/
  | partitionRemove (tag : Nat)
  /-- PARTITION_CLEAR (R130). -/
  | partitionClear (tag : Nat)
  /-- ADMIT (R381). -/
  | admitFunction (tag : Nat)
  /-- UPDATE (R381). -/
  | update (tag : Nat)
  /-- EXPEL (R382). -/
  | expel (tag : Nat)
  /-- KEY_LOAD (R180). -/
  | keyLoad (tag : Nat)
  /-- KEY_ERASE (R123). -/
  | keyErase (tag : Nat)
  /-- DESIGNATE (R471). -/
  | designate (tag : Nat)
  /-- WITHDRAW (R123). -/
  | withdraw (tag : Nat)
  /-- SEIZE (R149). -/
  | seize (tag : Nat)
  /-- UNIT_SERVICE_OUT (R527). -/
  | unitServiceOut (tag : Nat)
  /-- UNIT_SERVICE_QUARANTINE (R527). -/
  | unitServiceQuarantine (tag : Nat)
  /-- UNIT_SERVICE_WARM (R527). -/
  | unitServiceWarm (tag : Nat)
  /-- UNIT_SERVICE_SERVING (R527). -/
  | unitServiceServing (tag : Nat)
  /-- SELF_TEST_DONE (R527). -/
  | selfTestDone (cls unit code : Nat)
  /-- VOLUME_CREATE (R192). -/
  | volumeCreate (tag : Nat)
  /-- VOLUME_DELETE (R194). -/
  | volumeDelete (tag : Nat)
  /-- GRANT_READ (R192). -/
  | grantRead (tag : Nat)
  /-- REVOKE_READ (R192). -/
  | revokeRead (tag : Nat)
  /-- SET_WRITER (R192). -/
  | setWriter (tag : Nat)
  /-- POUR_DOM_ENABLE (R39). -/
  | pourDomEnable (d : Nat)
  /-- POUR_DOM_DISABLE (R41). -/
  | pourDomDisable (d : Nat)
  /-- POUR_DOM_RESET (R40). -/
  | pourDomReset (d : Nat)
  /-- POUR_UPDATE_RECEIVE (R47). -/
  | pourUpdateReceive (link : Nat) (slot : List Byte)
  /-- POUR_SYNC (R48). -/
  | pourSync (link d : Nat)
  /-- POUR_SYNC_TIMEOUT (R48). -/
  | pourSyncTimeout (d : Nat)
  /-- TICK_ADVANCE (R50). -/
  | tickAdvance (d : Nat)
  /-- SILENCE_EXPIRY (R51). -/
  | silenceExpiry (d : Nat)
  /-- TRIGGER_FIRE (R61). -/
  | triggerFire (e : Nat)
  /-- TWB_CAPTURE_GO (R30). -/
  | twbCaptureGo (wrap : Bool)
  /-- TWB_REPLAY_GO (R31). -/
  | twbReplayGo (wrap : Bool)
  /-- TWB_REPLAY_DONE (R31). -/
  | twbReplayDone
  /-- MAP_DIRECT_EXIT (R20). -/
  | mapDirectExit
  /-- LEASE_EXPIRY (R139). -/
  | leaseExpiry (stream : Bool) (key : Nat)
  /-- GRACE_END (R144). -/
  | graceEnd (stream : Bool) (key : Nat)
  /-- ZERO_FILL_START (R145). -/
  | zeroFillStart (stream : Bool) (key : Nat)
  /-- ZERO_FILL_DONE (R147). -/
  | zeroFillDone (key : Nat)
  /-- POOL_LOGICAL_WRITE (R154). -/
  | poolLogicalWrite (src gib : Nat)
  /-- LOG_RETIRE (R176). -/
  | logRetire
  /-- OLD_SECTORS_FREE (R19). -/
  | oldSectorsFree (base : Nat)
  /-- FLASH_FRAME_READ (R188). -/
  | flashFrameRead (ch frame step corrected : Nat)
  /-- LIB_PATROL (R189). -/
  | libPatrol (ch frame step corrected : Nat)
  /-- LUN_STATUS_TIMEOUT (R212). -/
  | lunStatusTimeout (ch target lun : Nat)
  /-- DIE_REBUILD_UNIT (R213). -/
  | dieRebuildUnit (vol unit frame : Nat)
  /-- STAGE_HOLD_EXPIRY (R204). -/
  | stageHoldExpiry (vol unit tier : Nat)
  /-- STAGE_WAIT_EXPIRY (R205). -/
  | stageWaitExpiry (tag : Nat)
  /-- LIB_STAGE_DRAM_WRITE (R215). -/
  | libStageDramWrite (src gib : Nat)
  /-- LIB_STAGE_URN_WRITE (R215). -/
  | libStageUrnWrite (src mib : Nat)
  /-- PRS_SCRATCH_WRITE (R258). -/
  | prsScratchWrite (src value : Nat)
  /-- BUFFER_DEFERRED_FREE (R278). -/
  | bufferDeferredFree (idx : Nat)
  /-- URN_SCRUB_PATROL (R280). -/
  | urnScrubPatrol (off : Nat) (errs : Nat)
  /-- URN_WIN_CTRL_WRITE (R273). -/
  | urnWinCtrlWrite (w value : Nat)
  /-- CHANNEL_DISPATCH (R285). -/
  | channelDispatch (e : Nat)
  /-- DESCRIPTOR (R296). -/
  | descriptor (ch : Nat)
  /-- MOVE (R299). -/
  | move (ch : Nat)
  /-- LOOP (R300). -/
  | loop (ch : Nat)
  /-- WAIT (R301). -/
  | wait (ch : Nat)
  /-- WAIT_FLAG_POLL (R301). -/
  | waitFlagPoll (ch : Nat)
  /-- WAIT_SATISFIED (R301). -/
  | waitSatisfied (ch : Nat)
  /-- WAIT_LIMIT_EXPIRY (R319). -/
  | waitLimitExpiry (ch : Nat)
  /-- SIGNAL (R302). -/
  | signal (ch : Nat)
  /-- END (R303). -/
  | endInstr (ch : Nat)
  /-- RUN_COMPLETE (R308). -/
  | runComplete (ch : Nat)
  /-- DMA_RETRY_TIMER (R313). -/
  | dmaRetryTimer (ch : Nat)
  /-- TREFI_ELAPSE (R337). -/
  | trefiElapse (c r : Nat)
  /-- OPPORTUNISTIC_REFRESH (R338). -/
  | opportunisticRefresh (c r : Nat)
  /-- ROW_IDLE_CLOSE (R335). -/
  | rowIdleClose (c bank : Nat)
  /-- THERMAL_HOT (R336). -/
  | thermalHot (c : Nat)
  /-- DRAM_PATROL_SCRUB (R346). -/
  | dramPatrolScrub (c addr errs : Nat)
  /-- DRAM_CHANNEL_LOST (R352). -/
  | dramChannelLost (c : Nat)
  /-- DRC_HASH_NEXT_WRITE (R333). -/
  | drcHashNextWrite (i value : Nat)
  /-- BLEND_US_TICK (R362). -/
  | blendUsTick
  /-- BLEND_WINDOW_END (R365). -/
  | blendWindowEnd (utils backlog : List Nat) (fails : Nat)
  /-- BLD_COMMIT (R358). -/
  | bldCommit (b : Nat)
  /-- BLD_ACTIVE_WRITE (R359). -/
  | bldActiveWrite (value : Nat)
  /-- DECAF_AGE (R357). -/
  | decafAge (arb order : Nat)
  /-- FLR (R385). -/
  | flr (f : Nat)
  /-- FLR_CANCEL_TIMEOUT (R385). -/
  | flrCancelTimeout (f : Nat)
  /-- PORT_RESET (R391). -/
  | portReset (att : Nat)
  /-- VF_ENABLE_CLEAR (R565). -/
  | vfEnableClear (pf : Nat)
  /-- NUMVFS_WRITE (R374). -/
  | numvfsWrite (pf n : Nat)
  /-- TEN_FM_WRITE (R379). -/
  | tenFmWrite (src value : Nat)
  /-- TEN_FM_HANDOVER (R379). -/
  | tenFmHandover
  /-- FLIT_RECEIVE (R403). -/
  | flitReceive (link : Nat) (data : List Byte) (corrected : Nat) (uncorrectable : Bool)
  /-- REPLAY_TIMER_EXPIRY (R402). -/
  | replayTimerExpiry (link : Nat)
  /-- FAST_RETRAIN (R416). -/
  | fastRetrain (link : Nat)
  /-- COLD_RETRAIN (R416). -/
  | coldRetrain (link : Nat)
  /-- DETECT_TIMEOUT (R416). -/
  | detectTimeout (link : Nat)
  /-- TRAIN_FLIT (R417). -/
  | trainFlit (link : Nat) (data : List Byte)
  /-- PARAM_TIMEOUT (R417). -/
  | paramTimeout (link : Nat)
  /-- REUP_TIMER (R420). -/
  | reupTimer (link : Nat)
  /-- WLK_CTRL_FAST (R416). -/
  | wlkCtrlFast (link : Nat)
  /-- WLK_CTRL_COLD (R416). -/
  | wlkCtrlCold (link : Nat)
  /-- WLK_CREDIT_WRITE (R423). -/
  | wlkCreditWrite (link value : Nat)
  /-- FAST_REQ (R414). -/
  | fastReq (link : Nat)
  /-- COLD_REQ (R414). -/
  | coldReq (link : Nat)
  /-- LINK_LOST (R421). -/
  | linkLost (link : Nat) (slot : List Byte)
  /-- LINK_LOST_TIMEOUT (R421). -/
  | linkLostTimeout (link : Nat)
  /-- CMD_FWD (R410). -/
  | cmdFwd (link : Nat) (msg : List Byte)
  /-- WORK (R410). -/
  | work (link : Nat) (msg : List Byte)
  /-- WRITE_DATA (R410). -/
  | writeData (link : Nat) (msg : List Byte)
  /-- REPLY (R410). -/
  | replyMsg (link : Nat) (msg : List Byte)
  /-- PART_DONE (R410). -/
  | partDone (link : Nat) (msg : List Byte)
  /-- READ_DATA (R410). -/
  | readData (link : Nat) (msg : List Byte)
  /-- BULK (R410). -/
  | bulk (link : Nat) (msg : List Byte)
  /-- TEST (R422). -/
  | test (link : Nat) (msg : List Byte)
  /-- CANCEL (R413). -/
  | cancel (link : Nat) (slot : List Byte)
  /-- CANCEL_ACK (R413). -/
  | cancelAck (link : Nat) (slot : List Byte)
  /-- REVOKE (R149). -/
  | revoke (link : Nat) (slot : List Byte)
  /-- REVOKE_ACK (R149). -/
  | revokeAck (link : Nat) (slot : List Byte)
  /-- TABLE (R126). -/
  | table (link : Nat) (slot : List Byte)
  /-- TABLE_ACK (R126). -/
  | tableAck (link : Nat) (slot : List Byte)
  /-- MESSAGE_FORWARD (R434). -/
  | messageForward (link : Nat) (msg : List Byte)
  /-- ROUTE (R439). -/
  | route (link : Nat) (slots : List Byte)
  /-- LINK_STATE (R431). -/
  | linkState (link : Nat) (slots : List Byte)
  /-- LINK_STATE_REFRESH (R429). -/
  | linkStateRefresh
  /-- LINK_STATE_STALE (R430). -/
  | linkStateStale (dev : Nat)
  /-- PIN_LAPSE (R436). -/
  | pinLapse (origin dest vc : Nat)
  /-- NAP_IDLE (R444). -/
  | napIdle (link : Nat)
  /-- NAP_REQ (R444). -/
  | napReq (link : Nat) (slot : List Byte)
  /-- NAP_ACK (R445). -/
  | napAck (link : Nat) (slot : List Byte)
  /-- NAP_NAK (R444). -/
  | napNak (link : Nat) (slot : List Byte)
  /-- NAP_WAKE (R446). -/
  | napWake (link : Nat)
  /-- NAP_WAKE_MISSED (R447). -/
  | napWakeMissed (link : Nat)
  /-- STEP (R520). -/
  | step (link : Nat) (slot : List Byte)
  /-- STEP_ACK (R520). -/
  | stepAck (link : Nat) (slot : List Byte)
  /-- PROT_COMMIT (R454). -/
  | protCommit (width : Nat)
  /-- JOIN (R454). -/
  | join (link : Nat) (slots : List Byte)
  /-- GROUP_SYNC_DONE (R454). -/
  | groupSyncDone
  /-- DELTA_ACK_TIMEOUT (R464). -/
  | deltaAckTimeout (stripe : Nat)
  /-- ABSENT (R467). -/
  | absent (link : Nat) (slots : List Byte)
  /-- FAIL_TIMEOUT (R471). -/
  | failTimeout (pos : Nat)
  /-- ASSUME (R472). -/
  | assume (link : Nat) (slots : List Byte)
  /-- SPARE_RESTORE_DONE (R472). -/
  | spareRestoreDone
  /-- STRIPE_REBUILD (R473). -/
  | stripeRebuild
  /-- LOCK (R473). -/
  | lock (link : Nat) (slots : List Byte)
  /-- UNLOCK (R473). -/
  | unlock (link : Nat) (slots : List Byte)
  /-- FLASH_STRIPE_CLOSE_TIMEOUT (R465). -/
  | flashStripeCloseTimeout (stripe : Nat)
  /-- RECOVERY_WAIT (R465). -/
  | recoveryWait (link : Nat) (slots : List Byte)
  /-- DEAD (R465). -/
  | dead (link : Nat) (slots : List Byte)
  /-- FREE (R465). -/
  | free (link : Nat) (slots : List Byte)
  /-- DIRTY (R478). -/
  | dirty (link : Nat) (slots : List Byte)
  /-- RETURN (R478). -/
  | return (link : Nat) (slots : List Byte)
  /-- LOST (R481). -/
  | lost (link : Nat) (slots : List Byte)
  /-- PROT_EVAC_GO (R479). -/
  | protEvacGo (target : Nat)
  /-- EVACUATION_DONE (R479). -/
  | evacuationDone
  /-- MB_ADDRESS (R484). -/
  | mbAddress (pair byte : Nat)
  /-- MB_POINTER_WRITE (R486). -/
  | mbPointerWrite (pair hi lo : Nat)
  /-- MB_READ_BYTE (R487). -/
  | mbReadByte (pair : Nat) (ack : Bool)
  /-- MB_WRITE_BYTE (R488). -/
  | mbWriteByte (pair byte : Nat)
  /-- MB_STRETCH_ABORT (R492). -/
  | mbStretchAbort (pair : Nat)
  /-- MB_ATTENTION_SIGNAL (R496). -/
  | mbAttentionSignal (pair : Nat)
  /-- ATTENTION_BACKOFF (R496). -/
  | attentionBackoff
  /-- MB_ALERT_RESPONSE (R497). -/
  | mbAlertResponse (pair : Nat) (won : Bool)
  /-- MB_ATTENTION_DETECT (R499). -/
  | mbAttentionDetect (pair : Nat) (addrs : List Nat)
  /-- MB_ATTN_REQ (R496). -/
  | mbAttnReq
  /-- MB_LOCK (R490). -/
  | mbLock (f : Nat)
  /-- MB_XCMD_GO (R495). -/
  | mbXcmdGo (value : Nat)
  /-- MB_TRANSFER_DONE (R495). -/
  | mbTransferDone (status count : Nat) (data : List Byte)
  /-- MB_STUCK_SDA (R503). -/
  | mbStuckSda (pair : Nat) (released : Bool)
  /-- MB_SCL_TIMEOUT (R504). -/
  | mbSclTimeout (pair : Nat)
  /-- MB_DEAD_PAIR_CHECK (R505). -/
  | mbDeadPairCheck (pair : Nat) (high : Bool)
  /-- MB_WAKE_MATCH (R500). -/
  | mbWakeMatch (pair byte : Nat)
  /-- PWR_TARGET_DOZE (R509). -/
  | pwrTargetDoze (src : Nat)
  /-- PWR_TARGET_SLEEP (R510). -/
  | pwrTargetSleep (src : Nat)
  /-- PWR_TARGET_ON (R508). -/
  | pwrTargetOn (src : Nat)
  /-- DOZE_WAKE (R509). -/
  | dozeWake (cause : Nat)
  /-- WAKE_N (R557). -/
  | wakeN
  /-- SLEEP_WAKE (R510). -/
  | sleepWake (cause : Nat)
  /-- VSTBY_RISE (R544). -/
  | vstbyRise (straps : Nat)
  /-- PWRGOOD_ASSERT (R513). -/
  | pwrgoodAssert (rails : Nat)
  /-- COLD_START (R513). -/
  | coldStart (population : List Nat)
  /-- STARTUP_STEP_TIMEOUT (R515). -/
  | startupStepTimeout (step : Nat)
  /-- PWRGOOD_FALL (R546). -/
  | pwrgoodFall
  /-- RAIL_FAULT (R547). -/
  | railFault (rail : Nat)
  /-- THERMTRIP (R550). -/
  | thermtrip
  /-- PLL_LOCK_LOSS (R552). -/
  | pllLockLoss
  /-- PWR_RESET_DEVICE (R524). -/
  | pwrResetDevice (src confirm : Nat)
  /-- PWR_RESET_MGMT (R526). -/
  | pwrResetMgmt (src confirm : Nat)
  /-- BARISTA15_WATCHDOG (R526). -/
  | barista15Watchdog
  /-- CONFIG_WRITE (R507). -/
  | configWrite
  /-- FW_STAGE (R529). -/
  | fwStage (image : List Nat)
  /-- FW_STAGE_DONE (R529). -/
  | fwStageDone
  /-- FW_ACTIVATE (R530). -/
  | fwActivate
  /-- FW_COMMIT_SVN (R531). -/
  | fwCommitSvn
  /-- EVT_CONS_WRITE (R538). -/
  | evtConsWrite (src value : Nat)
  /-- EVT_CLEAR (R538). -/
  | evtClear
  /-- EVT_BUS_POP (R538). -/
  | evtBusPop (pair : Nat)
  /-- REGISTER_WRITE (R7). -/
  | registerWrite (src : Nat) (tenant : Bool) (f off len : Nat) (value : Nat)
  /-- BUS_MASTER_ENABLE_CLEAR (R91). -/
  | busMasterEnableClear (f : Nat)
  /-- VF_ENABLE_SET (R374). -/
  | vfEnableSet (pf : Nat)
  /-- PERST_RELEASE (R391). -/
  | perstRelease (att : Nat)
  /-- DRAM_INIT_DONE (R347). -/
  | dramInitDone (gib : Nat)
  /-- THERMAL_HOT_END (R336). -/
  | thermalHotEnd (c : Nat)
  /-- LANE_SIGNAL_LOSS (R419). -/
  | laneSignalLoss (link lane : Nat)
  /-- SIGNAL_DETECT (R416). -/
  | signalDetect (link lanes : Nat)
  /-- VSTBY_FALL (R554). -/
  | vstbyFall
  /-- SPI_HIZ_N_CHANGE (R559). -/
  | spiHizNChange (level : Bool)
  /-- MB_STOP (R488). -/
  | mbStop (pair : Nat)
  /-- FLASH_PROGRAM_DONE (R212). -/
  | flashProgramDone (ch target lun : Nat) (erase failed : Bool)
  deriving DecidableEq, Repr

end Sys2Proof
end

