-- ==== Sys2Proof/WellFormed.lean ====
section
/-! DEFINITION. Which commands are well formed: each operand lies in the range that the row's registers, numbers and formats give it. A command that is not
well formed names no input that the block can receive; exec answers it all the same. -/

namespace Sys2Proof

/-- Every operand of the command lies in its range. -/
def wellFormed (i : Instr) : Bool :=
  match i with
  | .cmdAcqEnable f cfg => decide (f < 256) && decide (cfg < 2 ^ 32)
  | .cmdAcqDisable f cfg => decide (f < 256) && decide (cfg < 2 ^ 32)
  | .sqEntryWrite f off data => decide (f < 256) && decide (off < 2 ^ 20) && decide (off + data.length ≤ 2 ^ 20)
  | .sqTailDoorbell f i t => decide (f < 256) && decide (i < 256) && decide (t < 64)
  | .cqHeadDoorbell f j h => decide (f < 256) && decide (j < 256) && decide (h < 2 ^ 12)
  | .replyWrite _ => true
  | .coalesceTimeExpiry f v => decide (f < 256) && decide (v < 64)
  | .msixUnmask f v => decide (f < 256) && decide (v < 64)
  | .busMasterEnableSet f => decide (f < 256)
  | .hostFault _ kind addr => decide (kind < 3) && decide (addr < 2 ^ 64)
  | .progressWatchdogExpiry _ cls unit => decide (cls < 8) && decide (unit < 128)
  | .identify _ => true
  | .sqCreate _ => true
  | .sqDelete _ => true
  | .cqCreate _ => true
  | .cqDelete _ => true
  | .renew _ => true
  | .ualloc _ => true
  | .ufree _ => true
  | .abort _ => true
  | .claim _ => true
  | .release _ => true
  | .grant _ => true
  | .read _ => true
  | .write _ => true
  | .lread _ => true
  | .lstage _ => true
  | .lload _ => true
  | .sopen _ => true
  | .sappend _ => true
  | .appendOrdered _ => true
  | .appendCommit _ => true
  | .sread _ => true
  | .strim _ => true
  | .chunkFree home _ gen chunk => decide (home < 2 ^ 10) && decide (gen < 256) && decide (chunk < 2 ^ 12)
  | .sclose _ => true
  | .pfill _ => true
  | .pcopy _ => true
  | .pcmp _ => true
  | .preduce _ => true
  | .pscan _ => true
  | .sliceGrant _ => true
  | .passComplete _ => true
  | .pour _ => true
  | .triggerSet _ => true
  | .triggerClear _ => true
  | .dalloc _ => true
  | .dfree _ => true
  | .dstart _ => true
  | .dstartArmOnly _ => true
  | .dstartResume _ => true
  | .dstop _ => true
  | .bquery _ => true
  | .blist _ => true
  | .partitionAdd _ => true
  | .partitionRemove _ => true
  | .partitionClear _ => true
  | .admitFunction _ => true
  | .update _ => true
  | .expel _ => true
  | .keyLoad _ => true
  | .keyErase _ => true
  | .designate _ => true
  | .withdraw _ => true
  | .seize _ => true
  | .unitServiceOut _ => true
  | .unitServiceQuarantine _ => true
  | .unitServiceWarm _ => true
  | .unitServiceServing _ => true
  | .selfTestDone cls unit code => decide (cls < 8) && decide (unit < 128) && decide (code < 256)
  | .volumeCreate _ => true
  | .volumeDelete _ => true
  | .grantRead _ => true
  | .revokeRead _ => true
  | .setWriter _ => true
  | .pourDomEnable d => decide (d < 64)
  | .pourDomDisable d => decide (d < 64)
  | .pourDomReset d => decide (d < 64)
  | .pourUpdateReceive link slot => decide (link < 64) && decide (slot.length = 16)
  | .pourSync link d => decide (link < 64) && decide (d < 64)
  | .pourSyncTimeout d => decide (d < 64)
  | .tickAdvance d => decide (d < 64)
  | .silenceExpiry d => decide (d < 64)
  | .triggerFire e => decide (e < 2 ^ 10)
  | .twbCaptureGo _ => true
  | .twbReplayGo _ => true
  | .twbReplayDone => true
  | .mapDirectExit => true
  | .leaseExpiry _ key => decide (key < 2 ^ 40)
  | .graceEnd _ key => decide (key < 2 ^ 40)
  | .zeroFillStart _ key => decide (key < 2 ^ 40)
  | .zeroFillDone key => decide (key < 2 ^ 27)
  | .poolLogicalWrite src gib => decide (src < 3) && decide (gib < 2 ^ 19)
  | .logRetire => true
  | .oldSectorsFree _ => true
  | .flashFrameRead ch frame step _ => decide (ch < 32) && decide (frame < 2 ^ 28) && decide (step < 6)
  | .libPatrol ch frame step _ => decide (ch < 32) && decide (frame < 2 ^ 28) && decide (step < 6)
  | .lunStatusTimeout ch target lun => decide (ch < 32) && decide (target < 8) && decide (lun < 4)
  | .dieRebuildUnit vol unit frame => decide (vol < 2 ^ 18) && decide (unit < 2 ^ 24) && decide (frame < 2 ^ 28)
  | .stageHoldExpiry vol unit tier => decide (vol < 2 ^ 18) && decide (unit < 2 ^ 24) && decide (tier < 2)
  | .stageWaitExpiry _ => true
  | .libStageDramWrite src gib => decide (src < 3) && decide (gib < 2 ^ 19)
  | .libStageUrnWrite src mib => decide (src < 3) && decide (mib < 2 ^ 9)
  | .prsScratchWrite src value => decide (src < 3) && decide (value < 2 ^ 64)
  | .bufferDeferredFree idx => decide (idx < 2 ^ 16)
  | .urnScrubPatrol off errs => decide (off < 2 ^ 29) && decide (errs < 2 ^ 16)
  | .urnWinCtrlWrite w value => decide (w < 64) && decide (value < 2 ^ 64)
  | .channelDispatch e => decide (e < 32)
  | .descriptor ch => decide (ch < 256)
  | .move ch => decide (ch < 256)
  | .loop ch => decide (ch < 256)
  | .wait ch => decide (ch < 256)
  | .waitFlagPoll ch => decide (ch < 256)
  | .waitSatisfied ch => decide (ch < 256)
  | .waitLimitExpiry ch => decide (ch < 256)
  | .signal ch => decide (ch < 256)
  | .endInstr ch => decide (ch < 256)
  | .runComplete ch => decide (ch < 256)
  | .dmaRetryTimer ch => decide (ch < 256)
  | .trefiElapse c r => decide (c < 16) && decide (r < 16)
  | .opportunisticRefresh c r => decide (c < 16) && decide (r < 16)
  | .rowIdleClose c bank => decide (c < 16) && decide (bank < 2 ^ 9)
  | .thermalHot c => decide (c < 16)
  | .dramPatrolScrub c addr errs => decide (c < 16) && decide (addr < 2 ^ 64) && decide (errs < 12)
  | .dramChannelLost c => decide (c < 16)
  | .drcHashNextWrite i value => decide (i < 5) && decide (value < 2 ^ 48)
  | .blendUsTick => true
  | .blendWindowEnd _ _ fails => decide (fails < 2 ^ 64)
  | .bldCommit b => decide (b < 64)
  | .bldActiveWrite value => decide (value < 2 ^ 64)
  | .decafAge arb _ => decide (arb < 402)
  | .flr f => decide (f < 256)
  | .flrCancelTimeout f => decide (f < 256)
  | .portReset att => decide (att < 16)
  | .vfEnableClear pf => decide (pf < 256)
  | .numvfsWrite pf n => decide (pf < 256) && decide (n < 256)
  | .tenFmWrite src value => decide (src < 3) && decide (value < 2 ^ 64)
  | .tenFmHandover => true
  | .flitReceive link data _ _ => decide (link < 64) && decide (data.length = 256)
  | .replayTimerExpiry link => decide (link < 64)
  | .fastRetrain link => decide (link < 64)
  | .coldRetrain link => decide (link < 64)
  | .detectTimeout link => decide (link < 64)
  | .trainFlit link data => decide (link < 64) && decide (data.length = 256)
  | .paramTimeout link => decide (link < 64)
  | .reupTimer link => decide (link < 64)
  | .wlkCtrlFast link => decide (link < 64)
  | .wlkCtrlCold link => decide (link < 64)
  | .wlkCreditWrite link value => decide (link < 64) && decide (value < 2 ^ 64)
  | .fastReq link => decide (link < 64)
  | .coldReq link => decide (link < 64)
  | .linkLost link slot => decide (link < 64) && decide (slot.length = 16)
  | .linkLostTimeout link => decide (link < 64)
  | .cmdFwd link msg => decide (link < 64) && decide (16 ≤ msg.length)
  | .work link msg => decide (link < 64) && decide (16 ≤ msg.length)
  | .writeData link msg => decide (link < 64) && decide (16 ≤ msg.length)
  | .replyMsg link msg => decide (link < 64) && decide (16 ≤ msg.length)
  | .partDone link msg => decide (link < 64) && decide (16 ≤ msg.length)
  | .readData link msg => decide (link < 64) && decide (16 ≤ msg.length)
  | .bulk link msg => decide (link < 64) && decide (16 ≤ msg.length)
  | .test link msg => decide (link < 64) && decide (16 ≤ msg.length)
  | .cancel link slot => decide (link < 64) && decide (slot.length = 16)
  | .cancelAck link slot => decide (link < 64) && decide (slot.length = 16)
  | .revoke link slot => decide (link < 64) && decide (slot.length = 16)
  | .revokeAck link slot => decide (link < 64) && decide (slot.length = 16)
  | .table link slot => decide (link < 64) && decide (slot.length = 16)
  | .tableAck link slot => decide (link < 64) && decide (slot.length = 16)
  | .messageForward link msg => decide (link < 64) && decide (16 ≤ msg.length)
  | .route link slots => decide (link < 64) && decide (slots.length % 16 = 0) && decide (slots.length ≠ 0)
  | .linkState link slots => decide (link < 64) && decide (slots.length % 16 = 0) && decide (slots.length ≠ 0)
  | .linkStateRefresh => true
  | .linkStateStale dev => decide (dev < 2 ^ 10)
  | .pinLapse origin dest vc => decide (origin < 2 ^ 16) && decide (dest < 2 ^ 16) && decide (vc < 4)
  | .napIdle link => decide (link < 64)
  | .napReq link slot => decide (link < 64) && decide (slot.length = 16)
  | .napAck link slot => decide (link < 64) && decide (slot.length = 16)
  | .napNak link slot => decide (link < 64) && decide (slot.length = 16)
  | .napWake link => decide (link < 64)
  | .napWakeMissed link => decide (link < 64)
  | .step link slot => decide (link < 64) && decide (slot.length = 16)
  | .stepAck link slot => decide (link < 64) && decide (slot.length = 16)
  | .protCommit width => decide (width < 8)
  | .join link slots => decide (link < 64) && decide (slots.length % 16 = 0) && decide (slots.length ≠ 0)
  | .groupSyncDone => true
  | .deltaAckTimeout stripe => decide (stripe < 2 ^ 64)
  | .absent link slots => decide (link < 64) && decide (slots.length % 16 = 0) && decide (slots.length ≠ 0)
  | .failTimeout pos => decide (pos < 18)
  | .assume link slots => decide (link < 64) && decide (slots.length % 16 = 0) && decide (slots.length ≠ 0)
  | .spareRestoreDone => true
  | .stripeRebuild => true
  | .lock link slots => decide (link < 64) && decide (slots.length % 16 = 0) && decide (slots.length ≠ 0)
  | .unlock link slots => decide (link < 64) && decide (slots.length % 16 = 0) && decide (slots.length ≠ 0)
  | .flashStripeCloseTimeout stripe => decide (stripe < 2 ^ 64)
  | .recoveryWait link slots => decide (link < 64) && decide (slots.length % 16 = 0) && decide (slots.length ≠ 0)
  | .dead link slots => decide (link < 64) && decide (slots.length % 16 = 0) && decide (slots.length ≠ 0)
  | .free link slots => decide (link < 64) && decide (slots.length % 16 = 0) && decide (slots.length ≠ 0)
  | .dirty link slots => decide (link < 64) && decide (slots.length % 16 = 0) && decide (slots.length ≠ 0)
  | .return link slots => decide (link < 64) && decide (slots.length % 16 = 0) && decide (slots.length ≠ 0)
  | .lost link slots => decide (link < 64) && decide (slots.length % 16 = 0) && decide (slots.length ≠ 0)
  | .protEvacGo target => decide (target < 2 ^ 10)
  | .evacuationDone => true
  | .mbAddress pair byte => decide (pair < 2) && decide (byte < 256)
  | .mbPointerWrite pair hi lo => decide (pair < 2) && decide (hi < 256) && decide (lo < 256)
  | .mbReadByte pair _ => decide (pair < 2)
  | .mbWriteByte pair byte => decide (pair < 2) && decide (byte < 256)
  | .mbStretchAbort pair => decide (pair < 2)
  | .mbAttentionSignal pair => decide (pair < 2)
  | .attentionBackoff => true
  | .mbAlertResponse pair _ => decide (pair < 2)
  | .mbAttentionDetect pair addrs => decide (pair < 2) && addrs.all fun a => decide (a < 128)
  | .mbAttnReq => true
  | .mbLock f => decide (f < 256)
  | .mbXcmdGo value => decide (value < 2 ^ 32)
  | .mbTransferDone status count data => decide (status < 8) && decide (count < 65) && decide (data.length ≤ 32)
  | .mbStuckSda pair _ => decide (pair < 2)
  | .mbSclTimeout pair => decide (pair < 2)
  | .mbDeadPairCheck pair _ => decide (pair < 2)
  | .mbWakeMatch pair byte => decide (pair < 2) && decide (byte < 256)
  | .pwrTargetDoze src => decide (src < 3)
  | .pwrTargetSleep src => decide (src < 3)
  | .pwrTargetOn src => decide (src < 3)
  | .dozeWake cause => decide (cause < 256)
  | .wakeN => true
  | .sleepWake cause => decide (cause < 256)
  | .vstbyRise straps => decide (straps < 2 ^ 21)
  | .pwrgoodAssert rails => decide (rails < 2 ^ 16)
  | .coldStart _ => true
  | .startupStepTimeout step => decide (step < 9)
  | .pwrgoodFall => true
  | .railFault rail => decide (rail < 16)
  | .thermtrip => true
  | .pllLockLoss => true
  | .pwrResetDevice src confirm => decide (src < 3) && decide (confirm < 256)
  | .pwrResetMgmt src confirm => decide (src < 3) && decide (confirm < 256)
  | .barista15Watchdog => true
  | .configWrite => true
  | .fwStage _ => true
  | .fwStageDone => true
  | .fwActivate => true
  | .fwCommitSvn => true
  | .evtConsWrite src value => decide (src < 3) && decide (value < 2 ^ 32)
  | .evtClear => true
  | .evtBusPop pair => decide (pair < 2)
  | .registerWrite src _ f off len value => decide (src < 3) && decide (f < 256) && decide (off < 2 ^ 24) && decide (len < 9) && decide (value < 2 ^ 64)
  | .busMasterEnableClear f => decide (f < 256)
  | .vfEnableSet pf => decide (pf < 256)
  | .perstRelease att => decide (att < 16)
  | .dramInitDone gib => decide (gib < 8193)
  | .thermalHotEnd c => decide (c < 16)
  | .laneSignalLoss link lane => decide (link < 64) && decide (lane < 2)
  | .signalDetect link lanes => decide (link < 64) && decide (lanes < 4)
  | .vstbyFall => true
  | .spiHizNChange _ => true
  | .mbStop pair => decide (pair < 2)
  | .flashProgramDone ch target lun _ _ => decide (ch < 32) && decide (target < 8) && decide (lun < 4)

end Sys2Proof
end

