-- ==== Sys2Proof/Decode.lean ====
section
/-! DEFINITION. The command that a word of the table spells. No row of spec/opcode_table.json gives bits (every row's list of fields is empty: commands come
as register writes, messages and events, not as words), so no word spells one. -/

namespace Sys2Proof

/-- The command spelt by a word: none, since no row gives bits. -/
def decodeTableWord (_nbits _w : Nat) : Option Instr := none

end Sys2Proof
end

