-- ==== Sys2Proof/Config.lean ====
section
/-! DEFINITION. What an implementation fixes and the values that the spec leaves open: constants with no body, so that
no proof can see a value of one. Each is named in the assumption log. -/

namespace Sys2Proof.Config

/-- A free number, one for each value of State's counter (log entry 8). -/
opaque freeNat : Nat → Nat

/-- Payload that the device's encoder gives a page: codec id, container PARAM and page bytes (log entry 20). -/
opaque encoderOut : Nat → Nat → List Byte → List Byte

/-- The device key-encryption key, which never leaves the secure-management cores (R180; log entry 21). -/
opaque deviceKek : Nat

/-- The free run at which the device stores a page's sectors, tried before the lowest one (log entry 22). -/
opaque placeSectors : Nat → Nat

/-- How the outputs of a run fold into one hash step: the hash so far and the output's number (log entry 23). -/
opaque foldOutput : Nat → Nat → Nat

/-- The page that reconstruction from the parity set gives back, by map key: the peers' frames are not of this device (log entry 24). -/
opaque recoveredPage : Nat → List Byte

/-- What a change of the tables changes in a sector of the table area, whose format is private (R456; log entry 26). -/
opaque tableBytes : Nat → List Byte

/-- The tables that a spare restores for an id, in a private format (R456, R472; log entry 27): table, then rows of numbers. Tables: 0 extents,
1 streams, 2 volumes, 3 partition owners, 4 unit records, 5 chunk records. -/
opaque restored : Nat → Nat → List (Nat × List Nat)

/-- The physical address of a sector's first byte: the device lays out its DRAM itself (spec/12; log entry 25). -/
opaque sectorAddr : Nat → Nat

end Sys2Proof.Config
end

