-- ==== Sys2Proof/Machine/Mem.lean ====
section
/-! DEFINITION. Sparse data in one canonical form: a list of key and value pairs, keys strictly rising, no entry equal
to what an unlisted key reads as. Memories (key = address, value = byte) and every indexed table of State use it. -/

namespace Sys2Proof.Machine

/-- A sparse table. An unlisted key reads as the type's default. -/
abbrev SMap (β : Type) := List (Nat × β)

namespace SMap

variable {β : Type} [Inhabited β] [DecidableEq β]

/-- What a key reads as. -/
def get (m : SMap β) (k : Nat) : β :=
  match m with
  | [] => default
  | (a, v) :: m' => if a = k then v else SMap.get m' k

/-- The table with one more entry, placed before the first higher key. -/
def insert (m : SMap β) (k : Nat) (v : β) : SMap β :=
  match m with
  | [] => [(k, v)]
  | (a, w) :: m' => if k < a then (k, v) :: (a, w) :: m' else (a, w) :: SMap.insert m' k v

/-- The table with key `k` reading as `v`; a default value leaves no entry, so equal tables are equal lists. -/
def put (m : SMap β) (k : Nat) (v : β) : SMap β :=
  let rest := m.filter fun e => decide (e.1 ≠ k)
  if v = default then rest else SMap.insert rest k v

/-- The table with the value of key `k` changed by `f`. -/
def upd (m : SMap β) (k : Nat) (f : β → β) : SMap β := put m k (f (get m k))

/-- The table with every key of the list changed by `f`. -/
def updAll (f : β → β) : List Nat → SMap β → SMap β
  | [], m => m
  | k :: ks, m => updAll f ks (upd m k f)

/-- Every key of the list is above `a`. -/
def above (a : Nat) (m : SMap β) : Bool := m.all fun e => decide (a < e.1)

/-- The canonical form: keys strictly rising and no entry equal to the default. -/
def wf : SMap β → Bool
  | [] => true
  | (a, v) :: m => decide (v ≠ default) && above a m && wf m

/-- The listed keys. -/
def keys (m : SMap β) : List Nat := m.map (·.1)

/-- `n` consecutive values from key `k` on. -/
def getN (m : SMap β) (k : Nat) : Nat → List β
  | 0 => []
  | n + 1 => get m k :: getN m (k + 1) n

/-- A list of values stored at consecutive keys from `k` on. -/
def putN (m : SMap β) (k : Nat) : List β → SMap β
  | [] => m
  | v :: vs => putN (put m k v) (k + 1) vs

/-- The lowest key from `lo` below `hi` whose value satisfies `p`, by search over `hi - lo` keys. -/
def lowest (p : β → Bool) (m : SMap β) (lo : Nat) : Nat → Option Nat
  | 0 => none
  | n + 1 => if p (get m lo) then some lo else lowest p m (lo + 1) n

/-- The table without the entries that `p` selects. -/
def drop (p : Nat → β → Bool) (m : SMap β) : SMap β := m.filter fun e => !p e.1 e.2

/-- The keys of the entries that `p` selects. -/
def sel (p : Nat → β → Bool) (m : SMap β) : List Nat := (m.filter fun e => p e.1 e.2).map (·.1)

/-- The number of listed entries that `p` selects. -/
def count (p : Nat → β → Bool) (m : SMap β) : Nat := (m.filter fun e => p e.1 e.2).length

end SMap

end Sys2Proof.Machine
end

