-- ==== Sys2Proof/Machine/RegMap.lean ====
section
/-! DEFINITION. The register map, written from the Registers tables of every chapter of spec/ and from the offset lists of
spec/20_register_index.md: each register's place (BAR0 offset or tenant window), its repeats, and its fields with their
access type (R7) and reset value. A field whose reset value the spec does not give as a number stands at 0 here (log
entry 1); the start-up rows write it. -/

namespace Sys2Proof.Machine

/-- Every register that spec/20_register_index.md lists. -/
inductive Reg where
  | glbId
  | glbClk
  | glbSeamState
  | glbCycle
  | twbCtrl
  | twbBase
  | twbSize
  | twbStatus
  | twbSrcMask
  | twbOutHash
  | pourDomCtrl
  | pourDomSrc
  | pourDomPos
  | pourDomRate
  | pourDomBrim
  | pourDomSilence
  | pourDomStat
  | pourTrigStat
  | pourTrigQuota
  | pourTrigEntry
  | cmdAcqBase
  | cmdAcqCfg
  | cmdFnStatus
  | cmdSqErr
  | cmdCqErr
  | cmdVecCoal
  | cmdSqTail
  | cmdCqHead
  | msixTable
  | msixPba
  | cmdFnQuota
  | cmdSqState
  | cmdStat
  | cmdFree
  | poolCtrl
  | poolLogical
  | poolSectorsTotal
  | poolSectorsFree
  | poolSectorsRsv
  | poolWmark
  | poolSpace
  | poolTables
  | poolRanges
  | poolFnLimit
  | poolFnUse
  | poolFnStat
  | grdCtrl
  | grdLanes
  | grdLanesHi
  | grdPages
  | grdBytesIn
  | grdSectorsOut
  | grdErr
  | grdMapcHit
  | grdMapcMiss
  | grdLog
  | grdKeys
  | grdHintIn
  | grdHintOut
  | libCtrl
  | libStageDram
  | libStageUrn
  | libStageHold
  | libStageWait
  | libStageFill
  | libStageStat
  | libPatrol
  | libFlash
  | libVolumes
  | libErr
  | libDeg
  | libCause
  | libCauseLate
  | libChState
  | seqCtrl
  | seqStreams
  | seqChunks
  | seqStat
  | seqSel
  | seqView0
  | seqView1
  | seqView2
  | prsState
  | prsDramIn
  | prsLogicalIn
  | prsOrders
  | prsScratch
  | prsStat
  | prsScanBytes
  | prsScanDram
  | prsPassPages
  | urnStatus
  | urnLayout
  | urnFree
  | urnBuffers
  | urnScrub
  | urnEcc
  | urnFault
  | urnFaultStat
  | urnFnQuota
  | urnFnUse
  | urnConflict
  | urnFnStat
  | urnRegion
  | urnWinBase
  | urnWinSize
  | urnWinCtrl
  | urnWinStat
  | dmaEngState
  | dmaEngBytes
  | dmaEngStat
  | dmaChState
  | dmaChPc
  | dmaChLoop
  | dmaChErr
  | dmaChErrAddr
  | dmaChSig
  | dmaChMoved
  | dmaCtrl
  | dmaFnQuota
  | dmaTenCh
  | dmaTenErr
  | drcState
  | drcRef
  | drcRefPostpone
  | drcRefDebt
  | drcRefDebtHi
  | drcRefStat
  | drcPage
  | drcSched
  | drcRt
  | drcRtStat
  | drcRtPanicCyc
  | drcEcc
  | drcEccDev
  | drcEccAddr
  | drcEccCtrl
  | drcRows
  | drcTrain
  | drcMap
  | drcHash
  | drcHashNext
  | drcScrub
  | drcInit
  | drcFastboot
  | bldGuar0
  | bldLimit0
  | bldGuar1
  | bldLimit1
  | bldCfg
  | bldWinBytes
  | bldWinReqs
  | bldWinDone
  | bldWinState
  | bldTotalBytes
  | bldTotalReqs
  | bldMiss
  | bldDemoted
  | bldStageGuar0
  | bldStageLimit0
  | bldStageGuar1
  | bldStageLimit1
  | bldStageCfg
  | bldCommit
  | bldActive
  | bldCtrl
  | bldDecaf
  | bldMissCtrl
  | bldBoost
  | bldStatus
  | bldMissPend
  | bldCheckFail
  | bldAttLimit
  | bldFnSel
  | bldFnView0
  | bldFnView1
  | bldFnView2
  | bldFnView3
  | tenFm
  | tenPort
  | tenFlrTime
  | tenStat
  | tenFnState
  | tenFnBlends
  | tenFnStat
  | tenSelf
  | wlkState
  | wlkCtrl
  | wlkCredit
  | wlkTxcred
  | wlkSeq
  | wlkFec
  | wlkErr
  | wlkErr2
  | wlkBytesTx
  | wlkBytesRx
  | wlkNapCtrl
  | wlkNapState
  | wlkNapStat
  | wlkMode
  | wlkRtCtrl
  | wlkRtStat
  | wlkRtPins
  | wlkSys
  | wlkLsSel
  | wlkLsView0
  | wlkLsView1
  | wlkLsView2
  | wlkFed
  | protCtrl
  | protGroup
  | protState
  | protSize
  | protSizeFl
  | protSpare
  | protRebuild
  | protEvac
  | protStat
  | protDirty
  | protMember
  | pwrMbCtrl
  | pwrMbStatus
  | pwrMbStat
  | pwrMbAttn
  | pwrMbAttnLog
  | pwrMbXcmd
  | pwrMbXstat
  | pwrMbXdata
  | pwrState
  | pwrStart
  | pwrStepUs
  | pwrReset
  | pwrCause
  | pwrFwCtrl
  | pwrFwSrc
  | pwrFwLen
  | pwrFwStat
  | pwrFwVerA
  | pwrFwVerB
  | pwrStat
  | pwrFault
  | evtCtrl
  | evtProd
  | evtCons
  | evtStat
  | evtBusPop
  | evtBusEntry
  | evtRing
  deriving DecidableEq, Repr

/-- The access types of R7. -/
inductive FType where
  | ro | rw | w1c | w1s | wo | rc
  deriving DecidableEq, Repr

/-- One field of a register: its low bit, its width, its type, its reset value. -/
structure FieldSpec where
  lo : Nat
  width : Nat
  type : FType
  reset : Nat
  deriving DecidableEq, Repr

/-- Where a register stands and what it holds. Instance `(i, j)` lies at `base + i * stride1 + j * stride2`; in the tenant
window `i` is the function and adds nothing to the offset. -/
structure RegSpec where
  tenant : Bool
  base : Nat
  count1 : Nat
  stride1 : Nat
  count2 : Nat
  stride2 : Nat
  width : Nat
  fields : List FieldSpec
  deriving DecidableEq, Repr

/-- Registers of block GLB, in the order of the inductive: tenant window, offset, repeats and strides, width, fields. -/
def specsGlb1 : List RegSpec := [
  -- GLB_ID
  RegSpec.mk false 0x0 1 0 1 0 64 [FieldSpec.mk 0 16 FType.ro 19289, FieldSpec.mk 16 8 FType.ro 1, FieldSpec.mk 32 10 FType.ro 0, FieldSpec.mk 42 6 FType.ro 0],
  -- GLB_CLK
  RegSpec.mk false 0x8 1 0 1 0 64 [FieldSpec.mk 0 2 FType.ro 0, FieldSpec.mk 2 1 FType.ro 0],
  -- GLB_SEAM_STATE
  RegSpec.mk false 0x10 1 0 1 0 64 [FieldSpec.mk 0 1 FType.ro 0, FieldSpec.mk 1 1 FType.ro 0, FieldSpec.mk 2 1 FType.ro 0, FieldSpec.mk 3 1 FType.ro 0, FieldSpec.mk 8 4 FType.w1c 0],
  -- GLB_CYCLE
  RegSpec.mk false 0x18 1 0 1 0 64 [FieldSpec.mk 0 64 FType.ro 0]]

/-- Registers of block TWB, in the order of the inductive: tenant window, offset, repeats and strides, width, fields. -/
def specsTwb1 : List RegSpec := [
  -- TWB_CTRL
  RegSpec.mk false 0x440000 1 0 1 0 64 [FieldSpec.mk 0 2 FType.rw 0, FieldSpec.mk 2 1 FType.rw 0, FieldSpec.mk 3 1 FType.w1s 0],
  -- TWB_BASE
  RegSpec.mk false 0x440008 1 0 1 0 64 [FieldSpec.mk 4 25 FType.rw 0],
  -- TWB_SIZE
  RegSpec.mk false 0x440010 1 0 1 0 64 [FieldSpec.mk 4 25 FType.rw 0],
  -- TWB_STATUS
  RegSpec.mk false 0x440018 1 0 1 0 64 [FieldSpec.mk 0 1 FType.w1c 0, FieldSpec.mk 1 1 FType.w1c 0, FieldSpec.mk 2 1 FType.w1c 0, FieldSpec.mk 3 1 FType.w1c 0, FieldSpec.mk 32 32 FType.ro 0],
  -- TWB_SRC_MASK
  RegSpec.mk false 0x440020 1 0 1 0 64 [FieldSpec.mk 0 5 FType.rw 31],
  -- TWB_OUT_HASH
  RegSpec.mk false 0x440028 1 0 1 0 64 [FieldSpec.mk 0 32 FType.ro 0]]

/-- Registers of block POUR, in the order of the inductive: tenant window, offset, repeats and strides, width, fields. -/
def specsPour1 : List RegSpec := [
  -- POUR_DOM_CTRL
  RegSpec.mk false 0x10000 64 64 1 0 64 [FieldSpec.mk 0 1 FType.rw 0, FieldSpec.mk 1 1 FType.w1s 0],
  -- POUR_DOM_SRC
  RegSpec.mk false 0x10008 64 64 1 0 64 [FieldSpec.mk 0 10 FType.rw 0, FieldSpec.mk 10 8 FType.rw 0],
  -- POUR_DOM_POS
  RegSpec.mk false 0x10010 64 64 1 0 64 [FieldSpec.mk 0 48 FType.ro 0, FieldSpec.mk 48 2 FType.ro 0, FieldSpec.mk 50 1 FType.ro 0],
  -- POUR_DOM_RATE
  RegSpec.mk false 0x10018 64 64 1 0 64 [FieldSpec.mk 0 32 FType.ro 0, FieldSpec.mk 32 32 FType.ro 0],
  -- POUR_DOM_BRIM
  RegSpec.mk false 0x10020 64 64 1 0 64 [FieldSpec.mk 0 16 FType.ro 65535, FieldSpec.mk 16 16 FType.ro 0, FieldSpec.mk 32 4 FType.ro 0, FieldSpec.mk 36 1 FType.ro 0],
  -- POUR_DOM_SILENCE
  RegSpec.mk false 0x10028 64 64 1 0 64 [FieldSpec.mk 0 24 FType.rw 100000],
  -- POUR_DOM_STAT
  RegSpec.mk false 0x10030 64 64 1 0 64 [FieldSpec.mk 0 16 FType.rc 0, FieldSpec.mk 16 16 FType.rc 0, FieldSpec.mk 32 16 FType.rc 0, FieldSpec.mk 48 16 FType.rc 0],
  -- POUR_TRIG_STAT
  RegSpec.mk false 0x11000 1 0 1 0 64 [FieldSpec.mk 0 16 FType.rc 0, FieldSpec.mk 16 16 FType.rc 0, FieldSpec.mk 32 16 FType.rc 0, FieldSpec.mk 48 11 FType.ro 1024],
  -- POUR_TRIG_QUOTA
  RegSpec.mk false 0x11008 1 0 1 0 64 [FieldSpec.mk 0 11 FType.rw 64],
  -- POUR_TRIG_ENTRY
  RegSpec.mk false 0x18000 4096 8 1 0 64 [FieldSpec.mk 0 64 FType.ro 0]]

/-- Registers of block CMD, in the order of the inductive: tenant window, offset, repeats and strides, width, fields. -/
def specsCmd1 : List RegSpec := [
  -- CMD_ACQ_BASE
  RegSpec.mk true 0x0 256 0 1 8 64 [FieldSpec.mk 12 52 FType.rw 0],
  -- CMD_ACQ_CFG
  RegSpec.mk true 0x8 256 0 1 8 64 [FieldSpec.mk 0 12 FType.rw 0, FieldSpec.mk 12 6 FType.rw 0, FieldSpec.mk 18 1 FType.rw 0, FieldSpec.mk 31 1 FType.rw 0],
  -- CMD_FN_STATUS
  RegSpec.mk true 0x10 256 0 1 8 64 [FieldSpec.mk 0 1 FType.ro 0, FieldSpec.mk 1 1 FType.ro 0, FieldSpec.mk 2 1 FType.ro 0, FieldSpec.mk 3 1 FType.ro 0],
  -- CMD_SQ_ERR
  RegSpec.mk true 0x20 256 0 4 8 64 [FieldSpec.mk 0 64 FType.w1c 0],
  -- CMD_CQ_ERR
  RegSpec.mk true 0x40 256 0 4 8 64 [FieldSpec.mk 0 64 FType.w1c 0],
  -- CMD_VEC_COAL
  RegSpec.mk true 0x800 256 0 64 8 64 [FieldSpec.mk 0 8 FType.rw 0, FieldSpec.mk 8 10 FType.rw 0],
  -- CMD_SQ_TAIL
  RegSpec.mk true 0x1000 256 0 256 8 32 [FieldSpec.mk 0 6 FType.wo 0],
  -- CMD_CQ_HEAD
  RegSpec.mk true 0x1004 256 0 256 8 32 [FieldSpec.mk 0 12 FType.wo 0]]

/-- Registers of block TEN, in the order of the inductive: tenant window, offset, repeats and strides, width, fields. -/
def specsTen1 : List RegSpec := [
  -- MSIX_TABLE
  RegSpec.mk true 0x2000 256 0 128 8 64 [FieldSpec.mk 0 64 FType.rw 0],
  -- MSIX_PBA
  RegSpec.mk true 0x3000 256 0 1 8 64 [FieldSpec.mk 0 64 FType.ro 0]]

/-- Registers of block CMD, in the order of the inductive: tenant window, offset, repeats and strides, width, fields. -/
def specsCmd2 : List RegSpec := [
  -- CMD_FN_QUOTA
  RegSpec.mk false 0x20000 256 8 1 0 64 [FieldSpec.mk 0 9 FType.rw 0, FieldSpec.mk 16 9 FType.rw 0],
  -- CMD_SQ_STATE
  RegSpec.mk false 0x20800 1024 8 1 0 64 [FieldSpec.mk 0 8 FType.ro 0, FieldSpec.mk 8 4 FType.ro 0, FieldSpec.mk 12 6 FType.ro 0, FieldSpec.mk 18 2 FType.ro 0, FieldSpec.mk 20 8 FType.ro 0],
  -- CMD_STAT
  RegSpec.mk false 0x22800 1 0 1 0 64 [FieldSpec.mk 0 16 FType.rc 0, FieldSpec.mk 16 16 FType.rc 0, FieldSpec.mk 32 16 FType.rc 0, FieldSpec.mk 48 16 FType.rc 0],
  -- CMD_FREE
  RegSpec.mk false 0x22808 1 0 1 0 64 [FieldSpec.mk 0 11 FType.ro 768, FieldSpec.mk 16 11 FType.ro 768]]

/-- Registers of block POOL, in the order of the inductive: tenant window, offset, repeats and strides, width, fields. -/
def specsPool1 : List RegSpec := [
  -- POOL_CTRL
  RegSpec.mk false 0x40000 1 0 1 0 64 [FieldSpec.mk 0 6 FType.rw 63],
  -- POOL_LOGICAL
  RegSpec.mk false 0x40008 1 0 1 0 64 [FieldSpec.mk 0 19 FType.rw 0],
  -- POOL_SECTORS_TOTAL
  RegSpec.mk false 0x40010 1 0 1 0 64 [FieldSpec.mk 0 36 FType.ro 0],
  -- POOL_SECTORS_FREE
  RegSpec.mk false 0x40018 1 0 1 0 64 [FieldSpec.mk 0 36 FType.ro 0],
  -- POOL_SECTORS_RSV
  RegSpec.mk false 0x40020 1 0 1 0 64 [FieldSpec.mk 0 36 FType.ro 0],
  -- POOL_WMARK
  RegSpec.mk false 0x40028 1 0 1 0 64 [FieldSpec.mk 0 10 FType.rw 100, FieldSpec.mk 16 10 FType.rw 30],
  -- POOL_SPACE
  RegSpec.mk false 0x40030 1 0 1 0 64 [FieldSpec.mk 0 2 FType.ro 0, FieldSpec.mk 2 1 FType.w1c 0],
  -- POOL_TABLES
  RegSpec.mk false 0x40038 1 0 1 0 64 [FieldSpec.mk 0 17 FType.ro 65536, FieldSpec.mk 32 17 FType.ro 65536],
  -- POOL_RANGES
  RegSpec.mk false 0x40040 1 0 1 0 64 [FieldSpec.mk 0 17 FType.ro 65536],
  -- POOL_FN_LIMIT
  RegSpec.mk false 0x41000 256 8 1 0 64 [FieldSpec.mk 0 17 FType.rw 256, FieldSpec.mk 32 12 FType.rw 3600],
  -- POOL_FN_USE
  RegSpec.mk false 0x42000 256 8 1 0 64 [FieldSpec.mk 0 17 FType.ro 0, FieldSpec.mk 32 16 FType.ro 0],
  -- POOL_FN_STAT
  RegSpec.mk false 0x43000 256 8 1 0 64 [FieldSpec.mk 0 16 FType.rc 0, FieldSpec.mk 16 16 FType.rc 0, FieldSpec.mk 32 16 FType.rc 0, FieldSpec.mk 48 16 FType.rc 0]]

/-- Registers of block GRD, in the order of the inductive: tenant window, offset, repeats and strides, width, fields. -/
def specsGrd1 : List RegSpec := [
  -- GRD_CTRL
  RegSpec.mk false 0x80000 1 0 1 0 64 [FieldSpec.mk 0 1 FType.rw 1],
  -- GRD_LANES
  RegSpec.mk false 0x80008 1 0 1 0 64 [FieldSpec.mk 0 64 FType.ro 18446744073709551615],
  -- GRD_LANES_HI
  RegSpec.mk false 0x80010 1 0 1 0 64 [FieldSpec.mk 0 64 FType.ro 18446744073709551615],
  -- GRD_PAGES
  RegSpec.mk false 0x80020 5 8 1 0 64 [FieldSpec.mk 0 64 FType.ro 0],
  -- GRD_BYTES_IN
  RegSpec.mk false 0x80048 1 0 1 0 64 [FieldSpec.mk 0 64 FType.ro 0],
  -- GRD_SECTORS_OUT
  RegSpec.mk false 0x80050 1 0 1 0 64 [FieldSpec.mk 0 64 FType.ro 0],
  -- GRD_ERR
  RegSpec.mk false 0x80058 1 0 1 0 64 [FieldSpec.mk 0 16 FType.rc 0, FieldSpec.mk 16 16 FType.rc 0, FieldSpec.mk 32 16 FType.rc 0, FieldSpec.mk 48 16 FType.rc 0],
  -- GRD_MAPC_HIT
  RegSpec.mk false 0x80060 1 0 1 0 64 [FieldSpec.mk 0 64 FType.ro 0],
  -- GRD_MAPC_MISS
  RegSpec.mk false 0x80068 1 0 1 0 64 [FieldSpec.mk 0 64 FType.ro 0],
  -- GRD_LOG
  RegSpec.mk false 0x80070 1 0 1 0 64 [FieldSpec.mk 0 15 FType.ro 0, FieldSpec.mk 32 16 FType.rc 0],
  -- GRD_KEYS
  RegSpec.mk false 0x80100 16 8 1 0 64 [FieldSpec.mk 0 64 FType.ro 0],
  -- GRD_HINT_IN
  RegSpec.mk false 0x80200 9 16 1 0 64 [FieldSpec.mk 0 64 FType.ro 0],
  -- GRD_HINT_OUT
  RegSpec.mk false 0x80208 9 16 1 0 64 [FieldSpec.mk 0 64 FType.ro 0]]

/-- Registers of block LIB, in the order of the inductive: tenant window, offset, repeats and strides, width, fields. -/
def specsLib1 : List RegSpec := [
  -- LIB_CTRL
  RegSpec.mk false 0xa0000 1 0 1 0 64 [FieldSpec.mk 0 4 FType.rw 4, FieldSpec.mk 8 6 FType.rw 62, FieldSpec.mk 16 8 FType.rw 40, FieldSpec.mk 32 8 FType.rw 16],
  -- LIB_STAGE_DRAM
  RegSpec.mk false 0xa0008 1 0 1 0 64 [FieldSpec.mk 0 16 FType.rw 64],
  -- LIB_STAGE_URN
  RegSpec.mk false 0xa0010 1 0 1 0 64 [FieldSpec.mk 0 9 FType.rw 64],
  -- LIB_STAGE_HOLD
  RegSpec.mk false 0xa0018 1 0 1 0 64 [FieldSpec.mk 0 24 FType.rw 500],
  -- LIB_STAGE_WAIT
  RegSpec.mk false 0xa0020 1 0 1 0 64 [FieldSpec.mk 0 24 FType.rw 10000],
  -- LIB_STAGE_FILL
  RegSpec.mk false 0xa0028 1 0 1 0 64 [FieldSpec.mk 0 32 FType.ro 0, FieldSpec.mk 32 32 FType.ro 0],
  -- LIB_STAGE_STAT
  RegSpec.mk false 0xa0030 1 0 1 0 64 [FieldSpec.mk 0 32 FType.ro 0, FieldSpec.mk 32 16 FType.rc 0],
  -- LIB_PATROL
  RegSpec.mk false 0xa0038 1 0 1 0 64 [FieldSpec.mk 0 8 FType.rw 7],
  -- LIB_FLASH
  RegSpec.mk false 0xa0040 1 0 1 0 64 [FieldSpec.mk 0 32 FType.ro 0, FieldSpec.mk 32 32 FType.ro 0],
  -- LIB_VOLUMES
  RegSpec.mk false 0xa0048 1 0 1 0 64 [FieldSpec.mk 0 15 FType.ro 0],
  -- LIB_ERR
  RegSpec.mk false 0xa0050 1 0 1 0 64 [FieldSpec.mk 0 16 FType.rc 0, FieldSpec.mk 16 16 FType.rc 0, FieldSpec.mk 32 16 FType.rc 0, FieldSpec.mk 48 16 FType.rc 0],
  -- LIB_DEG
  RegSpec.mk false 0xa0058 1 0 1 0 64 [FieldSpec.mk 0 32 FType.rc 0, FieldSpec.mk 32 32 FType.rc 0],
  -- LIB_CAUSE
  RegSpec.mk false 0xa0100 8 8 1 0 64 [FieldSpec.mk 0 32 FType.rc 0],
  -- LIB_CAUSE_LATE
  RegSpec.mk false 0xa0140 1 0 1 0 64 [FieldSpec.mk 0 32 FType.rc 0],
  -- LIB_CH_STATE
  RegSpec.mk false 0xa0200 32 8 1 0 64 [FieldSpec.mk 0 8 FType.ro 0, FieldSpec.mk 8 32 FType.ro 0, FieldSpec.mk 40 1 FType.ro 0, FieldSpec.mk 42 2 FType.ro 3]]

/-- Registers of block SEQ, in the order of the inductive: tenant window, offset, repeats and strides, width, fields. -/
def specsSeq1 : List RegSpec := [
  -- SEQ_CTRL
  RegSpec.mk false 0xc0000 1 0 1 0 64 [FieldSpec.mk 0 4 FType.rw 4],
  -- SEQ_STREAMS
  RegSpec.mk false 0xc0008 1 0 1 0 64 [FieldSpec.mk 0 17 FType.ro 0],
  -- SEQ_CHUNKS
  RegSpec.mk false 0xc0010 1 0 1 0 64 [FieldSpec.mk 0 21 FType.ro 1048576],
  -- SEQ_STAT
  RegSpec.mk false 0xc0018 1 0 1 0 64 [FieldSpec.mk 0 16 FType.rc 0, FieldSpec.mk 16 16 FType.rc 0, FieldSpec.mk 32 16 FType.rc 0, FieldSpec.mk 48 16 FType.rc 0],
  -- SEQ_SEL
  RegSpec.mk false 0xc0020 1 0 1 0 64 [FieldSpec.mk 0 16 FType.rw 0],
  -- SEQ_VIEW0
  RegSpec.mk false 0xc0028 1 0 1 0 64 [FieldSpec.mk 0 8 FType.ro 0, FieldSpec.mk 8 3 FType.ro 0, FieldSpec.mk 16 16 FType.ro 0, FieldSpec.mk 32 7 FType.ro 0, FieldSpec.mk 40 8 FType.ro 0],
  -- SEQ_VIEW1
  RegSpec.mk false 0xc0030 1 0 1 0 64 [FieldSpec.mk 0 25 FType.ro 0, FieldSpec.mk 32 25 FType.ro 0],
  -- SEQ_VIEW2
  RegSpec.mk false 0xc0038 1 0 1 0 64 [FieldSpec.mk 0 10 FType.ro 0, FieldSpec.mk 10 8 FType.ro 0, FieldSpec.mk 32 32 FType.ro 0]]

/-- Registers of block PRS, in the order of the inductive: tenant window, offset, repeats and strides, width, fields. -/
def specsPrs1 : List RegSpec := [
  -- PRS_STATE
  RegSpec.mk false 0x100000 64 4096 1 0 64 [FieldSpec.mk 0 2 FType.ro 3, FieldSpec.mk 2 1 FType.ro 0],
  -- PRS_DRAM_IN
  RegSpec.mk false 0x100008 64 4096 1 0 64 [FieldSpec.mk 0 64 FType.ro 0],
  -- PRS_LOGICAL_IN
  RegSpec.mk false 0x100010 64 4096 1 0 64 [FieldSpec.mk 0 64 FType.ro 0],
  -- PRS_ORDERS
  RegSpec.mk false 0x100018 64 4096 1 0 64 [FieldSpec.mk 0 64 FType.ro 0],
  -- PRS_SCRATCH
  RegSpec.mk false 0x100800 1 0 1 0 64 [FieldSpec.mk 0 9 FType.rw 128, FieldSpec.mk 16 7 FType.rw 32],
  -- PRS_STAT
  RegSpec.mk false 0x100808 1 0 1 0 64 [FieldSpec.mk 0 16 FType.rc 0, FieldSpec.mk 16 16 FType.rc 0, FieldSpec.mk 32 16 FType.rc 0, FieldSpec.mk 48 16 FType.rc 0],
  -- PRS_SCAN_BYTES
  RegSpec.mk false 0x100810 1 0 1 0 64 [FieldSpec.mk 0 64 FType.ro 0],
  -- PRS_SCAN_DRAM
  RegSpec.mk false 0x100818 1 0 1 0 64 [FieldSpec.mk 0 64 FType.ro 0],
  -- PRS_PASS_PAGES
  RegSpec.mk false 0x100820 8 8 1 0 64 [FieldSpec.mk 0 64 FType.ro 0]]

/-- Registers of block URN, in the order of the inductive: tenant window, offset, repeats and strides, width, fields. -/
def specsUrn1 : List RegSpec := [
  -- URN_STATUS
  RegSpec.mk false 0x140000 1 0 1 0 64 [FieldSpec.mk 0 1 FType.ro 0, FieldSpec.mk 1 1 FType.ro 0, FieldSpec.mk 2 11 FType.ro 0],
  -- URN_LAYOUT
  RegSpec.mk false 0x140008 1 0 1 0 64 [FieldSpec.mk 0 10 FType.ro 56, FieldSpec.mk 16 10 FType.ro 320, FieldSpec.mk 32 10 FType.ro 448],
  -- URN_FREE
  RegSpec.mk false 0x140010 1 0 1 0 64 [FieldSpec.mk 0 17 FType.ro 0, FieldSpec.mk 32 17 FType.ro 0, FieldSpec.mk 49 15 FType.ro 0],
  -- URN_BUFFERS
  RegSpec.mk false 0x140018 1 0 1 0 64 [FieldSpec.mk 0 17 FType.ro 0],
  -- URN_SCRUB
  RegSpec.mk false 0x140020 1 0 1 0 64 [FieldSpec.mk 0 24 FType.rw 1000, FieldSpec.mk 24 6 FType.rw 62],
  -- URN_ECC
  RegSpec.mk false 0x140028 1 0 1 0 64 [FieldSpec.mk 0 32 FType.rc 0, FieldSpec.mk 32 16 FType.rc 0],
  -- URN_FAULT
  RegSpec.mk false 0x140030 1 0 1 0 64 [FieldSpec.mk 0 29 FType.ro 0, FieldSpec.mk 29 8 FType.ro 0, FieldSpec.mk 37 1 FType.ro 0, FieldSpec.mk 38 1 FType.ro 0, FieldSpec.mk 63 1 FType.w1c 0],
  -- URN_FAULT_STAT
  RegSpec.mk false 0x140038 1 0 1 0 64 [FieldSpec.mk 0 32 FType.rc 0],
  -- URN_FN_QUOTA
  RegSpec.mk false 0x141000 256 8 1 0 64 [FieldSpec.mk 0 10 FType.rw 16],
  -- URN_FN_USE
  RegSpec.mk false 0x141800 256 8 1 0 64 [FieldSpec.mk 0 17 FType.ro 0, FieldSpec.mk 32 1 FType.ro 0],
  -- URN_CONFLICT
  RegSpec.mk false 0x142000 256 8 1 0 64 [FieldSpec.mk 0 32 FType.rc 0],
  -- URN_FN_STAT
  RegSpec.mk false 0x142800 256 8 1 0 64 [FieldSpec.mk 0 16 FType.rc 0, FieldSpec.mk 16 16 FType.rc 0, FieldSpec.mk 32 16 FType.rc 0],
  -- URN_REGION
  RegSpec.mk false 0x144000 256 64 8 8 64 [FieldSpec.mk 0 17 FType.ro 0, FieldSpec.mk 32 17 FType.ro 0, FieldSpec.mk 60 1 FType.ro 0, FieldSpec.mk 61 1 FType.ro 0, FieldSpec.mk 63 1 FType.ro 0],
  -- URN_WIN_BASE
  RegSpec.mk false 0x148000 64 32 1 0 64 [FieldSpec.mk 6 23 FType.rw 0],
  -- URN_WIN_SIZE
  RegSpec.mk false 0x148008 64 32 1 0 64 [FieldSpec.mk 6 18 FType.rw 0],
  -- URN_WIN_CTRL
  RegSpec.mk false 0x148010 64 32 1 0 64 [FieldSpec.mk 0 1 FType.rw 0, FieldSpec.mk 8 8 FType.rw 0, FieldSpec.mk 16 1 FType.rw 0]]

/-- Registers of block URN, in the order of the inductive: tenant window, offset, repeats and strides, width, fields. -/
def specsUrn2 : List RegSpec := [
  -- URN_WIN_STAT
  RegSpec.mk false 0x148018 64 32 1 0 64 [FieldSpec.mk 0 32 FType.rc 0]]

/-- Registers of block DMA, in the order of the inductive: tenant window, offset, repeats and strides, width, fields. -/
def specsDma1 : List RegSpec := [
  -- DMA_ENG_STATE
  RegSpec.mk false 0x180000 32 4096 1 0 64 [FieldSpec.mk 0 2 FType.ro 3, FieldSpec.mk 2 1 FType.ro 0, FieldSpec.mk 3 3 FType.ro 0],
  -- DMA_ENG_BYTES
  RegSpec.mk false 0x180008 32 4096 1 0 64 [FieldSpec.mk 0 64 FType.ro 0],
  -- DMA_ENG_STAT
  RegSpec.mk false 0x180010 32 4096 1 0 64 [FieldSpec.mk 0 16 FType.rc 0, FieldSpec.mk 16 16 FType.rc 0, FieldSpec.mk 32 16 FType.rc 0, FieldSpec.mk 48 16 FType.rc 0],
  -- DMA_CH_STATE
  RegSpec.mk false 0x180100 32 4096 8 64 64 [FieldSpec.mk 0 3 FType.ro 0, FieldSpec.mk 8 8 FType.ro 0, FieldSpec.mk 16 1 FType.ro 0, FieldSpec.mk 17 1 FType.ro 0, FieldSpec.mk 18 1 FType.ro 0, FieldSpec.mk 24 6 FType.ro 0, FieldSpec.mk 32 8 FType.ro 0],
  -- DMA_CH_PC
  RegSpec.mk false 0x180108 32 4096 8 64 64 [FieldSpec.mk 0 64 FType.ro 0],
  -- DMA_CH_LOOP
  RegSpec.mk false 0x180110 32 4096 8 64 64 [FieldSpec.mk 0 17 FType.ro 0, FieldSpec.mk 17 17 FType.ro 0, FieldSpec.mk 34 17 FType.ro 0],
  -- DMA_CH_ERR
  RegSpec.mk false 0x180118 32 4096 8 64 64 [FieldSpec.mk 0 3 FType.ro 0, FieldSpec.mk 4 4 FType.ro 0, FieldSpec.mk 8 1 FType.ro 0, FieldSpec.mk 9 2 FType.ro 0, FieldSpec.mk 12 4 FType.ro 0],
  -- DMA_CH_ERR_ADDR
  RegSpec.mk false 0x180120 32 4096 8 64 64 [FieldSpec.mk 0 64 FType.ro 0],
  -- DMA_CH_SIG
  RegSpec.mk false 0x180128 32 4096 8 64 64 [FieldSpec.mk 0 64 FType.ro 0],
  -- DMA_CH_MOVED
  RegSpec.mk false 0x180130 32 4096 8 64 64 [FieldSpec.mk 0 64 FType.ro 0],
  -- DMA_CTRL
  RegSpec.mk false 0x180800 1 0 1 0 64 [FieldSpec.mk 0 20 FType.rw 1000, FieldSpec.mk 20 16 FType.rw 1000, FieldSpec.mk 40 8 FType.rw 10],
  -- DMA_FN_QUOTA
  RegSpec.mk false 0x180c00 32 8 1 0 64 [FieldSpec.mk 0 64 FType.rw 578721382704613384],
  -- DMA_TEN_CH
  RegSpec.mk true 0x4000 256 0 256 8 64 [FieldSpec.mk 0 3 FType.ro 0, FieldSpec.mk 4 3 FType.ro 0, FieldSpec.mk 8 4 FType.ro 0, FieldSpec.mk 16 8 FType.rc 0, FieldSpec.mk 24 8 FType.rc 0, FieldSpec.mk 32 8 FType.ro 0],
  -- DMA_TEN_ERR
  RegSpec.mk true 0x4800 256 0 256 8 64 [FieldSpec.mk 0 64 FType.ro 0]]

/-- Registers of block DRC, in the order of the inductive: tenant window, offset, repeats and strides, width, fields. -/
def specsDrc1 : List RegSpec := [
  -- DRC_STATE
  RegSpec.mk false 0x200000 16 16384 1 0 64 [FieldSpec.mk 0 2 FType.ro 3, FieldSpec.mk 2 1 FType.ro 0, FieldSpec.mk 3 2 FType.ro 0, FieldSpec.mk 5 2 FType.ro 0, FieldSpec.mk 7 1 FType.ro 0],
  -- DRC_REF
  RegSpec.mk false 0x200008 16 16384 1 0 64 [FieldSpec.mk 0 1 FType.rw 0, FieldSpec.mk 1 1 FType.rw 1, FieldSpec.mk 4 4 FType.rw 2, FieldSpec.mk 8 1 FType.ro 0, FieldSpec.mk 9 1 FType.ro 0],
  -- DRC_REF_POSTPONE
  RegSpec.mk false 0x200010 16 16384 1 0 64 [FieldSpec.mk 0 4 FType.ro 4, FieldSpec.mk 16 16 FType.rc 0, FieldSpec.mk 32 16 FType.rc 0],
  -- DRC_REF_DEBT
  RegSpec.mk false 0x200018 16 16384 1 0 64 [FieldSpec.mk 0 64 FType.ro 0],
  -- DRC_REF_DEBT_HI
  RegSpec.mk false 0x200020 16 16384 1 0 64 [FieldSpec.mk 0 64 FType.ro 0],
  -- DRC_REF_STAT
  RegSpec.mk false 0x200028 16 16384 1 0 64 [FieldSpec.mk 0 32 FType.ro 0, FieldSpec.mk 32 32 FType.ro 0],
  -- DRC_PAGE
  RegSpec.mk false 0x200030 16 16384 1 0 64 [FieldSpec.mk 0 3 FType.rw 2, FieldSpec.mk 8 10 FType.rw 64],
  -- DRC_SCHED
  RegSpec.mk false 0x200038 16 16384 1 0 64 [FieldSpec.mk 0 12 FType.rw 2048],
  -- DRC_RT
  RegSpec.mk false 0x200040 16 16384 1 0 64 [FieldSpec.mk 0 11 FType.rw 256, FieldSpec.mk 16 11 FType.rw 512, FieldSpec.mk 31 1 FType.rw 1],
  -- DRC_RT_STAT
  RegSpec.mk false 0x200048 16 16384 1 0 64 [FieldSpec.mk 0 11 FType.ro 0, FieldSpec.mk 12 1 FType.ro 0, FieldSpec.mk 16 4 FType.ro 0, FieldSpec.mk 32 16 FType.rc 0],
  -- DRC_RT_PANIC_CYC
  RegSpec.mk false 0x200050 16 16384 1 0 64 [FieldSpec.mk 0 64 FType.ro 0],
  -- DRC_ECC
  RegSpec.mk false 0x200058 16 16384 1 0 64 [FieldSpec.mk 0 32 FType.rc 0, FieldSpec.mk 32 16 FType.rc 0],
  -- DRC_ECC_DEV
  RegSpec.mk false 0x200060 16 16384 1 0 64 [FieldSpec.mk 0 64 FType.ro 18446744073709551615],
  -- DRC_ECC_ADDR
  RegSpec.mk false 0x200068 16 16384 1 0 64 [FieldSpec.mk 6 37 FType.ro 0, FieldSpec.mk 63 1 FType.w1c 0],
  -- DRC_ECC_CTRL
  RegSpec.mk false 0x200070 16 16384 1 0 64 [FieldSpec.mk 0 16 FType.rw 64],
  -- DRC_ROWS
  RegSpec.mk false 0x200078 16 16384 1 0 64 [FieldSpec.mk 0 32 FType.rc 0, FieldSpec.mk 32 32 FType.rc 0]]

/-- Registers of block DRC, in the order of the inductive: tenant window, offset, repeats and strides, width, fields. -/
def specsDrc2 : List RegSpec := [
  -- DRC_TRAIN
  RegSpec.mk false 0x200080 16 16384 1 0 64 [FieldSpec.mk 0 4 FType.ro 0, FieldSpec.mk 4 1 FType.ro 0, FieldSpec.mk 5 4 FType.ro 0, FieldSpec.mk 9 6 FType.ro 0, FieldSpec.mk 16 8 FType.rw 8],
  -- DRC_MAP
  RegSpec.mk false 0x203000 1 0 1 0 64 [FieldSpec.mk 0 2 FType.ro 0, FieldSpec.mk 8 2 FType.rw 2],
  -- DRC_HASH
  RegSpec.mk false 0x203008 5 8 1 0 64 [FieldSpec.mk 0 48 FType.ro 0],
  -- DRC_HASH_NEXT
  RegSpec.mk false 0x203040 5 8 1 0 64 [FieldSpec.mk 0 48 FType.rw 0],
  -- DRC_SCRUB
  RegSpec.mk false 0x203080 1 0 1 0 64 [FieldSpec.mk 0 8 FType.rw 24, FieldSpec.mk 8 6 FType.rw 62],
  -- DRC_INIT
  RegSpec.mk false 0x203088 1 0 1 0 64 [FieldSpec.mk 0 14 FType.ro 0, FieldSpec.mk 16 1 FType.ro 0],
  -- DRC_FASTBOOT
  RegSpec.mk false 0x203090 1 0 1 0 64 [FieldSpec.mk 0 1 FType.rw 1, FieldSpec.mk 1 1 FType.ro 0, FieldSpec.mk 2 1 FType.ro 0]]

/-- Registers of block BLD, in the order of the inductive: tenant window, offset, repeats and strides, width, fields. -/
def specsBld1 : List RegSpec := [
  -- BLD_GUAR0
  RegSpec.mk false 0x280000 64 128 1 0 64 [FieldSpec.mk 0 32 FType.ro 0],
  -- BLD_LIMIT0
  RegSpec.mk false 0x280008 64 128 1 0 64 [FieldSpec.mk 0 32 FType.ro 4294967295],
  -- BLD_GUAR1
  RegSpec.mk false 0x280010 64 128 1 0 64 [FieldSpec.mk 0 32 FType.ro 0],
  -- BLD_LIMIT1
  RegSpec.mk false 0x280018 64 128 1 0 64 [FieldSpec.mk 0 32 FType.ro 4294967295],
  -- BLD_CFG
  RegSpec.mk false 0x280020 64 128 1 0 64 [FieldSpec.mk 0 32 FType.ro 1000000, FieldSpec.mk 32 1 FType.ro 0],
  -- BLD_WIN_BYTES
  RegSpec.mk false 0x280028 64 128 1 0 64 [FieldSpec.mk 0 48 FType.ro 0],
  -- BLD_WIN_REQS
  RegSpec.mk false 0x280030 64 128 1 0 64 [FieldSpec.mk 0 32 FType.ro 0, FieldSpec.mk 32 32 FType.ro 0],
  -- BLD_WIN_DONE
  RegSpec.mk false 0x280038 64 128 1 0 64 [FieldSpec.mk 0 48 FType.ro 0],
  -- BLD_WIN_STATE
  RegSpec.mk false 0x280040 64 128 1 0 64 [FieldSpec.mk 0 10 FType.ro 0, FieldSpec.mk 16 9 FType.ro 0, FieldSpec.mk 32 32 FType.ro 0],
  -- BLD_TOTAL_BYTES
  RegSpec.mk false 0x280048 64 128 1 0 64 [FieldSpec.mk 0 64 FType.ro 0],
  -- BLD_TOTAL_REQS
  RegSpec.mk false 0x280050 64 128 1 0 64 [FieldSpec.mk 0 64 FType.ro 0],
  -- BLD_MISS
  RegSpec.mk false 0x280058 64 128 1 0 64 [FieldSpec.mk 0 16 FType.rc 0, FieldSpec.mk 16 16 FType.rc 0, FieldSpec.mk 32 32 FType.ro 0],
  -- BLD_DEMOTED
  RegSpec.mk false 0x280060 64 128 1 0 64 [FieldSpec.mk 0 32 FType.rc 0],
  -- BLD_STAGE_GUAR0
  RegSpec.mk false 0x282000 1 0 1 0 64 [FieldSpec.mk 0 32 FType.rw 0],
  -- BLD_STAGE_LIMIT0
  RegSpec.mk false 0x282008 1 0 1 0 64 [FieldSpec.mk 0 32 FType.rw 4294967295],
  -- BLD_STAGE_GUAR1
  RegSpec.mk false 0x282010 1 0 1 0 64 [FieldSpec.mk 0 32 FType.rw 0]]

/-- Registers of block BLD, in the order of the inductive: tenant window, offset, repeats and strides, width, fields. -/
def specsBld2 : List RegSpec := [
  -- BLD_STAGE_LIMIT1
  RegSpec.mk false 0x282018 1 0 1 0 64 [FieldSpec.mk 0 32 FType.rw 4294967295],
  -- BLD_STAGE_CFG
  RegSpec.mk false 0x282020 1 0 1 0 64 [FieldSpec.mk 0 32 FType.rw 1000000, FieldSpec.mk 32 2 FType.rw 0],
  -- BLD_COMMIT
  RegSpec.mk false 0x282028 1 0 1 0 64 [FieldSpec.mk 0 6 FType.wo 0],
  -- BLD_ACTIVE
  RegSpec.mk false 0x282030 1 0 1 0 64 [FieldSpec.mk 0 64 FType.rw 0],
  -- BLD_CTRL
  RegSpec.mk false 0x282038 1 0 1 0 64 [FieldSpec.mk 0 17 FType.rw 1000, FieldSpec.mk 32 10 FType.rw 100],
  -- BLD_DECAF
  RegSpec.mk false 0x282040 1 0 1 0 64 [FieldSpec.mk 0 10 FType.rw 250, FieldSpec.mk 16 16 FType.rw 4096],
  -- BLD_MISS_CTRL
  RegSpec.mk false 0x282048 1 0 1 0 64 [FieldSpec.mk 0 10 FType.rw 500, FieldSpec.mk 16 10 FType.rw 10, FieldSpec.mk 32 6 FType.rw 0, FieldSpec.mk 39 1 FType.rw 1],
  -- BLD_BOOST
  RegSpec.mk false 0x282050 1 0 1 0 64 [FieldSpec.mk 0 16 FType.rw 100],
  -- BLD_STATUS
  RegSpec.mk false 0x282058 1 0 1 0 64 [FieldSpec.mk 0 1 FType.ro 0],
  -- BLD_MISS_PEND
  RegSpec.mk false 0x282060 1 0 1 0 64 [FieldSpec.mk 0 64 FType.w1c 0],
  -- BLD_CHECK_FAIL
  RegSpec.mk false 0x282068 1 0 1 0 64 [FieldSpec.mk 0 64 FType.ro 0],
  -- BLD_ATT_LIMIT
  RegSpec.mk false 0x282100 16 8 1 0 64 [FieldSpec.mk 0 32 FType.rw 4294967295],
  -- BLD_FN_SEL
  RegSpec.mk false 0x282200 1 0 1 0 64 [FieldSpec.mk 0 9 FType.rw 0, FieldSpec.mk 16 6 FType.rw 0],
  -- BLD_FN_VIEW0
  RegSpec.mk false 0x282208 1 0 1 0 64 [FieldSpec.mk 0 48 FType.ro 0, FieldSpec.mk 48 1 FType.ro 0, FieldSpec.mk 49 1 FType.ro 0],
  -- BLD_FN_VIEW1
  RegSpec.mk false 0x282210 1 0 1 0 64 [FieldSpec.mk 0 48 FType.ro 0],
  -- BLD_FN_VIEW2
  RegSpec.mk false 0x282218 1 0 1 0 64 [FieldSpec.mk 0 32 FType.ro 0, FieldSpec.mk 32 32 FType.ro 0]]

/-- Registers of block BLD, in the order of the inductive: tenant window, offset, repeats and strides, width, fields. -/
def specsBld3 : List RegSpec := [
  -- BLD_FN_VIEW3
  RegSpec.mk false 0x282220 1 0 1 0 64 [FieldSpec.mk 0 16 FType.ro 0, FieldSpec.mk 16 48 FType.ro 0]]

/-- Registers of block TEN, in the order of the inductive: tenant window, offset, repeats and strides, width, fields. -/
def specsTen2 : List RegSpec := [
  -- TEN_FM
  RegSpec.mk false 0x2c0000 1 0 1 0 64 [FieldSpec.mk 0 10 FType.rw 0, FieldSpec.mk 10 8 FType.rw 0, FieldSpec.mk 18 1 FType.ro 0, FieldSpec.mk 19 1 FType.rw 0],
  -- TEN_PORT
  RegSpec.mk false 0x2c0008 4 8 1 0 64 [FieldSpec.mk 0 2 FType.ro 0, FieldSpec.mk 4 4 FType.ro 0, FieldSpec.mk 8 4 FType.ro 0],
  -- TEN_FLR_TIME
  RegSpec.mk false 0x2c0040 1 0 1 0 64 [FieldSpec.mk 0 20 FType.ro 0, FieldSpec.mk 32 20 FType.ro 0],
  -- TEN_STAT
  RegSpec.mk false 0x2c0048 1 0 1 0 64 [FieldSpec.mk 0 16 FType.rc 0],
  -- TEN_FN_STATE
  RegSpec.mk false 0x2c1000 256 8 1 0 64 [FieldSpec.mk 0 1 FType.ro 0, FieldSpec.mk 1 1 FType.ro 0, FieldSpec.mk 2 1 FType.ro 0, FieldSpec.mk 3 2 FType.ro 0, FieldSpec.mk 8 6 FType.ro 0, FieldSpec.mk 14 1 FType.ro 1, FieldSpec.mk 16 8 FType.ro 0, FieldSpec.mk 24 4 FType.ro 0],
  -- TEN_FN_BLENDS
  RegSpec.mk false 0x2c1800 256 8 1 0 64 [FieldSpec.mk 0 64 FType.ro 0],
  -- TEN_FN_STAT
  RegSpec.mk false 0x2c2000 256 8 1 0 64 [FieldSpec.mk 0 16 FType.rc 0, FieldSpec.mk 16 16 FType.rc 0, FieldSpec.mk 32 16 FType.rc 0],
  -- TEN_SELF
  RegSpec.mk true 0x5000 256 0 1 8 64 [FieldSpec.mk 0 8 FType.ro 0, FieldSpec.mk 8 4 FType.ro 0, FieldSpec.mk 16 1 FType.ro 0, FieldSpec.mk 24 6 FType.ro 0, FieldSpec.mk 30 1 FType.ro 1, FieldSpec.mk 40 8 FType.ro 0]]

/-- Registers of block WLK, in the order of the inductive: tenant window, offset, repeats and strides, width, fields. -/
def specsWlk1 : List RegSpec := [
  -- WLK_STATE
  RegSpec.mk false 0x300000 64 4096 1 0 64 [FieldSpec.mk 0 2 FType.ro 3, FieldSpec.mk 2 4 FType.ro 0, FieldSpec.mk 6 2 FType.ro 0, FieldSpec.mk 8 10 FType.ro 0, FieldSpec.mk 18 6 FType.ro 0, FieldSpec.mk 24 6 FType.ro 0, FieldSpec.mk 30 1 FType.w1c 0],
  -- WLK_CTRL
  RegSpec.mk false 0x300008 64 4096 1 0 64 [FieldSpec.mk 0 4 FType.rw 8, FieldSpec.mk 4 10 FType.rw 20, FieldSpec.mk 16 1 FType.w1s 0, FieldSpec.mk 17 1 FType.w1s 0, FieldSpec.mk 24 8 FType.rw 0, FieldSpec.mk 32 10 FType.rw 10],
  -- WLK_CREDIT
  RegSpec.mk false 0x300010 64 4096 1 0 64 [FieldSpec.mk 0 10 FType.rw 192, FieldSpec.mk 16 10 FType.rw 192, FieldSpec.mk 32 10 FType.rw 64, FieldSpec.mk 48 10 FType.rw 320],
  -- WLK_TXCRED
  RegSpec.mk false 0x300018 64 4096 1 0 64 [FieldSpec.mk 0 64 FType.ro 0],
  -- WLK_SEQ
  RegSpec.mk false 0x300020 64 4096 1 0 64 [FieldSpec.mk 0 12 FType.ro 0, FieldSpec.mk 16 12 FType.ro 0, FieldSpec.mk 32 12 FType.ro 0],
  -- WLK_FEC
  RegSpec.mk false 0x300028 64 4096 1 0 64 [FieldSpec.mk 0 32 FType.rc 0, FieldSpec.mk 32 16 FType.rc 0],
  -- WLK_ERR
  RegSpec.mk false 0x300030 64 4096 1 0 64 [FieldSpec.mk 0 16 FType.rc 0, FieldSpec.mk 16 16 FType.rc 0, FieldSpec.mk 32 16 FType.rc 0, FieldSpec.mk 48 16 FType.rc 0],
  -- WLK_ERR2
  RegSpec.mk false 0x300038 64 4096 1 0 64 [FieldSpec.mk 0 8 FType.rc 0, FieldSpec.mk 8 16 FType.rc 0, FieldSpec.mk 24 8 FType.rc 0],
  -- WLK_BYTES_TX
  RegSpec.mk false 0x300040 64 4096 1 0 64 [FieldSpec.mk 0 64 FType.ro 0],
  -- WLK_BYTES_RX
  RegSpec.mk false 0x300048 64 4096 1 0 64 [FieldSpec.mk 0 64 FType.ro 0],
  -- WLK_NAP_CTRL
  RegSpec.mk false 0x300100 64 4096 1 0 64 [FieldSpec.mk 0 1 FType.rw 1, FieldSpec.mk 8 16 FType.rw 20, FieldSpec.mk 32 14 FType.rw 10000],
  -- WLK_NAP_STATE
  RegSpec.mk false 0x300108 64 4096 1 0 64 [FieldSpec.mk 0 14 FType.ro 10000, FieldSpec.mk 16 4 FType.ro 0, FieldSpec.mk 32 14 FType.ro 0],
  -- WLK_NAP_STAT
  RegSpec.mk false 0x300110 64 4096 1 0 64 [FieldSpec.mk 0 32 FType.rc 0, FieldSpec.mk 32 16 FType.rc 0, FieldSpec.mk 48 16 FType.rc 0],
  -- WLK_MODE
  RegSpec.mk false 0x300118 64 4096 1 0 64 [FieldSpec.mk 0 2 FType.rw 0],
  -- WLK_RT_CTRL
  RegSpec.mk false 0x300800 1 0 1 0 64 [FieldSpec.mk 0 1 FType.rw 0, FieldSpec.mk 8 4 FType.rw 4, FieldSpec.mk 16 14 FType.rw 50, FieldSpec.mk 32 14 FType.rw 100, FieldSpec.mk 48 6 FType.rw 8],
  -- WLK_RT_STAT
  RegSpec.mk false 0x300808 1 0 1 0 64 [FieldSpec.mk 0 16 FType.rc 0, FieldSpec.mk 16 16 FType.rc 0, FieldSpec.mk 32 16 FType.rc 0, FieldSpec.mk 48 16 FType.rc 0]]

/-- Registers of block WLK, in the order of the inductive: tenant window, offset, repeats and strides, width, fields. -/
def specsWlk2 : List RegSpec := [
  -- WLK_RT_PINS
  RegSpec.mk false 0x300810 1 0 1 0 64 [FieldSpec.mk 0 15 FType.ro 0],
  -- WLK_SYS
  RegSpec.mk false 0x300818 1 0 1 0 64 [FieldSpec.mk 0 6 FType.rw 0],
  -- WLK_LS_SEL
  RegSpec.mk false 0x300820 1 0 1 0 64 [FieldSpec.mk 0 10 FType.rw 0],
  -- WLK_LS_VIEW0
  RegSpec.mk false 0x300828 1 0 1 0 64 [FieldSpec.mk 0 64 FType.ro 0],
  -- WLK_LS_VIEW1
  RegSpec.mk false 0x300830 1 0 1 0 64 [FieldSpec.mk 0 64 FType.ro 0],
  -- WLK_LS_VIEW2
  RegSpec.mk false 0x300838 1 0 1 0 64 [FieldSpec.mk 0 2 FType.ro 0, FieldSpec.mk 8 1 FType.ro 1],
  -- WLK_FED
  RegSpec.mk false 0x300900 64 8 1 0 64 [FieldSpec.mk 0 10 FType.rw 0, FieldSpec.mk 10 1 FType.rw 0, FieldSpec.mk 11 1 FType.rw 0, FieldSpec.mk 16 10 FType.rw 0, FieldSpec.mk 26 1 FType.rw 0, FieldSpec.mk 27 1 FType.rw 0]]

/-- Registers of block PROT, in the order of the inductive: tenant window, offset, repeats and strides, width, fields. -/
def specsProt1 : List RegSpec := [
  -- PROT_CTRL
  RegSpec.mk false 0x400000 1 0 1 0 64 [FieldSpec.mk 0 20 FType.rw 5000, FieldSpec.mk 20 16 FType.rw 1000, FieldSpec.mk 40 6 FType.rw 61, FieldSpec.mk 48 12 FType.rw 50],
  -- PROT_GROUP
  RegSpec.mk false 0x400008 1 0 1 0 64 [FieldSpec.mk 0 3 FType.rw 0, FieldSpec.mk 8 5 FType.ro 0, FieldSpec.mk 16 1 FType.w1s 0],
  -- PROT_STATE
  RegSpec.mk false 0x400010 1 0 1 0 64 [FieldSpec.mk 0 3 FType.ro 0, FieldSpec.mk 8 1 FType.w1c 0, FieldSpec.mk 16 5 FType.ro 0],
  -- PROT_SIZE
  RegSpec.mk false 0x400018 1 0 1 0 64 [FieldSpec.mk 0 32 FType.ro 0, FieldSpec.mk 32 32 FType.ro 0],
  -- PROT_SIZE_FL
  RegSpec.mk false 0x400020 1 0 1 0 64 [FieldSpec.mk 0 32 FType.ro 0],
  -- PROT_SPARE
  RegSpec.mk false 0x400028 1 0 1 0 64 [FieldSpec.mk 0 2 FType.ro 0, FieldSpec.mk 8 10 FType.ro 0],
  -- PROT_REBUILD
  RegSpec.mk false 0x400030 1 0 1 0 64 [FieldSpec.mk 0 2 FType.ro 0, FieldSpec.mk 8 56 FType.ro 0],
  -- PROT_EVAC
  RegSpec.mk false 0x400038 1 0 1 0 64 [FieldSpec.mk 0 10 FType.rw 0, FieldSpec.mk 15 1 FType.w1s 0, FieldSpec.mk 16 1 FType.ro 0],
  -- PROT_STAT
  RegSpec.mk false 0x400040 1 0 1 0 64 [FieldSpec.mk 0 16 FType.rc 0, FieldSpec.mk 16 16 FType.rc 0, FieldSpec.mk 32 16 FType.rc 0, FieldSpec.mk 48 16 FType.rc 0],
  -- PROT_DIRTY
  RegSpec.mk false 0x400048 1 0 1 0 64 [FieldSpec.mk 0 21 FType.ro 0, FieldSpec.mk 31 1 FType.w1c 0],
  -- PROT_MEMBER
  RegSpec.mk false 0x400100 18 8 1 0 64 [FieldSpec.mk 0 10 FType.rw 0, FieldSpec.mk 16 2 FType.ro 0, FieldSpec.mk 20 10 FType.ro 0]]

/-- Registers of block PWR, in the order of the inductive: tenant window, offset, repeats and strides, width, fields. -/
def specsPwr1 : List RegSpec := [
  -- PWR_MB_CTRL
  RegSpec.mk false 0x488000 1 0 1 0 64 [FieldSpec.mk 0 4 FType.rw 5, FieldSpec.mk 4 2 FType.rw 1, FieldSpec.mk 8 1 FType.rw 1, FieldSpec.mk 9 1 FType.rw 0, FieldSpec.mk 10 1 FType.rw 0, FieldSpec.mk 11 1 FType.rw 0, FieldSpec.mk 16 1 FType.w1s 0, FieldSpec.mk 24 4 FType.rw 3],
  -- PWR_MB_STATUS
  RegSpec.mk false 0x488008 1 0 1 0 64 [FieldSpec.mk 0 7 FType.ro 0, FieldSpec.mk 8 2 FType.ro 0, FieldSpec.mk 10 2 FType.ro 0, FieldSpec.mk 12 1 FType.ro 0, FieldSpec.mk 13 1 FType.ro 0, FieldSpec.mk 16 1 FType.w1c 0],
  -- PWR_MB_STAT
  RegSpec.mk false 0x488010 1 0 1 0 64 [FieldSpec.mk 0 8 FType.rc 0, FieldSpec.mk 8 8 FType.rc 0, FieldSpec.mk 16 8 FType.rc 0, FieldSpec.mk 24 8 FType.rc 0, FieldSpec.mk 32 16 FType.rc 0, FieldSpec.mk 48 16 FType.rc 0],
  -- PWR_MB_ATTN
  RegSpec.mk false 0x488018 1 0 1 0 64 [FieldSpec.mk 0 4 FType.w1c 0, FieldSpec.mk 8 4 FType.rw 15, FieldSpec.mk 12 1 FType.w1s 0],
  -- PWR_MB_ATTN_LOG
  RegSpec.mk false 0x488020 1 0 1 0 64 [FieldSpec.mk 0 7 FType.ro 0, FieldSpec.mk 8 1 FType.ro 0, FieldSpec.mk 16 16 FType.rc 0],
  -- PWR_MB_XCMD
  RegSpec.mk false 0x488100 1 0 1 0 64 [FieldSpec.mk 0 7 FType.rw 0, FieldSpec.mk 8 6 FType.rw 0, FieldSpec.mk 16 6 FType.rw 0, FieldSpec.mk 24 2 FType.rw 0, FieldSpec.mk 31 1 FType.w1s 0],
  -- PWR_MB_XSTAT
  RegSpec.mk false 0x488108 1 0 1 0 64 [FieldSpec.mk 0 4 FType.ro 0, FieldSpec.mk 8 6 FType.ro 0],
  -- PWR_MB_XDATA
  RegSpec.mk false 0x488120 4 8 1 0 64 [FieldSpec.mk 0 64 FType.rw 0],
  -- PWR_STATE
  RegSpec.mk false 0x480000 1 0 1 0 64 [FieldSpec.mk 0 2 FType.ro 0, FieldSpec.mk 4 2 FType.rw 0, FieldSpec.mk 8 2 FType.ro 0, FieldSpec.mk 12 1 FType.w1c 0],
  -- PWR_START
  RegSpec.mk false 0x480008 1 0 1 0 64 [FieldSpec.mk 0 4 FType.ro 0, FieldSpec.mk 4 1 FType.ro 0, FieldSpec.mk 8 3 FType.ro 0, FieldSpec.mk 12 1 FType.ro 1],
  -- PWR_STEP_US
  RegSpec.mk false 0x480010 5 8 1 0 64 [FieldSpec.mk 0 32 FType.ro 0],
  -- PWR_RESET
  RegSpec.mk false 0x480040 1 0 1 0 64 [FieldSpec.mk 0 1 FType.w1s 0, FieldSpec.mk 1 1 FType.w1s 0, FieldSpec.mk 8 8 FType.wo 0],
  -- PWR_CAUSE
  RegSpec.mk false 0x480048 1 0 1 0 64 [FieldSpec.mk 0 4 FType.ro 0, FieldSpec.mk 16 16 FType.ro 0, FieldSpec.mk 32 16 FType.ro 0],
  -- PWR_FW_CTRL
  RegSpec.mk false 0x480050 1 0 1 0 64 [FieldSpec.mk 0 1 FType.w1s 0, FieldSpec.mk 1 1 FType.w1s 0, FieldSpec.mk 2 1 FType.w1s 0, FieldSpec.mk 8 1 FType.rw 0],
  -- PWR_FW_SRC
  RegSpec.mk false 0x480058 1 0 1 0 64 [FieldSpec.mk 12 52 FType.rw 0],
  -- PWR_FW_LEN
  RegSpec.mk false 0x480060 1 0 1 0 64 [FieldSpec.mk 0 25 FType.rw 0]]

/-- Registers of block PWR, in the order of the inductive: tenant window, offset, repeats and strides, width, fields. -/
def specsPwr2 : List RegSpec := [
  -- PWR_FW_STAT
  RegSpec.mk false 0x480068 1 0 1 0 64 [FieldSpec.mk 0 3 FType.ro 0, FieldSpec.mk 8 1 FType.ro 0, FieldSpec.mk 9 1 FType.ro 0, FieldSpec.mk 10 2 FType.ro 0, FieldSpec.mk 12 1 FType.w1c 0, FieldSpec.mk 16 16 FType.ro 0, FieldSpec.mk 32 16 FType.ro 0, FieldSpec.mk 48 16 FType.ro 0],
  -- PWR_FW_VER_A
  RegSpec.mk false 0x480070 1 0 1 0 64 [FieldSpec.mk 0 64 FType.ro 0],
  -- PWR_FW_VER_B
  RegSpec.mk false 0x480078 1 0 1 0 64 [FieldSpec.mk 0 64 FType.ro 0],
  -- PWR_STAT
  RegSpec.mk false 0x480080 1 0 1 0 64 [FieldSpec.mk 0 16 FType.rc 0],
  -- PWR_FAULT
  RegSpec.mk false 0x480088 1 0 1 0 64 [FieldSpec.mk 0 1 FType.w1c 0, FieldSpec.mk 1 3 FType.ro 0, FieldSpec.mk 4 1 FType.w1c 0]]

/-- Registers of block EVT, in the order of the inductive: tenant window, offset, repeats and strides, width, fields. -/
def specsEvt1 : List RegSpec := [
  -- EVT_CTRL
  RegSpec.mk false 0x4c0000 1 0 1 0 64 [FieldSpec.mk 0 6 FType.rw 0, FieldSpec.mk 7 1 FType.rw 1, FieldSpec.mk 8 2 FType.rw 2, FieldSpec.mk 16 1 FType.w1s 0],
  -- EVT_PROD
  RegSpec.mk false 0x4c0008 1 0 1 0 64 [FieldSpec.mk 0 32 FType.ro 0],
  -- EVT_CONS
  RegSpec.mk false 0x4c0010 1 0 1 0 64 [FieldSpec.mk 0 32 FType.rw 0],
  -- EVT_STAT
  RegSpec.mk false 0x4c0018 1 0 1 0 64 [FieldSpec.mk 0 13 FType.ro 0, FieldSpec.mk 16 16 FType.rc 0],
  -- EVT_BUS_POP
  RegSpec.mk false 0x4c0020 1 0 1 0 64 [FieldSpec.mk 0 1 FType.w1s 0],
  -- EVT_BUS_ENTRY
  RegSpec.mk false 0x4c0040 4 8 1 0 64 [FieldSpec.mk 0 64 FType.ro 0],
  -- EVT_RING
  RegSpec.mk false 0x4e0000 16384 8 1 0 64 [FieldSpec.mk 0 64 FType.ro 0]]

/-- The rows of every register, in the order of the inductive. -/
def regSpecs : List RegSpec :=
  specsGlb1 ++ specsTwb1 ++ specsPour1 ++ specsCmd1 ++ specsTen1 ++ specsCmd2 ++ specsPool1 ++ specsGrd1 ++ specsLib1 ++ specsSeq1 ++ specsPrs1 ++ specsUrn1 ++ specsUrn2 ++ specsDma1 ++ specsDrc1 ++ specsDrc2 ++ specsBld1 ++ specsBld2 ++ specsBld3 ++ specsTen2 ++ specsWlk1 ++ specsWlk2 ++ specsProt1 ++ specsPwr1 ++ specsPwr2 ++ specsEvt1

/-- The place and the fields of each register (the Registers tables; offsets as the lists of spec/20). -/
def Reg.spec (r : Reg) : RegSpec := regSpecs.getD r.ctorIdx (RegSpec.mk false 0 0 0 0 0 64 [])

/-- A field by name: its register, its low bit and its width. -/
structure Fld where
  reg : Reg
  lo : Nat
  width : Nat
  deriving DecidableEq, Repr

namespace Fld

/-- GLB_ID.PART -/
def glbIdPart : Fld := ⟨.glbId, 0, 16⟩
/-- GLB_ID.STEP -/
def glbIdStep : Fld := ⟨.glbId, 16, 8⟩
/-- GLB_ID.DEVID -/
def glbIdDevid : Fld := ⟨.glbId, 32, 10⟩
/-- GLB_ID.SYSID -/
def glbIdSysid : Fld := ⟨.glbId, 42, 6⟩
/-- GLB_CLK.SPEED -/
def glbClkSpeed : Fld := ⟨.glbClk, 0, 2⟩
/-- GLB_CLK.LOCK -/
def glbClkLock : Fld := ⟨.glbClk, 2, 1⟩
/-- GLB_SEAM_STATE.PLT -/
def glbSeamStatePlt : Fld := ⟨.glbSeamState, 0, 1⟩
/-- GLB_SEAM_STATE.MAP -/
def glbSeamStateMap : Fld := ⟨.glbSeamState, 1, 1⟩
/-- GLB_SEAM_STATE.BLEND -/
def glbSeamStateBlend : Fld := ⟨.glbSeamState, 2, 1⟩
/-- GLB_SEAM_STATE.RAC -/
def glbSeamStateRac : Fld := ⟨.glbSeamState, 3, 1⟩
/-- GLB_SEAM_STATE.CHANGED -/
def glbSeamStateChanged : Fld := ⟨.glbSeamState, 8, 4⟩
/-- GLB_CYCLE.CYCLE -/
def glbCycleCycle : Fld := ⟨.glbCycle, 0, 64⟩
/-- TWB_CTRL.MODE -/
def twbCtrlMode : Fld := ⟨.twbCtrl, 0, 2⟩
/-- TWB_CTRL.WRAP -/
def twbCtrlWrap : Fld := ⟨.twbCtrl, 2, 1⟩
/-- TWB_CTRL.GO -/
def twbCtrlGo : Fld := ⟨.twbCtrl, 3, 1⟩
/-- TWB_BASE.BASE -/
def twbBaseBase : Fld := ⟨.twbBase, 4, 25⟩
/-- TWB_SIZE.SIZE -/
def twbSizeSize : Fld := ⟨.twbSize, 4, 25⟩
/-- TWB_STATUS.OVERRUN -/
def twbStatusOverrun : Fld := ⟨.twbStatus, 0, 1⟩
/-- TWB_STATUS.WRAPPED -/
def twbStatusWrapped : Fld := ⟨.twbStatus, 1, 1⟩
/-- TWB_STATUS.DONE -/
def twbStatusDone : Fld := ⟨.twbStatus, 2, 1⟩
/-- TWB_STATUS.MASKED -/
def twbStatusMasked : Fld := ⟨.twbStatus, 3, 1⟩
/-- TWB_STATUS.RECORDS -/
def twbStatusRecords : Fld := ⟨.twbStatus, 32, 32⟩
/-- TWB_SRC_MASK.CLASS -/
def twbSrcMaskClass : Fld := ⟨.twbSrcMask, 0, 5⟩
/-- TWB_OUT_HASH.HASH -/
def twbOutHashHash : Fld := ⟨.twbOutHash, 0, 32⟩
/-- POUR_DOM_CTRL.ENABLE -/
def pourDomCtrlEnable : Fld := ⟨.pourDomCtrl, 0, 1⟩
/-- POUR_DOM_CTRL.RESET -/
def pourDomCtrlReset : Fld := ⟨.pourDomCtrl, 1, 1⟩
/-- POUR_DOM_SRC.DEVID -/
def pourDomSrcDevid : Fld := ⟨.pourDomSrc, 0, 10⟩
/-- POUR_DOM_SRC.FUNC -/
def pourDomSrcFunc : Fld := ⟨.pourDomSrc, 10, 8⟩
/-- POUR_DOM_POS.POS -/
def pourDomPosPos : Fld := ⟨.pourDomPos, 0, 48⟩
/-- POUR_DOM_POS.STATE -/
def pourDomPosState : Fld := ⟨.pourDomPos, 48, 2⟩
/-- POUR_DOM_POS.BRIM_HELD -/
def pourDomPosBrimHeld : Fld := ⟨.pourDomPos, 50, 1⟩
/-- POUR_DOM_RATE.RATE -/
def pourDomRateRate : Fld := ⟨.pourDomRate, 0, 32⟩
/-- POUR_DOM_RATE.INC -/
def pourDomRateInc : Fld := ⟨.pourDomRate, 32, 32⟩
/-- POUR_DOM_BRIM.BRIM -/
def pourDomBrimBrim : Fld := ⟨.pourDomBrim, 0, 16⟩
/-- POUR_DOM_BRIM.SEQ -/
def pourDomBrimSeq : Fld := ⟨.pourDomBrim, 16, 16⟩
/-- POUR_DOM_BRIM.RGEN -/
def pourDomBrimRgen : Fld := ⟨.pourDomBrim, 32, 4⟩
/-- POUR_DOM_BRIM.SYNCED -/
def pourDomBrimSynced : Fld := ⟨.pourDomBrim, 36, 1⟩
/-- POUR_DOM_SILENCE.LIMIT -/
def pourDomSilenceLimit : Fld := ⟨.pourDomSilence, 0, 24⟩
/-- POUR_DOM_STAT.REGRESS -/
def pourDomStatRegress : Fld := ⟨.pourDomStat, 0, 16⟩
/-- POUR_DOM_STAT.FOREIGN -/
def pourDomStatForeign : Fld := ⟨.pourDomStat, 16, 16⟩
/-- POUR_DOM_STAT.STALE_ENTRIES -/
def pourDomStatStaleEntries : Fld := ⟨.pourDomStat, 32, 16⟩
/-- POUR_DOM_STAT.AHEAD -/
def pourDomStatAhead : Fld := ⟨.pourDomStat, 48, 16⟩
/-- POUR_TRIG_STAT.FIRED -/
def pourTrigStatFired : Fld := ⟨.pourTrigStat, 0, 16⟩
/-- POUR_TRIG_STAT.EXPIRED -/
def pourTrigStatExpired : Fld := ⟨.pourTrigStat, 16, 16⟩
/-- POUR_TRIG_STAT.SKIPPED -/
def pourTrigStatSkipped : Fld := ⟨.pourTrigStat, 32, 16⟩
/-- POUR_TRIG_STAT.FREE -/
def pourTrigStatFree : Fld := ⟨.pourTrigStat, 48, 11⟩
/-- POUR_TRIG_QUOTA.QUOTA -/
def pourTrigQuotaQuota : Fld := ⟨.pourTrigQuota, 0, 11⟩
/-- POUR_TRIG_ENTRY.ENTRY -/
def pourTrigEntryEntry : Fld := ⟨.pourTrigEntry, 0, 64⟩
/-- CMD_ACQ_BASE.BASE -/
def cmdAcqBaseBase : Fld := ⟨.cmdAcqBase, 12, 52⟩
/-- CMD_ACQ_CFG.SIZE -/
def cmdAcqCfgSize : Fld := ⟨.cmdAcqCfg, 0, 12⟩
/-- CMD_ACQ_CFG.VECTOR -/
def cmdAcqCfgVector : Fld := ⟨.cmdAcqCfg, 12, 6⟩
/-- CMD_ACQ_CFG.NOVEC -/
def cmdAcqCfgNovec : Fld := ⟨.cmdAcqCfg, 18, 1⟩
/-- CMD_ACQ_CFG.ENABLE -/
def cmdAcqCfgEnable : Fld := ⟨.cmdAcqCfg, 31, 1⟩
/-- CMD_FN_STATUS.READY -/
def cmdFnStatusReady : Fld := ⟨.cmdFnStatus, 0, 1⟩
/-- CMD_FN_STATUS.ADMITTED -/
def cmdFnStatusAdmitted : Fld := ⟨.cmdFnStatus, 1, 1⟩
/-- CMD_FN_STATUS.PRIV -/
def cmdFnStatusPriv : Fld := ⟨.cmdFnStatus, 2, 1⟩
/-- CMD_FN_STATUS.ACQ_ERR -/
def cmdFnStatusAcqErr : Fld := ⟨.cmdFnStatus, 3, 1⟩
/-- CMD_SQ_ERR.ERR -/
def cmdSqErrErr : Fld := ⟨.cmdSqErr, 0, 64⟩
/-- CMD_CQ_ERR.ERR -/
def cmdCqErrErr : Fld := ⟨.cmdCqErr, 0, 64⟩
/-- CMD_VEC_COAL.COUNT -/
def cmdVecCoalCount : Fld := ⟨.cmdVecCoal, 0, 8⟩
/-- CMD_VEC_COAL.TIME -/
def cmdVecCoalTime : Fld := ⟨.cmdVecCoal, 8, 10⟩
/-- CMD_SQ_TAIL.TAIL -/
def cmdSqTailTail : Fld := ⟨.cmdSqTail, 0, 6⟩
/-- CMD_CQ_HEAD.HEAD -/
def cmdCqHeadHead : Fld := ⟨.cmdCqHead, 0, 12⟩
/-- MSIX_TABLE.ENTRY -/
def msixTableEntry : Fld := ⟨.msixTable, 0, 64⟩
/-- MSIX_PBA.PENDING -/
def msixPbaPending : Fld := ⟨.msixPba, 0, 64⟩
/-- CMD_FN_QUOTA.SQ -/
def cmdFnQuotaSq : Fld := ⟨.cmdFnQuota, 0, 9⟩
/-- CMD_FN_QUOTA.CQ -/
def cmdFnQuotaCq : Fld := ⟨.cmdFnQuota, 16, 9⟩
/-- CMD_SQ_STATE.OWNER -/
def cmdSqStateOwner : Fld := ⟨.cmdSqState, 0, 8⟩
/-- CMD_SQ_STATE.BARISTA -/
def cmdSqStateBarista : Fld := ⟨.cmdSqState, 8, 4⟩
/-- CMD_SQ_STATE.SIZE -/
def cmdSqStateSize : Fld := ⟨.cmdSqState, 12, 6⟩
/-- CMD_SQ_STATE.STATE -/
def cmdSqStateState : Fld := ⟨.cmdSqState, 18, 2⟩
/-- CMD_SQ_STATE.LOCAL -/
def cmdSqStateLocal : Fld := ⟨.cmdSqState, 20, 8⟩
/-- CMD_STAT.COLLIDE -/
def cmdStatCollide : Fld := ⟨.cmdStat, 0, 16⟩
/-- CMD_STAT.SQ_ERR -/
def cmdStatSqErr : Fld := ⟨.cmdStat, 16, 16⟩
/-- CMD_STAT.CQ_FULL -/
def cmdStatCqFull : Fld := ⟨.cmdStat, 32, 16⟩
/-- CMD_STAT.STRAY -/
def cmdStatStray : Fld := ⟨.cmdStat, 48, 16⟩
/-- CMD_FREE.SQ -/
def cmdFreeSq : Fld := ⟨.cmdFree, 0, 11⟩
/-- CMD_FREE.CQ -/
def cmdFreeCq : Fld := ⟨.cmdFree, 16, 11⟩
/-- POOL_CTRL.RECLAIM_BLEND -/
def poolCtrlReclaimBlend : Fld := ⟨.poolCtrl, 0, 6⟩
/-- POOL_LOGICAL.GIB -/
def poolLogicalGib : Fld := ⟨.poolLogical, 0, 19⟩
/-- POOL_SECTORS_TOTAL.TOTAL -/
def poolSectorsTotalTotal : Fld := ⟨.poolSectorsTotal, 0, 36⟩
/-- POOL_SECTORS_FREE.FREE -/
def poolSectorsFreeFree : Fld := ⟨.poolSectorsFree, 0, 36⟩
/-- POOL_SECTORS_RSV.RSV -/
def poolSectorsRsvRsv : Fld := ⟨.poolSectorsRsv, 0, 36⟩
/-- POOL_WMARK.LOW -/
def poolWmarkLow : Fld := ⟨.poolWmark, 0, 10⟩
/-- POOL_WMARK.CRIT -/
def poolWmarkCrit : Fld := ⟨.poolWmark, 16, 10⟩
/-- POOL_SPACE.LEVEL -/
def poolSpaceLevel : Fld := ⟨.poolSpace, 0, 2⟩
/-- POOL_SPACE.CHANGED -/
def poolSpaceChanged : Fld := ⟨.poolSpace, 2, 1⟩
/-- POOL_TABLES.EXTENT_FREE -/
def poolTablesExtentFree : Fld := ⟨.poolTables, 0, 17⟩
/-- POOL_TABLES.LINDEX_FREE -/
def poolTablesLindexFree : Fld := ⟨.poolTables, 32, 17⟩
/-- POOL_RANGES.FREE -/
def poolRangesFree : Fld := ⟨.poolRanges, 0, 17⟩
/-- POOL_FN_LIMIT.EXTENTS -/
def poolFnLimitExtents : Fld := ⟨.poolFnLimit, 0, 17⟩
/-- POOL_FN_LIMIT.LEASE_MAX -/
def poolFnLimitLeaseMax : Fld := ⟨.poolFnLimit, 32, 12⟩
/-- POOL_FN_USE.LEASES -/
def poolFnUseLeases : Fld := ⟨.poolFnUse, 0, 17⟩
/-- POOL_FN_USE.RANGES -/
def poolFnUseRanges : Fld := ⟨.poolFnUse, 32, 16⟩
/-- POOL_FN_STAT.DOUBLE -/
def poolFnStatDouble : Fld := ⟨.poolFnStat, 0, 16⟩
/-- POOL_FN_STAT.FOREIGN -/
def poolFnStatForeign : Fld := ⟨.poolFnStat, 16, 16⟩
/-- POOL_FN_STAT.EXPIRED -/
def poolFnStatExpired : Fld := ⟨.poolFnStat, 32, 16⟩
/-- POOL_FN_STAT.SEIZED -/
def poolFnStatSeized : Fld := ⟨.poolFnStat, 48, 16⟩
/-- GRD_CTRL.WVERIFY -/
def grdCtrlWverify : Fld := ⟨.grdCtrl, 0, 1⟩
/-- GRD_LANES.LO -/
def grdLanesLo : Fld := ⟨.grdLanes, 0, 64⟩
/-- GRD_LANES_HI.HI -/
def grdLanesHiHi : Fld := ⟨.grdLanesHi, 0, 64⟩
/-- GRD_PAGES.COUNT -/
def grdPagesCount : Fld := ⟨.grdPages, 0, 64⟩
/-- GRD_BYTES_IN.BYTES -/
def grdBytesInBytes : Fld := ⟨.grdBytesIn, 0, 64⟩
/-- GRD_SECTORS_OUT.SECTORS -/
def grdSectorsOutSectors : Fld := ⟨.grdSectorsOut, 0, 64⟩
/-- GRD_ERR.CHECK_FAIL -/
def grdErrCheckFail : Fld := ⟨.grdErr, 0, 16⟩
/-- GRD_ERR.DECODE_ERR -/
def grdErrDecodeErr : Fld := ⟨.grdErr, 16, 16⟩
/-- GRD_ERR.WVERIFY_FAIL -/
def grdErrWverifyFail : Fld := ⟨.grdErr, 32, 16⟩
/-- GRD_ERR.POISONED -/
def grdErrPoisoned : Fld := ⟨.grdErr, 48, 16⟩
/-- GRD_MAPC_HIT.HITS -/
def grdMapcHitHits : Fld := ⟨.grdMapcHit, 0, 64⟩
/-- GRD_MAPC_MISS.MISSES -/
def grdMapcMissMisses : Fld := ⟨.grdMapcMiss, 0, 64⟩
/-- GRD_LOG.FILL -/
def grdLogFill : Fld := ⟨.grdLog, 0, 15⟩
/-- GRD_LOG.STALLS -/
def grdLogStalls : Fld := ⟨.grdLog, 32, 16⟩
/-- GRD_KEYS.LOADED -/
def grdKeysLoaded : Fld := ⟨.grdKeys, 0, 64⟩
/-- GRD_HINT_IN.BYTES -/
def grdHintInBytes : Fld := ⟨.grdHintIn, 0, 64⟩
/-- GRD_HINT_OUT.SECTORS -/
def grdHintOutSectors : Fld := ⟨.grdHintOut, 0, 64⟩
/-- LIB_CTRL.DEG_PLANES -/
def libCtrlDegPlanes : Fld := ⟨.libCtrl, 0, 4⟩
/-- LIB_CTRL.HOUSE_BLEND -/
def libCtrlHouseBlend : Fld := ⟨.libCtrl, 8, 6⟩
/-- LIB_CTRL.REFRESH_BITS -/
def libCtrlRefreshBits : Fld := ⟨.libCtrl, 16, 8⟩
/-- LIB_CTRL.DIE_FAIL_BLOCKS -/
def libCtrlDieFailBlocks : Fld := ⟨.libCtrl, 32, 8⟩
/-- LIB_STAGE_DRAM.GIB -/
def libStageDramGib : Fld := ⟨.libStageDram, 0, 16⟩
/-- LIB_STAGE_URN.MIB -/
def libStageUrnMib : Fld := ⟨.libStageUrn, 0, 9⟩
/-- LIB_STAGE_HOLD.MS -/
def libStageHoldMs : Fld := ⟨.libStageHold, 0, 24⟩
/-- LIB_STAGE_WAIT.US -/
def libStageWaitUs : Fld := ⟨.libStageWait, 0, 24⟩
/-- LIB_STAGE_FILL.DRAM -/
def libStageFillDram : Fld := ⟨.libStageFill, 0, 32⟩
/-- LIB_STAGE_FILL.URN -/
def libStageFillUrn : Fld := ⟨.libStageFill, 32, 32⟩
/-- LIB_STAGE_STAT.HITS -/
def libStageStatHits : Fld := ⟨.libStageStat, 0, 32⟩
/-- LIB_STAGE_STAT.SKIPPED -/
def libStageStatSkipped : Fld := ⟨.libStageStat, 32, 16⟩
/-- LIB_PATROL.DAYS -/
def libPatrolDays : Fld := ⟨.libPatrol, 0, 8⟩
/-- LIB_FLASH.FREE -/
def libFlashFree : Fld := ⟨.libFlash, 0, 32⟩
/-- LIB_FLASH.RESERVE -/
def libFlashReserve : Fld := ⟨.libFlash, 32, 32⟩
/-- LIB_VOLUMES.COUNT -/
def libVolumesCount : Fld := ⟨.libVolumes, 0, 15⟩
/-- LIB_ERR.RETRY -/
def libErrRetry : Fld := ⟨.libErr, 0, 16⟩
/-- LIB_ERR.SOFT -/
def libErrSoft : Fld := ⟨.libErr, 16, 16⟩
/-- LIB_ERR.RECON -/
def libErrRecon : Fld := ⟨.libErr, 32, 16⟩
/-- LIB_ERR.REWRITE -/
def libErrRewrite : Fld := ⟨.libErr, 48, 16⟩
/-- LIB_DEG.SHADOW -/
def libDegShadow : Fld := ⟨.libDeg, 0, 32⟩
/-- LIB_DEG.PLANES -/
def libDegPlanes : Fld := ⟨.libDeg, 32, 32⟩
/-- LIB_CAUSE.COUNT -/
def libCauseCount : Fld := ⟨.libCause, 0, 32⟩
/-- LIB_CAUSE_LATE.LATE_CMDS -/
def libCauseLateLateCmds : Fld := ⟨.libCauseLate, 0, 32⟩
/-- LIB_CH_STATE.PRESENT -/
def libChStatePresent : Fld := ⟨.libChState, 0, 8⟩
/-- LIB_CH_STATE.FAILED -/
def libChStateFailed : Fld := ⟨.libChState, 8, 32⟩
/-- LIB_CH_STATE.ABSENT -/
def libChStateAbsent : Fld := ⟨.libChState, 40, 1⟩
/-- LIB_CH_STATE.SERVICE -/
def libChStateService : Fld := ⟨.libChState, 42, 2⟩
/-- SEQ_CTRL.DEG_PLANES -/
def seqCtrlDegPlanes : Fld := ⟨.seqCtrl, 0, 4⟩
/-- SEQ_STREAMS.OPEN -/
def seqStreamsOpen : Fld := ⟨.seqStreams, 0, 17⟩
/-- SEQ_CHUNKS.FREE -/
def seqChunksFree : Fld := ⟨.seqChunks, 0, 21⟩
/-- SEQ_STAT.LATE -/
def seqStatLate : Fld := ⟨.seqStat, 0, 16⟩
/-- SEQ_STAT.DEGRADED -/
def seqStatDegraded : Fld := ⟨.seqStat, 16, 16⟩
/-- SEQ_STAT.EXACT_FAIL -/
def seqStatExactFail : Fld := ⟨.seqStat, 32, 16⟩
/-- SEQ_STAT.SHORT -/
def seqStatShort : Fld := ⟨.seqStat, 48, 16⟩
/-- SEQ_SEL.INDEX -/
def seqSelIndex : Fld := ⟨.seqSel, 0, 16⟩
/-- SEQ_VIEW0.GEN -/
def seqView0Gen : Fld := ⟨.seqView0, 0, 8⟩
/-- SEQ_VIEW0.STATE -/
def seqView0State : Fld := ⟨.seqView0, 8, 3⟩
/-- SEQ_VIEW0.RSIZE -/
def seqView0Rsize : Fld := ⟨.seqView0, 16, 16⟩
/-- SEQ_VIEW0.WIDTH -/
def seqView0Width : Fld := ⟨.seqView0, 32, 7⟩
/-- SEQ_VIEW0.WAITING -/
def seqView0Waiting : Fld := ⟨.seqView0, 40, 8⟩
/-- SEQ_VIEW1.FIRST -/
def seqView1First : Fld := ⟨.seqView1, 0, 25⟩
/-- SEQ_VIEW1.END -/
def seqView1End : Fld := ⟨.seqView1, 32, 25⟩
/-- SEQ_VIEW2.OPENER_DEV -/
def seqView2OpenerDev : Fld := ⟨.seqView2, 0, 10⟩
/-- SEQ_VIEW2.OPENER_FN -/
def seqView2OpenerFn : Fld := ⟨.seqView2, 10, 8⟩
/-- SEQ_VIEW2.EXPIRY -/
def seqView2Expiry : Fld := ⟨.seqView2, 32, 32⟩
/-- PRS_STATE.SERVICE -/
def prsStateService : Fld := ⟨.prsState, 0, 2⟩
/-- PRS_STATE.BUSY -/
def prsStateBusy : Fld := ⟨.prsState, 2, 1⟩
/-- PRS_DRAM_IN.BYTES -/
def prsDramInBytes : Fld := ⟨.prsDramIn, 0, 64⟩
/-- PRS_LOGICAL_IN.BYTES -/
def prsLogicalInBytes : Fld := ⟨.prsLogicalIn, 0, 64⟩
/-- PRS_ORDERS.COUNT -/
def prsOrdersCount : Fld := ⟨.prsOrders, 0, 64⟩
/-- PRS_SCRATCH.MIB -/
def prsScratchMib : Fld := ⟨.prsScratch, 0, 9⟩
/-- PRS_SCRATCH.SLICE -/
def prsScratchSlice : Fld := ⟨.prsScratch, 16, 7⟩
/-- PRS_STAT.EARLY_STOP -/
def prsStatEarlyStop : Fld := ⟨.prsStat, 0, 16⟩
/-- PRS_STAT.NAN -/
def prsStatNan : Fld := ⟨.prsStat, 16, 16⟩
/-- PRS_STAT.SCRATCH_WAIT -/
def prsStatScratchWait : Fld := ⟨.prsStat, 32, 16⟩
/-- PRS_STAT.SATURATED -/
def prsStatSaturated : Fld := ⟨.prsStat, 48, 16⟩
/-- PRS_SCAN_BYTES.BYTES -/
def prsScanBytesBytes : Fld := ⟨.prsScanBytes, 0, 64⟩
/-- PRS_SCAN_DRAM.BYTES -/
def prsScanDramBytes : Fld := ⟨.prsScanDram, 0, 64⟩
/-- PRS_PASS_PAGES.PAGES -/
def prsPassPagesPages : Fld := ⟨.prsPassPages, 0, 64⟩
/-- URN_STATUS.CLEARED -/
def urnStatusCleared : Fld := ⟨.urnStatus, 0, 1⟩
/-- URN_STATUS.BANK_FAIL -/
def urnStatusBankFail : Fld := ⟨.urnStatus, 1, 1⟩
/-- URN_STATUS.FAILED_BANK -/
def urnStatusFailedBank : Fld := ⟨.urnStatus, 2, 11⟩
/-- URN_LAYOUT.BUF_BASE -/
def urnLayoutBufBase : Fld := ⟨.urnLayout, 0, 10⟩
/-- URN_LAYOUT.SCRATCH_BASE -/
def urnLayoutScratchBase : Fld := ⟨.urnLayout, 16, 10⟩
/-- URN_LAYOUT.STAGE_BASE -/
def urnLayoutStageBase : Fld := ⟨.urnLayout, 32, 10⟩
/-- URN_FREE.PAGES -/
def urnFreePages : Fld := ⟨.urnFree, 0, 17⟩
/-- URN_FREE.RUN -/
def urnFreeRun : Fld := ⟨.urnFree, 32, 17⟩
/-- URN_FREE.reserved -/
def urnFreeReserved : Fld := ⟨.urnFree, 49, 15⟩
/-- URN_BUFFERS.LIVE -/
def urnBuffersLive : Fld := ⟨.urnBuffers, 0, 17⟩
/-- URN_SCRUB.MS -/
def urnScrubMs : Fld := ⟨.urnScrub, 0, 24⟩
/-- URN_SCRUB.BLEND -/
def urnScrubBlend : Fld := ⟨.urnScrub, 24, 6⟩
/-- URN_ECC.CORRECTED -/
def urnEccCorrected : Fld := ⟨.urnEcc, 0, 32⟩
/-- URN_ECC.UNCORR -/
def urnEccUncorr : Fld := ⟨.urnEcc, 32, 16⟩
/-- URN_FAULT.OFFSET -/
def urnFaultOffset : Fld := ⟨.urnFault, 0, 29⟩
/-- URN_FAULT.MASTER -/
def urnFaultMaster : Fld := ⟨.urnFault, 29, 8⟩
/-- URN_FAULT.WRITE -/
def urnFaultWrite : Fld := ⟨.urnFault, 37, 1⟩
/-- URN_FAULT.ALIAS -/
def urnFaultAlias : Fld := ⟨.urnFault, 38, 1⟩
/-- URN_FAULT.VALID -/
def urnFaultValid : Fld := ⟨.urnFault, 63, 1⟩
/-- URN_FAULT_STAT.COUNT -/
def urnFaultStatCount : Fld := ⟨.urnFaultStat, 0, 32⟩
/-- URN_FN_QUOTA.MIB -/
def urnFnQuotaMib : Fld := ⟨.urnFnQuota, 0, 10⟩
/-- URN_FN_USE.PAGES -/
def urnFnUsePages : Fld := ⟨.urnFnUse, 0, 17⟩
/-- URN_FN_USE.POISONED -/
def urnFnUsePoisoned : Fld := ⟨.urnFnUse, 32, 1⟩
/-- URN_CONFLICT.COUNT -/
def urnConflictCount : Fld := ⟨.urnConflict, 0, 32⟩
/-- URN_FN_STAT.DOUBLE -/
def urnFnStatDouble : Fld := ⟨.urnFnStat, 0, 16⟩
/-- URN_FN_STAT.FOREIGN -/
def urnFnStatForeign : Fld := ⟨.urnFnStat, 16, 16⟩
/-- URN_FN_STAT.STALE -/
def urnFnStatStale : Fld := ⟨.urnFnStat, 32, 16⟩
/-- URN_REGION.BASE -/
def urnRegionBase : Fld := ⟨.urnRegion, 0, 17⟩
/-- URN_REGION.LIMIT -/
def urnRegionLimit : Fld := ⟨.urnRegion, 32, 17⟩
/-- URN_REGION.RD -/
def urnRegionRd : Fld := ⟨.urnRegion, 60, 1⟩
/-- URN_REGION.WR -/
def urnRegionWr : Fld := ⟨.urnRegion, 61, 1⟩
/-- URN_REGION.VALID -/
def urnRegionValid : Fld := ⟨.urnRegion, 63, 1⟩
/-- URN_WIN_BASE.BASE -/
def urnWinBaseBase : Fld := ⟨.urnWinBase, 6, 23⟩
/-- URN_WIN_SIZE.SIZE -/
def urnWinSizeSize : Fld := ⟨.urnWinSize, 6, 18⟩
/-- URN_WIN_CTRL.ENABLE -/
def urnWinCtrlEnable : Fld := ⟨.urnWinCtrl, 0, 1⟩
/-- URN_WIN_CTRL.OWNER -/
def urnWinCtrlOwner : Fld := ⟨.urnWinCtrl, 8, 8⟩
/-- URN_WIN_CTRL.FM -/
def urnWinCtrlFm : Fld := ⟨.urnWinCtrl, 16, 1⟩
/-- URN_WIN_STAT.WRAPS -/
def urnWinStatWraps : Fld := ⟨.urnWinStat, 0, 32⟩
/-- DMA_ENG_STATE.SERVICE -/
def dmaEngStateService : Fld := ⟨.dmaEngState, 0, 2⟩
/-- DMA_ENG_STATE.BUSY -/
def dmaEngStateBusy : Fld := ⟨.dmaEngState, 2, 1⟩
/-- DMA_ENG_STATE.CHANNEL -/
def dmaEngStateChannel : Fld := ⟨.dmaEngState, 3, 3⟩
/-- DMA_ENG_BYTES.BYTES -/
def dmaEngBytesBytes : Fld := ⟨.dmaEngBytes, 0, 64⟩
/-- DMA_ENG_STAT.BUS_ERR -/
def dmaEngStatBusErr : Fld := ⟨.dmaEngStat, 0, 16⟩
/-- DMA_ENG_STAT.REGION -/
def dmaEngStatRegion : Fld := ⟨.dmaEngStat, 16, 16⟩
/-- DMA_ENG_STAT.WAIT_CYCLE -/
def dmaEngStatWaitCycle : Fld := ⟨.dmaEngStat, 32, 16⟩
/-- DMA_ENG_STAT.WAIT_LIMIT -/
def dmaEngStatWaitLimit : Fld := ⟨.dmaEngStat, 48, 16⟩
/-- DMA_CH_STATE.STATE -/
def dmaChStateState : Fld := ⟨.dmaChState, 0, 3⟩
/-- DMA_CH_STATE.OWNER -/
def dmaChStateOwner : Fld := ⟨.dmaChState, 8, 8⟩
/-- DMA_CH_STATE.FM -/
def dmaChStateFm : Fld := ⟨.dmaChState, 16, 1⟩
/-- DMA_CH_STATE.MODE -/
def dmaChStateMode : Fld := ⟨.dmaChState, 17, 1⟩
/-- DMA_CH_STATE.LOC -/
def dmaChStateLoc : Fld := ⟨.dmaChState, 18, 1⟩
/-- DMA_CH_STATE.BLEND -/
def dmaChStateBlend : Fld := ⟨.dmaChState, 24, 6⟩
/-- DMA_CH_STATE.GEN -/
def dmaChStateGen : Fld := ⟨.dmaChState, 32, 8⟩
/-- DMA_CH_PC.PC -/
def dmaChPcPc : Fld := ⟨.dmaChPc, 0, 64⟩
/-- DMA_CH_LOOP.I0 -/
def dmaChLoopI0 : Fld := ⟨.dmaChLoop, 0, 17⟩
/-- DMA_CH_LOOP.I1 -/
def dmaChLoopI1 : Fld := ⟨.dmaChLoop, 17, 17⟩
/-- DMA_CH_LOOP.I2 -/
def dmaChLoopI2 : Fld := ⟨.dmaChLoop, 34, 17⟩
/-- DMA_CH_ERR.FAULT -/
def dmaChErrFault : Fld := ⟨.dmaChErr, 0, 3⟩
/-- DMA_CH_ERR.CAUSE -/
def dmaChErrCause : Fld := ⟨.dmaChErr, 4, 4⟩
/-- DMA_CH_ERR.WRITE -/
def dmaChErrWrite : Fld := ⟨.dmaChErr, 8, 1⟩
/-- DMA_CH_ERR.SPACE -/
def dmaChErrSpace : Fld := ⟨.dmaChErr, 9, 2⟩
/-- DMA_CH_ERR.RETRIES -/
def dmaChErrRetries : Fld := ⟨.dmaChErr, 12, 4⟩
/-- DMA_CH_ERR_ADDR.ADDR -/
def dmaChErrAddrAddr : Fld := ⟨.dmaChErrAddr, 0, 64⟩
/-- DMA_CH_SIG.COUNT -/
def dmaChSigCount : Fld := ⟨.dmaChSig, 0, 64⟩
/-- DMA_CH_MOVED.MOVED -/
def dmaChMovedMoved : Fld := ⟨.dmaChMoved, 0, 64⟩
/-- DMA_CTRL.WAIT_US -/
def dmaCtrlWaitUs : Fld := ⟨.dmaCtrl, 0, 20⟩
/-- DMA_CTRL.WAIT_CAP_MS -/
def dmaCtrlWaitCapMs : Fld := ⟨.dmaCtrl, 20, 16⟩
/-- DMA_CTRL.RETRY_US -/
def dmaCtrlRetryUs : Fld := ⟨.dmaCtrl, 40, 8⟩
/-- DMA_FN_QUOTA.QUOTA -/
def dmaFnQuotaQuota : Fld := ⟨.dmaFnQuota, 0, 64⟩
/-- DMA_TEN_CH.STATE -/
def dmaTenChState : Fld := ⟨.dmaTenCh, 0, 3⟩
/-- DMA_TEN_CH.FAULT -/
def dmaTenChFault : Fld := ⟨.dmaTenCh, 4, 3⟩
/-- DMA_TEN_CH.CAUSE -/
def dmaTenChCause : Fld := ⟨.dmaTenCh, 8, 4⟩
/-- DMA_TEN_CH.HALF -/
def dmaTenChHalf : Fld := ⟨.dmaTenCh, 16, 8⟩
/-- DMA_TEN_CH.FULL -/
def dmaTenChFull : Fld := ⟨.dmaTenCh, 24, 8⟩
/-- DMA_TEN_CH.GEN -/
def dmaTenChGen : Fld := ⟨.dmaTenCh, 32, 8⟩
/-- DMA_TEN_ERR.ADDR -/
def dmaTenErrAddr : Fld := ⟨.dmaTenErr, 0, 64⟩
/-- DRC_STATE.SERVICE -/
def drcStateService : Fld := ⟨.drcState, 0, 2⟩
/-- DRC_STATE.TRAINED -/
def drcStateTrained : Fld := ⟨.drcState, 2, 1⟩
/-- DRC_STATE.DIMMS -/
def drcStateDimms : Fld := ⟨.drcState, 3, 2⟩
/-- DRC_STATE.RANKS -/
def drcStateRanks : Fld := ⟨.drcState, 5, 2⟩
/-- DRC_STATE.DENSITY -/
def drcStateDensity : Fld := ⟨.drcState, 7, 1⟩
/-- DRC_REF.MODE -/
def drcRefMode : Fld := ⟨.drcRef, 0, 1⟩
/-- DRC_REF.SAME_BANK -/
def drcRefSameBank : Fld := ⟨.drcRef, 1, 1⟩
/-- DRC_REF.SOFT -/
def drcRefSoft : Fld := ⟨.drcRef, 4, 4⟩
/-- DRC_REF.HOT -/
def drcRefHot : Fld := ⟨.drcRef, 8, 1⟩
/-- DRC_REF.WINDOW -/
def drcRefWindow : Fld := ⟨.drcRef, 9, 1⟩
/-- DRC_REF_POSTPONE.LIMIT -/
def drcRefPostponeLimit : Fld := ⟨.drcRefPostpone, 0, 4⟩
/-- DRC_REF_POSTPONE.FORCED -/
def drcRefPostponeForced : Fld := ⟨.drcRefPostpone, 16, 16⟩
/-- DRC_REF_POSTPONE.PANIC_SPENT -/
def drcRefPostponePanicSpent : Fld := ⟨.drcRefPostpone, 32, 16⟩
/-- DRC_REF_DEBT.D0 to D7 -/
def drcRefDebtD0D7 : Fld := ⟨.drcRefDebt, 0, 64⟩
/-- DRC_REF_DEBT_HI.D8 to D15 -/
def drcRefDebtHiD8D15 : Fld := ⟨.drcRefDebtHi, 0, 64⟩
/-- DRC_REF_STAT.REFAB -/
def drcRefStatRefab : Fld := ⟨.drcRefStat, 0, 32⟩
/-- DRC_REF_STAT.REFSB -/
def drcRefStatRefsb : Fld := ⟨.drcRefStat, 32, 32⟩
/-- DRC_PAGE.KEEP_MIN -/
def drcPageKeepMin : Fld := ⟨.drcPage, 0, 3⟩
/-- DRC_PAGE.IDLE -/
def drcPageIdle : Fld := ⟨.drcPage, 8, 10⟩
/-- DRC_SCHED.AGE_MAX -/
def drcSchedAgeMax : Fld := ⟨.drcSched, 0, 12⟩
/-- DRC_RT.PANIC_ON -/
def drcRtPanicOn : Fld := ⟨.drcRt, 0, 11⟩
/-- DRC_RT.PANIC_OFF -/
def drcRtPanicOff : Fld := ⟨.drcRt, 16, 11⟩
/-- DRC_RT.SPEND -/
def drcRtSpend : Fld := ⟨.drcRt, 31, 1⟩
/-- DRC_RT_STAT.FILL -/
def drcRtStatFill : Fld := ⟨.drcRtStat, 0, 11⟩
/-- DRC_RT_STAT.PANIC -/
def drcRtStatPanic : Fld := ⟨.drcRtStat, 12, 1⟩
/-- DRC_RT_STAT.XFERS -/
def drcRtStatXfers : Fld := ⟨.drcRtStat, 16, 4⟩
/-- DRC_RT_STAT.ENTRIES -/
def drcRtStatEntries : Fld := ⟨.drcRtStat, 32, 16⟩
/-- DRC_RT_PANIC_CYC.CYCLES -/
def drcRtPanicCycCycles : Fld := ⟨.drcRtPanicCyc, 0, 64⟩
/-- DRC_ECC.CORRECTED -/
def drcEccCorrected : Fld := ⟨.drcEcc, 0, 32⟩
/-- DRC_ECC.UNCORR -/
def drcEccUncorr : Fld := ⟨.drcEcc, 32, 16⟩
/-- DRC_ECC_DEV.DEV -/
def drcEccDevDev : Fld := ⟨.drcEccDev, 0, 64⟩
/-- DRC_ECC_ADDR.ADDR -/
def drcEccAddrAddr : Fld := ⟨.drcEccAddr, 6, 37⟩
/-- DRC_ECC_ADDR.VALID -/
def drcEccAddrValid : Fld := ⟨.drcEccAddr, 63, 1⟩
/-- DRC_ECC_CTRL.DEV_LIMIT -/
def drcEccCtrlDevLimit : Fld := ⟨.drcEccCtrl, 0, 16⟩
/-- DRC_ROWS.HITS -/
def drcRowsHits : Fld := ⟨.drcRows, 0, 32⟩
/-- DRC_ROWS.MISSES -/
def drcRowsMisses : Fld := ⟨.drcRows, 32, 32⟩
/-- DRC_TRAIN.STEP -/
def drcTrainStep : Fld := ⟨.drcTrain, 0, 4⟩
/-- DRC_TRAIN.FAIL -/
def drcTrainFail : Fld := ⟨.drcTrain, 4, 1⟩
/-- DRC_TRAIN.INDEX -/
def drcTrainIndex : Fld := ⟨.drcTrain, 5, 4⟩
/-- DRC_TRAIN.LANE -/
def drcTrainLane : Fld := ⟨.drcTrain, 9, 6⟩
/-- DRC_TRAIN.MARGIN -/
def drcTrainMargin : Fld := ⟨.drcTrain, 16, 8⟩
/-- DRC_MAP.ORDER -/
def drcMapOrder : Fld := ⟨.drcMap, 0, 2⟩
/-- DRC_MAP.NEXT_ORDER -/
def drcMapNextOrder : Fld := ⟨.drcMap, 8, 2⟩
/-- DRC_HASH.SEL0 to SEL7 -/
def drcHashSel0Sel7 : Fld := ⟨.drcHash, 0, 48⟩
/-- DRC_HASH_NEXT.SEL0 to SEL7 -/
def drcHashNextSel0Sel7 : Fld := ⟨.drcHashNext, 0, 48⟩
/-- DRC_SCRUB.HOURS -/
def drcScrubHours : Fld := ⟨.drcScrub, 0, 8⟩
/-- DRC_SCRUB.BLEND -/
def drcScrubBlend : Fld := ⟨.drcScrub, 8, 6⟩
/-- DRC_INIT.DONE_GIB -/
def drcInitDoneGib : Fld := ⟨.drcInit, 0, 14⟩
/-- DRC_INIT.DONE -/
def drcInitDone : Fld := ⟨.drcInit, 16, 1⟩
/-- DRC_FASTBOOT.ENABLE -/
def drcFastbootEnable : Fld := ⟨.drcFastboot, 0, 1⟩
/-- DRC_FASTBOOT.SAVED -/
def drcFastbootSaved : Fld := ⟨.drcFastboot, 1, 1⟩
/-- DRC_FASTBOOT.USED -/
def drcFastbootUsed : Fld := ⟨.drcFastboot, 2, 1⟩
/-- BLD_GUAR0.MBPS -/
def bldGuar0Mbps : Fld := ⟨.bldGuar0, 0, 32⟩
/-- BLD_LIMIT0.MBPS -/
def bldLimit0Mbps : Fld := ⟨.bldLimit0, 0, 32⟩
/-- BLD_GUAR1.MBPS -/
def bldGuar1Mbps : Fld := ⟨.bldGuar1, 0, 32⟩
/-- BLD_LIMIT1.MBPS -/
def bldLimit1Mbps : Fld := ⟨.bldLimit1, 0, 32⟩
/-- BLD_CFG.LAT_NS -/
def bldCfgLatNs : Fld := ⟨.bldCfg, 0, 32⟩
/-- BLD_CFG.POLICY -/
def bldCfgPolicy : Fld := ⟨.bldCfg, 32, 1⟩
/-- BLD_WIN_BYTES.BYTES -/
def bldWinBytesBytes : Fld := ⟨.bldWinBytes, 0, 48⟩
/-- BLD_WIN_REQS.CHARGES -/
def bldWinReqsCharges : Fld := ⟨.bldWinReqs, 0, 32⟩
/-- BLD_WIN_REQS.REPLIES -/
def bldWinReqsReplies : Fld := ⟨.bldWinReqs, 32, 32⟩
/-- BLD_WIN_DONE.BYTES -/
def bldWinDoneBytes : Fld := ⟨.bldWinDone, 0, 48⟩
/-- BLD_WIN_STATE.BACKLOG_PM -/
def bldWinStateBacklogPm : Fld := ⟨.bldWinState, 0, 10⟩
/-- BLD_WIN_STATE.ACTIVE -/
def bldWinStateActive : Fld := ⟨.bldWinState, 16, 9⟩
/-- BLD_WIN_STATE.LAT_OVER -/
def bldWinStateLatOver : Fld := ⟨.bldWinState, 32, 32⟩
/-- BLD_TOTAL_BYTES.BYTES -/
def bldTotalBytesBytes : Fld := ⟨.bldTotalBytes, 0, 64⟩
/-- BLD_TOTAL_REQS.CHARGES -/
def bldTotalReqsCharges : Fld := ⟨.bldTotalReqs, 0, 64⟩
/-- BLD_MISS.RATE -/
def bldMissRate : Fld := ⟨.bldMiss, 0, 16⟩
/-- BLD_MISS.LAT -/
def bldMissLat : Fld := ⟨.bldMiss, 16, 16⟩
/-- BLD_MISS.TOTAL -/
def bldMissTotal : Fld := ⟨.bldMiss, 32, 32⟩
/-- BLD_DEMOTED.COUNT -/
def bldDemotedCount : Fld := ⟨.bldDemoted, 0, 32⟩
/-- BLD_STAGE_GUAR0.MBPS -/
def bldStageGuar0Mbps : Fld := ⟨.bldStageGuar0, 0, 32⟩
/-- BLD_STAGE_LIMIT0.MBPS -/
def bldStageLimit0Mbps : Fld := ⟨.bldStageLimit0, 0, 32⟩
/-- BLD_STAGE_GUAR1.MBPS -/
def bldStageGuar1Mbps : Fld := ⟨.bldStageGuar1, 0, 32⟩
/-- BLD_STAGE_LIMIT1.MBPS -/
def bldStageLimit1Mbps : Fld := ⟨.bldStageLimit1, 0, 32⟩
/-- BLD_STAGE_CFG.LAT_NS -/
def bldStageCfgLatNs : Fld := ⟨.bldStageCfg, 0, 32⟩
/-- BLD_STAGE_CFG.POLICY -/
def bldStageCfgPolicy : Fld := ⟨.bldStageCfg, 32, 2⟩
/-- BLD_COMMIT.BLEND -/
def bldCommitBlend : Fld := ⟨.bldCommit, 0, 6⟩
/-- BLD_ACTIVE.SET -/
def bldActiveSet : Fld := ⟨.bldActive, 0, 64⟩
/-- BLD_CTRL.WINDOW_US -/
def bldCtrlWindowUs : Fld := ⟨.bldCtrl, 0, 17⟩
/-- BLD_CTRL.BURST_US -/
def bldCtrlBurstUs : Fld := ⟨.bldCtrl, 32, 10⟩
/-- BLD_DECAF.RESTORE_PM -/
def bldDecafRestorePm : Fld := ⟨.bldDecaf, 0, 10⟩
/-- BLD_DECAF.AGE -/
def bldDecafAge : Fld := ⟨.bldDecaf, 16, 16⟩
/-- BLD_MISS_CTRL.BACKLOG_PM -/
def bldMissCtrlBacklogPm : Fld := ⟨.bldMissCtrl, 0, 10⟩
/-- BLD_MISS_CTRL.LAT_PM -/
def bldMissCtrlLatPm : Fld := ⟨.bldMissCtrl, 16, 10⟩
/-- BLD_MISS_CTRL.VECTOR -/
def bldMissCtrlVector : Fld := ⟨.bldMissCtrl, 32, 6⟩
/-- BLD_MISS_CTRL.NOVEC -/
def bldMissCtrlNovec : Fld := ⟨.bldMissCtrl, 39, 1⟩
/-- BLD_BOOST.PT -/
def bldBoostPt : Fld := ⟨.bldBoost, 0, 16⟩
/-- BLD_STATUS.FLAT -/
def bldStatusFlat : Fld := ⟨.bldStatus, 0, 1⟩
/-- BLD_MISS_PEND.PEND -/
def bldMissPendPend : Fld := ⟨.bldMissPend, 0, 64⟩
/-- BLD_CHECK_FAIL.FAIL -/
def bldCheckFailFail : Fld := ⟨.bldCheckFail, 0, 64⟩
/-- BLD_ATT_LIMIT.MBPS -/
def bldAttLimitMbps : Fld := ⟨.bldAttLimit, 0, 32⟩
/-- BLD_FN_SEL.ACCOUNT -/
def bldFnSelAccount : Fld := ⟨.bldFnSel, 0, 9⟩
/-- BLD_FN_SEL.BLEND -/
def bldFnSelBlend : Fld := ⟨.bldFnSel, 16, 6⟩
/-- BLD_FN_VIEW0.CL -/
def bldFnView0Cl : Fld := ⟨.bldFnView0, 0, 48⟩
/-- BLD_FN_VIEW0.DEC -/
def bldFnView0Dec : Fld := ⟨.bldFnView0, 48, 1⟩
/-- BLD_FN_VIEW0.UNLIMITED -/
def bldFnView0Unlimited : Fld := ⟨.bldFnView0, 49, 1⟩
/-- BLD_FN_VIEW1.CG -/
def bldFnView1Cg : Fld := ⟨.bldFnView1, 0, 48⟩
/-- BLD_FN_VIEW2.SHARE_L -/
def bldFnView2ShareL : Fld := ⟨.bldFnView2, 0, 32⟩
/-- BLD_FN_VIEW2.SHARE_G -/
def bldFnView2ShareG : Fld := ⟨.bldFnView2, 32, 32⟩
/-- BLD_FN_VIEW3.DEMOTIONS -/
def bldFnView3Demotions : Fld := ⟨.bldFnView3, 0, 16⟩
/-- BLD_FN_VIEW3.WIN_BYTES -/
def bldFnView3WinBytes : Fld := ⟨.bldFnView3, 16, 48⟩
/-- TEN_FM.DEVID -/
def tenFmDevid : Fld := ⟨.tenFm, 0, 10⟩
/-- TEN_FM.FUNC -/
def tenFmFunc : Fld := ⟨.tenFm, 10, 8⟩
/-- TEN_FM.LOCAL -/
def tenFmLocal : Fld := ⟨.tenFm, 18, 1⟩
/-- TEN_FM.VALID -/
def tenFmValid : Fld := ⟨.tenFm, 19, 1⟩
/-- TEN_PORT.SPLIT -/
def tenPortSplit : Fld := ⟨.tenPort, 0, 2⟩
/-- TEN_PORT.LINK_UP -/
def tenPortLinkUp : Fld := ⟨.tenPort, 4, 4⟩
/-- TEN_PORT.PERST -/
def tenPortPerst : Fld := ⟨.tenPort, 8, 4⟩
/-- TEN_FLR_TIME.LAST_US -/
def tenFlrTimeLastUs : Fld := ⟨.tenFlrTime, 0, 20⟩
/-- TEN_FLR_TIME.MAX_US -/
def tenFlrTimeMaxUs : Fld := ⟨.tenFlrTime, 32, 20⟩
/-- TEN_STAT.DENIED -/
def tenStatDenied : Fld := ⟨.tenStat, 0, 16⟩
/-- TEN_FN_STATE.EXISTS -/
def tenFnStateExists : Fld := ⟨.tenFnState, 0, 1⟩
/-- TEN_FN_STATE.ADMITTED -/
def tenFnStateAdmitted : Fld := ⟨.tenFnState, 1, 1⟩
/-- TEN_FN_STATE.PRIV -/
def tenFnStatePriv : Fld := ⟨.tenFnState, 2, 1⟩
/-- TEN_FN_STATE.RESET -/
def tenFnStateReset : Fld := ⟨.tenFnState, 3, 2⟩
/-- TEN_FN_STATE.DOMAIN -/
def tenFnStateDomain : Fld := ⟨.tenFnState, 8, 6⟩
/-- TEN_FN_STATE.NODOM -/
def tenFnStateNodom : Fld := ⟨.tenFnState, 14, 1⟩
/-- TEN_FN_STATE.EPOCH -/
def tenFnStateEpoch : Fld := ⟨.tenFnState, 16, 8⟩
/-- TEN_FN_STATE.ATTACH -/
def tenFnStateAttach : Fld := ⟨.tenFnState, 24, 4⟩
/-- TEN_FN_BLENDS.SET -/
def tenFnBlendsSet : Fld := ⟨.tenFnBlends, 0, 64⟩
/-- TEN_FN_STAT.FLR -/
def tenFnStatFlr : Fld := ⟨.tenFnStat, 0, 16⟩
/-- TEN_FN_STAT.PERST -/
def tenFnStatPerst : Fld := ⟨.tenFnStat, 16, 16⟩
/-- TEN_FN_STAT.REFUSED -/
def tenFnStatRefused : Fld := ⟨.tenFnStat, 32, 16⟩
/-- TEN_SELF.FUNC -/
def tenSelfFunc : Fld := ⟨.tenSelf, 0, 8⟩
/-- TEN_SELF.ATTACH -/
def tenSelfAttach : Fld := ⟨.tenSelf, 8, 4⟩
/-- TEN_SELF.ADMITTED -/
def tenSelfAdmitted : Fld := ⟨.tenSelf, 16, 1⟩
/-- TEN_SELF.DOMAIN -/
def tenSelfDomain : Fld := ⟨.tenSelf, 24, 6⟩
/-- TEN_SELF.NODOM -/
def tenSelfNodom : Fld := ⟨.tenSelf, 30, 1⟩
/-- TEN_SELF.EPOCH -/
def tenSelfEpoch : Fld := ⟨.tenSelf, 40, 8⟩
/-- WLK_STATE.SERVICE -/
def wlkStateService : Fld := ⟨.wlkState, 0, 2⟩
/-- WLK_STATE.TSTATE -/
def wlkStateTstate : Fld := ⟨.wlkState, 2, 4⟩
/-- WLK_STATE.LANES -/
def wlkStateLanes : Fld := ⟨.wlkState, 6, 2⟩
/-- WLK_STATE.PARTNER_DEV -/
def wlkStatePartnerDev : Fld := ⟨.wlkState, 8, 10⟩
/-- WLK_STATE.PARTNER_SYS -/
def wlkStatePartnerSys : Fld := ⟨.wlkState, 18, 6⟩
/-- WLK_STATE.PARTNER_LINK -/
def wlkStatePartnerLink : Fld := ⟨.wlkState, 24, 6⟩
/-- WLK_STATE.MISWIRE -/
def wlkStateMiswire : Fld := ⟨.wlkState, 30, 1⟩
/-- WLK_CTRL.RETRY_LIMIT -/
def wlkCtrlRetryLimit : Fld := ⟨.wlkCtrl, 0, 4⟩
/-- WLK_CTRL.REPLAY_100NS -/
def wlkCtrlReplay100ns : Fld := ⟨.wlkCtrl, 4, 10⟩
/-- WLK_CTRL.FAST -/
def wlkCtrlFast : Fld := ⟨.wlkCtrl, 16, 1⟩
/-- WLK_CTRL.COLD -/
def wlkCtrlCold : Fld := ⟨.wlkCtrl, 17, 1⟩
/-- WLK_CTRL.REUP_S -/
def wlkCtrlReupS : Fld := ⟨.wlkCtrl, 24, 8⟩
/-- WLK_CTRL.DEGRADE_PM -/
def wlkCtrlDegradePm : Fld := ⟨.wlkCtrl, 32, 10⟩
/-- WLK_CREDIT.VC0 -/
def wlkCreditVc0 : Fld := ⟨.wlkCredit, 0, 10⟩
/-- WLK_CREDIT.VC1 -/
def wlkCreditVc1 : Fld := ⟨.wlkCredit, 16, 10⟩
/-- WLK_CREDIT.VC2 -/
def wlkCreditVc2 : Fld := ⟨.wlkCredit, 32, 10⟩
/-- WLK_CREDIT.VC3 -/
def wlkCreditVc3 : Fld := ⟨.wlkCredit, 48, 10⟩
/-- WLK_TXCRED.C0 to C3 -/
def wlkTxcredC0C3 : Fld := ⟨.wlkTxcred, 0, 64⟩
/-- WLK_SEQ.NEXT -/
def wlkSeqNext : Fld := ⟨.wlkSeq, 0, 12⟩
/-- WLK_SEQ.BASE -/
def wlkSeqBase : Fld := ⟨.wlkSeq, 16, 12⟩
/-- WLK_SEQ.EXPECTED -/
def wlkSeqExpected : Fld := ⟨.wlkSeq, 32, 12⟩
/-- WLK_FEC.CORR -/
def wlkFecCorr : Fld := ⟨.wlkFec, 0, 32⟩
/-- WLK_FEC.UNCORR -/
def wlkFecUncorr : Fld := ⟨.wlkFec, 32, 16⟩
/-- WLK_ERR.CRC -/
def wlkErrCrc : Fld := ⟨.wlkErr, 0, 16⟩
/-- WLK_ERR.REPLAY -/
def wlkErrReplay : Fld := ⟨.wlkErr, 16, 16⟩
/-- WLK_ERR.FASTRT -/
def wlkErrFastrt : Fld := ⟨.wlkErr, 32, 16⟩
/-- WLK_ERR.COLDRT -/
def wlkErrColdrt : Fld := ⟨.wlkErr, 48, 16⟩
/-- WLK_ERR2.DEGRADE -/
def wlkErr2Degrade : Fld := ⟨.wlkErr2, 0, 8⟩
/-- WLK_ERR2.PROTOCOL -/
def wlkErr2Protocol : Fld := ⟨.wlkErr2, 8, 16⟩
/-- WLK_ERR2.LOST -/
def wlkErr2Lost : Fld := ⟨.wlkErr2, 24, 8⟩
/-- WLK_BYTES_TX.BYTES -/
def wlkBytesTxBytes : Fld := ⟨.wlkBytesTx, 0, 64⟩
/-- WLK_BYTES_RX.BYTES -/
def wlkBytesRxBytes : Fld := ⟨.wlkBytesRx, 0, 64⟩
/-- WLK_NAP_CTRL.ENABLE -/
def wlkNapCtrlEnable : Fld := ⟨.wlkNapCtrl, 0, 1⟩
/-- WLK_NAP_CTRL.IDLE_US -/
def wlkNapCtrlIdleUs : Fld := ⟨.wlkNapCtrl, 8, 16⟩
/-- WLK_NAP_CTRL.MAX_US -/
def wlkNapCtrlMaxUs : Fld := ⟨.wlkNapCtrl, 32, 14⟩
/-- WLK_NAP_STATE.CAP_US -/
def wlkNapStateCapUs : Fld := ⟨.wlkNapState, 0, 14⟩
/-- WLK_NAP_STATE.CLEAN -/
def wlkNapStateClean : Fld := ⟨.wlkNapState, 16, 4⟩
/-- WLK_NAP_STATE.LAST_US -/
def wlkNapStateLastUs : Fld := ⟨.wlkNapState, 32, 14⟩
/-- WLK_NAP_STAT.NAPS -/
def wlkNapStatNaps : Fld := ⟨.wlkNapStat, 0, 32⟩
/-- WLK_NAP_STAT.MISSED -/
def wlkNapStatMissed : Fld := ⟨.wlkNapStat, 32, 16⟩
/-- WLK_NAP_STAT.REFUSED -/
def wlkNapStatRefused : Fld := ⟨.wlkNapStat, 48, 16⟩
/-- WLK_MODE.MODE -/
def wlkModeMode : Fld := ⟨.wlkMode, 0, 2⟩
/-- WLK_RT_CTRL.ORDER -/
def wlkRtCtrlOrder : Fld := ⟨.wlkRtCtrl, 0, 1⟩
/-- WLK_RT_CTRL.ESCAPE -/
def wlkRtCtrlEscape : Fld := ⟨.wlkRtCtrl, 8, 4⟩
/-- WLK_RT_CTRL.PIN_US -/
def wlkRtCtrlPinUs : Fld := ⟨.wlkRtCtrl, 16, 14⟩
/-- WLK_RT_CTRL.REFRESH_MS -/
def wlkRtCtrlRefreshMs : Fld := ⟨.wlkRtCtrl, 32, 14⟩
/-- WLK_RT_CTRL.MIN_AWAKE -/
def wlkRtCtrlMinAwake : Fld := ⟨.wlkRtCtrl, 48, 6⟩
/-- WLK_RT_STAT.DETOURS -/
def wlkRtStatDetours : Fld := ⟨.wlkRtStat, 0, 16⟩
/-- WLK_RT_STAT.DISCARDS -/
def wlkRtStatDiscards : Fld := ⟨.wlkRtStat, 16, 16⟩
/-- WLK_RT_STAT.PIN_FULL -/
def wlkRtStatPinFull : Fld := ⟨.wlkRtStat, 32, 16⟩
/-- WLK_RT_STAT.UNREACH -/
def wlkRtStatUnreach : Fld := ⟨.wlkRtStat, 48, 16⟩
/-- WLK_RT_PINS.USED -/
def wlkRtPinsUsed : Fld := ⟨.wlkRtPins, 0, 15⟩
/-- WLK_SYS.SYSID -/
def wlkSysSysid : Fld := ⟨.wlkSys, 0, 6⟩
/-- WLK_LS_SEL.DEVICE -/
def wlkLsSelDevice : Fld := ⟨.wlkLsSel, 0, 10⟩
/-- WLK_LS_VIEW0.LINKS -/
def wlkLsView0Links : Fld := ⟨.wlkLsView0, 0, 64⟩
/-- WLK_LS_VIEW1.LINKS -/
def wlkLsView1Links : Fld := ⟨.wlkLsView1, 0, 64⟩
/-- WLK_LS_VIEW2.DEVSTATE -/
def wlkLsView2Devstate : Fld := ⟨.wlkLsView2, 0, 2⟩
/-- WLK_LS_VIEW2.STALE -/
def wlkLsView2Stale : Fld := ⟨.wlkLsView2, 8, 1⟩
/-- WLK_FED.GW0 -/
def wlkFedGw0 : Fld := ⟨.wlkFed, 0, 10⟩
/-- WLK_FED.LINK0 -/
def wlkFedLink0 : Fld := ⟨.wlkFed, 10, 1⟩
/-- WLK_FED.VALID0 -/
def wlkFedValid0 : Fld := ⟨.wlkFed, 11, 1⟩
/-- WLK_FED.GW1 -/
def wlkFedGw1 : Fld := ⟨.wlkFed, 16, 10⟩
/-- WLK_FED.LINK1 -/
def wlkFedLink1 : Fld := ⟨.wlkFed, 26, 1⟩
/-- WLK_FED.VALID1 -/
def wlkFedValid1 : Fld := ⟨.wlkFed, 27, 1⟩
/-- PROT_CTRL.FAIL_MS -/
def protCtrlFailMs : Fld := ⟨.protCtrl, 0, 20⟩
/-- PROT_CTRL.CLOSE_MS -/
def protCtrlCloseMs : Fld := ⟨.protCtrl, 20, 16⟩
/-- PROT_CTRL.REBUILD_BLEND -/
def protCtrlRebuildBlend : Fld := ⟨.protCtrl, 40, 6⟩
/-- PROT_CTRL.DELTA_MS -/
def protCtrlDeltaMs : Fld := ⟨.protCtrl, 48, 12⟩
/-- PROT_GROUP.WIDTH -/
def protGroupWidth : Fld := ⟨.protGroup, 0, 3⟩
/-- PROT_GROUP.POSITION -/
def protGroupPosition : Fld := ⟨.protGroup, 8, 5⟩
/-- PROT_GROUP.COMMIT -/
def protGroupCommit : Fld := ⟨.protGroup, 16, 1⟩
/-- PROT_STATE.STATE -/
def protStateState : Fld := ⟨.protState, 0, 3⟩
/-- PROT_STATE.MISMATCH -/
def protStateMismatch : Fld := ⟨.protState, 8, 1⟩
/-- PROT_STATE.COORD -/
def protStateCoord : Fld := ⟨.protState, 16, 5⟩
/-- PROT_SIZE.S -/
def protSizeS : Fld := ⟨.protSize, 0, 32⟩
/-- PROT_SIZE.F -/
def protSizeF : Fld := ⟨.protSize, 32, 32⟩
/-- PROT_SIZE_FL.FRAMES -/
def protSizeFlFrames : Fld := ⟨.protSizeFl, 0, 32⟩
/-- PROT_SPARE.STATE -/
def protSpareState : Fld := ⟨.protSpare, 0, 2⟩
/-- PROT_SPARE.FOR -/
def protSpareFor : Fld := ⟨.protSpare, 8, 10⟩
/-- PROT_REBUILD.AREA -/
def protRebuildArea : Fld := ⟨.protRebuild, 0, 2⟩
/-- PROT_REBUILD.STRIPE -/
def protRebuildStripe : Fld := ⟨.protRebuild, 8, 56⟩
/-- PROT_EVAC.TARGET -/
def protEvacTarget : Fld := ⟨.protEvac, 0, 10⟩
/-- PROT_EVAC.GO -/
def protEvacGo : Fld := ⟨.protEvac, 15, 1⟩
/-- PROT_EVAC.BUSY -/
def protEvacBusy : Fld := ⟨.protEvac, 16, 1⟩
/-- PROT_STAT.RECON -/
def protStatRecon : Fld := ⟨.protStat, 0, 16⟩
/-- PROT_STAT.REBUILDING -/
def protStatRebuilding : Fld := ⟨.protStat, 16, 16⟩
/-- PROT_STAT.STALE -/
def protStatStale : Fld := ⟨.protStat, 32, 16⟩
/-- PROT_STAT.LOST -/
def protStatLost : Fld := ⟨.protStat, 48, 16⟩
/-- PROT_DIRTY.ENTRIES -/
def protDirtyEntries : Fld := ⟨.protDirty, 0, 21⟩
/-- PROT_DIRTY.OVERFLOW -/
def protDirtyOverflow : Fld := ⟨.protDirty, 31, 1⟩
/-- PROT_MEMBER.DEVID -/
def protMemberDevid : Fld := ⟨.protMember, 0, 10⟩
/-- PROT_MEMBER.STATE -/
def protMemberState : Fld := ⟨.protMember, 16, 2⟩
/-- PROT_MEMBER.ALIAS -/
def protMemberAlias : Fld := ⟨.protMember, 20, 10⟩
/-- PWR_MB_CTRL.FILTER -/
def pwrMbCtrlFilter : Fld := ⟨.pwrMbCtrl, 0, 4⟩
/-- PWR_MB_CTRL.SPEED -/
def pwrMbCtrlSpeed : Fld := ⟨.pwrMbCtrl, 4, 2⟩
/-- PWR_MB_CTRL.ATTN_EN -/
def pwrMbCtrlAttnEn : Fld := ⟨.pwrMbCtrl, 8, 1⟩
/-- PWR_MB_CTRL.POLL_EN -/
def pwrMbCtrlPollEn : Fld := ⟨.pwrMbCtrl, 9, 1⟩
/-- PWR_MB_CTRL.AUTOBACK -/
def pwrMbCtrlAutoback : Fld := ⟨.pwrMbCtrl, 10, 1⟩
/-- PWR_MB_CTRL.CPAIR -/
def pwrMbCtrlCpair : Fld := ⟨.pwrMbCtrl, 11, 1⟩
/-- PWR_MB_CTRL.LOCK -/
def pwrMbCtrlLock : Fld := ⟨.pwrMbCtrl, 16, 1⟩
/-- PWR_MB_CTRL.ARB_RETRY -/
def pwrMbCtrlArbRetry : Fld := ⟨.pwrMbCtrl, 24, 4⟩
/-- PWR_MB_STATUS.ADDR -/
def pwrMbStatusAddr : Fld := ⟨.pwrMbStatus, 0, 7⟩
/-- PWR_MB_STATUS.PAIR0 -/
def pwrMbStatusPair0 : Fld := ⟨.pwrMbStatus, 8, 2⟩
/-- PWR_MB_STATUS.PAIR1 -/
def pwrMbStatusPair1 : Fld := ⟨.pwrMbStatus, 10, 2⟩
/-- PWR_MB_STATUS.INUSE -/
def pwrMbStatusInuse : Fld := ⟨.pwrMbStatus, 12, 1⟩
/-- PWR_MB_STATUS.PENDING -/
def pwrMbStatusPending : Fld := ⟨.pwrMbStatus, 13, 1⟩
/-- PWR_MB_STATUS.CHANGED -/
def pwrMbStatusChanged : Fld := ⟨.pwrMbStatus, 16, 1⟩
/-- PWR_MB_STAT.STRETCH_ABORT -/
def pwrMbStatStretchAbort : Fld := ⟨.pwrMbStat, 0, 8⟩
/-- PWR_MB_STAT.ARB_LOST -/
def pwrMbStatArbLost : Fld := ⟨.pwrMbStat, 8, 8⟩
/-- PWR_MB_STAT.RECOVER -/
def pwrMbStatRecover : Fld := ⟨.pwrMbStat, 16, 8⟩
/-- PWR_MB_STAT.SCL_TIMEOUT -/
def pwrMbStatSclTimeout : Fld := ⟨.pwrMbStat, 24, 8⟩
/-- PWR_MB_STAT.DENIED -/
def pwrMbStatDenied : Fld := ⟨.pwrMbStat, 32, 16⟩
/-- PWR_MB_STAT.ATTN_SEEN -/
def pwrMbStatAttnSeen : Fld := ⟨.pwrMbStat, 48, 16⟩
/-- PWR_MB_ATTN.CAUSE -/
def pwrMbAttnCause : Fld := ⟨.pwrMbAttn, 0, 4⟩
/-- PWR_MB_ATTN.MASK -/
def pwrMbAttnMask : Fld := ⟨.pwrMbAttn, 8, 4⟩
/-- PWR_MB_ATTN.REQ -/
def pwrMbAttnReq : Fld := ⟨.pwrMbAttn, 12, 1⟩
/-- PWR_MB_ATTN_LOG.LAST -/
def pwrMbAttnLogLast : Fld := ⟨.pwrMbAttnLog, 0, 7⟩
/-- PWR_MB_ATTN_LOG.PAIR -/
def pwrMbAttnLogPair : Fld := ⟨.pwrMbAttnLog, 8, 1⟩
/-- PWR_MB_ATTN_LOG.COUNT -/
def pwrMbAttnLogCount : Fld := ⟨.pwrMbAttnLog, 16, 16⟩
/-- PWR_MB_XCMD.ADDR -/
def pwrMbXcmdAddr : Fld := ⟨.pwrMbXcmd, 0, 7⟩
/-- PWR_MB_XCMD.WLEN -/
def pwrMbXcmdWlen : Fld := ⟨.pwrMbXcmd, 8, 6⟩
/-- PWR_MB_XCMD.RLEN -/
def pwrMbXcmdRlen : Fld := ⟨.pwrMbXcmd, 16, 6⟩
/-- PWR_MB_XCMD.PAIR -/
def pwrMbXcmdPair : Fld := ⟨.pwrMbXcmd, 24, 2⟩
/-- PWR_MB_XCMD.GO -/
def pwrMbXcmdGo : Fld := ⟨.pwrMbXcmd, 31, 1⟩
/-- PWR_MB_XSTAT.STATUS -/
def pwrMbXstatStatus : Fld := ⟨.pwrMbXstat, 0, 4⟩
/-- PWR_MB_XSTAT.DONE_BYTES -/
def pwrMbXstatDoneBytes : Fld := ⟨.pwrMbXstat, 8, 6⟩
/-- PWR_MB_XDATA.DATA -/
def pwrMbXdataData : Fld := ⟨.pwrMbXdata, 0, 64⟩
/-- PWR_STATE.STATE -/
def pwrStateState : Fld := ⟨.pwrState, 0, 2⟩
/-- PWR_STATE.TARGET -/
def pwrStateTarget : Fld := ⟨.pwrState, 4, 2⟩
/-- PWR_STATE.SERVICE -/
def pwrStateService : Fld := ⟨.pwrState, 8, 2⟩
/-- PWR_STATE.REFUSED -/
def pwrStateRefused : Fld := ⟨.pwrState, 12, 1⟩
/-- PWR_START.STEP -/
def pwrStartStep : Fld := ⟨.pwrStart, 0, 4⟩
/-- PWR_START.FAIL -/
def pwrStartFail : Fld := ⟨.pwrStart, 4, 1⟩
/-- PWR_START.EXIT -/
def pwrStartExit : Fld := ⟨.pwrStart, 8, 3⟩
/-- PWR_START.COLD -/
def pwrStartCold : Fld := ⟨.pwrStart, 12, 1⟩
/-- PWR_STEP_US.US -/
def pwrStepUsUs : Fld := ⟨.pwrStepUs, 0, 32⟩
/-- PWR_RESET.DEVICE -/
def pwrResetDevice : Fld := ⟨.pwrReset, 0, 1⟩
/-- PWR_RESET.MGMT -/
def pwrResetMgmt : Fld := ⟨.pwrReset, 1, 1⟩
/-- PWR_RESET.CONFIRM -/
def pwrResetConfirm : Fld := ⟨.pwrReset, 8, 8⟩
/-- PWR_CAUSE.LAST -/
def pwrCauseLast : Fld := ⟨.pwrCause, 0, 4⟩
/-- PWR_CAUSE.RESETS -/
def pwrCauseResets : Fld := ⟨.pwrCause, 16, 16⟩
/-- PWR_CAUSE.MGMT -/
def pwrCauseMgmt : Fld := ⟨.pwrCause, 32, 16⟩
/-- PWR_FW_CTRL.STAGE -/
def pwrFwCtrlStage : Fld := ⟨.pwrFwCtrl, 0, 1⟩
/-- PWR_FW_CTRL.ACTIVATE -/
def pwrFwCtrlActivate : Fld := ⟨.pwrFwCtrl, 1, 1⟩
/-- PWR_FW_CTRL.COMMIT_SVN -/
def pwrFwCtrlCommitSvn : Fld := ⟨.pwrFwCtrl, 2, 1⟩
/-- PWR_FW_CTRL.SLOT -/
def pwrFwCtrlSlot : Fld := ⟨.pwrFwCtrl, 8, 1⟩
/-- PWR_FW_SRC.ADDR -/
def pwrFwSrcAddr : Fld := ⟨.pwrFwSrc, 12, 52⟩
/-- PWR_FW_LEN.BYTES -/
def pwrFwLenBytes : Fld := ⟨.pwrFwLen, 0, 25⟩
/-- PWR_FW_STAT.STATUS -/
def pwrFwStatStatus : Fld := ⟨.pwrFwStat, 0, 3⟩
/-- PWR_FW_STAT.ACTIVE -/
def pwrFwStatActive : Fld := ⟨.pwrFwStat, 8, 1⟩
/-- PWR_FW_STAT.TRIAL -/
def pwrFwStatTrial : Fld := ⟨.pwrFwStat, 9, 1⟩
/-- PWR_FW_STAT.ATTEMPTS -/
def pwrFwStatAttempts : Fld := ⟨.pwrFwStat, 10, 2⟩
/-- PWR_FW_STAT.ROLLED_BACK -/
def pwrFwStatRolledBack : Fld := ⟨.pwrFwStat, 12, 1⟩
/-- PWR_FW_STAT.MIN_SVN -/
def pwrFwStatMinSvn : Fld := ⟨.pwrFwStat, 16, 16⟩
/-- PWR_FW_STAT.SVN_A -/
def pwrFwStatSvnA : Fld := ⟨.pwrFwStat, 32, 16⟩
/-- PWR_FW_STAT.SVN_B -/
def pwrFwStatSvnB : Fld := ⟨.pwrFwStat, 48, 16⟩
/-- PWR_FW_VER_A.VERSION -/
def pwrFwVerAVersion : Fld := ⟨.pwrFwVerA, 0, 64⟩
/-- PWR_FW_VER_B.VERSION -/
def pwrFwVerBVersion : Fld := ⟨.pwrFwVerB, 0, 64⟩
/-- PWR_STAT.BAD_CONFIRM -/
def pwrStatBadConfirm : Fld := ⟨.pwrStat, 0, 16⟩
/-- PWR_FAULT.RAIL_FAULT -/
def pwrFaultRailFault : Fld := ⟨.pwrFault, 0, 1⟩
/-- PWR_FAULT.RAIL -/
def pwrFaultRail : Fld := ⟨.pwrFault, 1, 3⟩
/-- PWR_FAULT.PLL_FAULT -/
def pwrFaultPllFault : Fld := ⟨.pwrFault, 4, 1⟩
/-- EVT_CTRL.VECTOR -/
def evtCtrlVector : Fld := ⟨.evtCtrl, 0, 6⟩
/-- EVT_CTRL.NOVEC -/
def evtCtrlNovec : Fld := ⟨.evtCtrl, 7, 1⟩
/-- EVT_CTRL.MIN_SEV -/
def evtCtrlMinSev : Fld := ⟨.evtCtrl, 8, 2⟩
/-- EVT_CTRL.CLEAR -/
def evtCtrlClear : Fld := ⟨.evtCtrl, 16, 1⟩
/-- EVT_PROD.PROD -/
def evtProdProd : Fld := ⟨.evtProd, 0, 32⟩
/-- EVT_CONS.CONS -/
def evtConsCons : Fld := ⟨.evtCons, 0, 32⟩
/-- EVT_STAT.FILL -/
def evtStatFill : Fld := ⟨.evtStat, 0, 13⟩
/-- EVT_STAT.OVERWRITTEN -/
def evtStatOverwritten : Fld := ⟨.evtStat, 16, 16⟩
/-- EVT_BUS_POP.POP -/
def evtBusPopPop : Fld := ⟨.evtBusPop, 0, 1⟩
/-- EVT_BUS_ENTRY.BYTES -/
def evtBusEntryBytes : Fld := ⟨.evtBusEntry, 0, 64⟩
/-- EVT_RING.ENTRY -/
def evtRingEntry : Fld := ⟨.evtRing, 0, 64⟩

end Fld

/-- Part 0 of the list of registers. -/
def regList0 : List Reg := [Reg.glbId, Reg.glbClk, Reg.glbSeamState, Reg.glbCycle, Reg.twbCtrl, Reg.twbBase, Reg.twbSize, Reg.twbStatus, Reg.twbSrcMask, Reg.twbOutHash, Reg.pourDomCtrl, Reg.pourDomSrc, Reg.pourDomPos, Reg.pourDomRate, Reg.pourDomBrim, Reg.pourDomSilence, Reg.pourDomStat, Reg.pourTrigStat, Reg.pourTrigQuota, Reg.pourTrigEntry, Reg.cmdAcqBase, Reg.cmdAcqCfg, Reg.cmdFnStatus, Reg.cmdSqErr, Reg.cmdCqErr, Reg.cmdVecCoal, Reg.cmdSqTail, Reg.cmdCqHead, Reg.msixTable, Reg.msixPba, Reg.cmdFnQuota, Reg.cmdSqState, Reg.cmdStat, Reg.cmdFree, Reg.poolCtrl, Reg.poolLogical, Reg.poolSectorsTotal, Reg.poolSectorsFree, Reg.poolSectorsRsv, Reg.poolWmark]
/-- Part 1 of the list of registers. -/
def regList1 : List Reg := [Reg.poolSpace, Reg.poolTables, Reg.poolRanges, Reg.poolFnLimit, Reg.poolFnUse, Reg.poolFnStat, Reg.grdCtrl, Reg.grdLanes, Reg.grdLanesHi, Reg.grdPages, Reg.grdBytesIn, Reg.grdSectorsOut, Reg.grdErr, Reg.grdMapcHit, Reg.grdMapcMiss, Reg.grdLog, Reg.grdKeys, Reg.grdHintIn, Reg.grdHintOut, Reg.libCtrl, Reg.libStageDram, Reg.libStageUrn, Reg.libStageHold, Reg.libStageWait, Reg.libStageFill, Reg.libStageStat, Reg.libPatrol, Reg.libFlash, Reg.libVolumes, Reg.libErr, Reg.libDeg, Reg.libCause, Reg.libCauseLate, Reg.libChState, Reg.seqCtrl, Reg.seqStreams, Reg.seqChunks, Reg.seqStat, Reg.seqSel, Reg.seqView0]
/-- Part 2 of the list of registers. -/
def regList2 : List Reg := [Reg.seqView1, Reg.seqView2, Reg.prsState, Reg.prsDramIn, Reg.prsLogicalIn, Reg.prsOrders, Reg.prsScratch, Reg.prsStat, Reg.prsScanBytes, Reg.prsScanDram, Reg.prsPassPages, Reg.urnStatus, Reg.urnLayout, Reg.urnFree, Reg.urnBuffers, Reg.urnScrub, Reg.urnEcc, Reg.urnFault, Reg.urnFaultStat, Reg.urnFnQuota, Reg.urnFnUse, Reg.urnConflict, Reg.urnFnStat, Reg.urnRegion, Reg.urnWinBase, Reg.urnWinSize, Reg.urnWinCtrl, Reg.urnWinStat, Reg.dmaEngState, Reg.dmaEngBytes, Reg.dmaEngStat, Reg.dmaChState, Reg.dmaChPc, Reg.dmaChLoop, Reg.dmaChErr, Reg.dmaChErrAddr, Reg.dmaChSig, Reg.dmaChMoved, Reg.dmaCtrl, Reg.dmaFnQuota]
/-- Part 3 of the list of registers. -/
def regList3 : List Reg := [Reg.dmaTenCh, Reg.dmaTenErr, Reg.drcState, Reg.drcRef, Reg.drcRefPostpone, Reg.drcRefDebt, Reg.drcRefDebtHi, Reg.drcRefStat, Reg.drcPage, Reg.drcSched, Reg.drcRt, Reg.drcRtStat, Reg.drcRtPanicCyc, Reg.drcEcc, Reg.drcEccDev, Reg.drcEccAddr, Reg.drcEccCtrl, Reg.drcRows, Reg.drcTrain, Reg.drcMap, Reg.drcHash, Reg.drcHashNext, Reg.drcScrub, Reg.drcInit, Reg.drcFastboot, Reg.bldGuar0, Reg.bldLimit0, Reg.bldGuar1, Reg.bldLimit1, Reg.bldCfg, Reg.bldWinBytes, Reg.bldWinReqs, Reg.bldWinDone, Reg.bldWinState, Reg.bldTotalBytes, Reg.bldTotalReqs, Reg.bldMiss, Reg.bldDemoted, Reg.bldStageGuar0, Reg.bldStageLimit0]
/-- Part 4 of the list of registers. -/
def regList4 : List Reg := [Reg.bldStageGuar1, Reg.bldStageLimit1, Reg.bldStageCfg, Reg.bldCommit, Reg.bldActive, Reg.bldCtrl, Reg.bldDecaf, Reg.bldMissCtrl, Reg.bldBoost, Reg.bldStatus, Reg.bldMissPend, Reg.bldCheckFail, Reg.bldAttLimit, Reg.bldFnSel, Reg.bldFnView0, Reg.bldFnView1, Reg.bldFnView2, Reg.bldFnView3, Reg.tenFm, Reg.tenPort, Reg.tenFlrTime, Reg.tenStat, Reg.tenFnState, Reg.tenFnBlends, Reg.tenFnStat, Reg.tenSelf, Reg.wlkState, Reg.wlkCtrl, Reg.wlkCredit, Reg.wlkTxcred, Reg.wlkSeq, Reg.wlkFec, Reg.wlkErr, Reg.wlkErr2, Reg.wlkBytesTx, Reg.wlkBytesRx, Reg.wlkNapCtrl, Reg.wlkNapState, Reg.wlkNapStat, Reg.wlkMode]
/-- Part 5 of the list of registers. -/
def regList5 : List Reg := [Reg.wlkRtCtrl, Reg.wlkRtStat, Reg.wlkRtPins, Reg.wlkSys, Reg.wlkLsSel, Reg.wlkLsView0, Reg.wlkLsView1, Reg.wlkLsView2, Reg.wlkFed, Reg.protCtrl, Reg.protGroup, Reg.protState, Reg.protSize, Reg.protSizeFl, Reg.protSpare, Reg.protRebuild, Reg.protEvac, Reg.protStat, Reg.protDirty, Reg.protMember, Reg.pwrMbCtrl, Reg.pwrMbStatus, Reg.pwrMbStat, Reg.pwrMbAttn, Reg.pwrMbAttnLog, Reg.pwrMbXcmd, Reg.pwrMbXstat, Reg.pwrMbXdata, Reg.pwrState, Reg.pwrStart, Reg.pwrStepUs, Reg.pwrReset, Reg.pwrCause, Reg.pwrFwCtrl, Reg.pwrFwSrc, Reg.pwrFwLen, Reg.pwrFwStat, Reg.pwrFwVerA, Reg.pwrFwVerB, Reg.pwrStat]
/-- Part 6 of the list of registers. -/
def regList6 : List Reg := [Reg.pwrFault, Reg.evtCtrl, Reg.evtProd, Reg.evtCons, Reg.evtStat, Reg.evtBusPop, Reg.evtBusEntry, Reg.evtRing]
/-- Every register, in the order of the inductive. -/
def Reg.all : List Reg :=
  regList0 ++ regList1 ++ regList2 ++ regList3 ++ regList4 ++ regList5 ++ regList6

/-- A register's own number, the high part of its key in the register store. -/
def Reg.ord (r : Reg) : Nat := r.ctorIdx

/-- The reset value of a register: each field at the Reset column's value. -/
def Reg.resetValue (r : Reg) : Nat :=
  r.spec.fields.foldl (fun n f => setBits n f.lo f.width f.reset) 0

/-- The instance numbers at which an offset of a window meets a register, if it does. -/
def RegSpec.instOf (p : RegSpec) (off : Nat) : Option (Nat × Nat) :=
  if off < p.base then none
  else
    let d := off - p.base
    let i := if p.stride1 = 0 then 0 else d / p.stride1
    let e := if p.stride1 = 0 then d else d % p.stride1
    let (i, e) := if p.stride1 ≠ 0 && decide (p.count1 ≤ i) then (p.count1, d) else (i, e)
    if p.stride1 ≠ 0 && decide (p.count1 ≤ i) then none
    else
      let j := if p.stride2 = 0 then 0 else e / p.stride2
      let r := if p.stride2 = 0 then e else e % p.stride2
      if r = 0 && decide (j < p.count2) then some (i, j) else none

/-- The register that an 8-byte aligned offset of BAR0 (`tenant = false`) or of a tenant window names, with its two
instance numbers; none where no register is listed (R534). -/
def Reg.find (tenant : Bool) (off : Nat) : Option (Reg × Nat × Nat) :=
  Reg.all.findSome? fun r =>
    if r.spec.tenant = tenant then (r.spec.instOf off).map fun ij => (r, ij.1, ij.2) else none

end Sys2Proof.Machine
end

