-- ==== Sys2Proof/Machine/State.lean ====
section
/-! DEFINITION. The state of the device as plain data: every register, table, queue, counter, mode and pin that the spec gives
it, the queue of waiting commands, and two fields of the model's own (the free-value counter and the list of outputs). -/

namespace Sys2Proof.Machine

/-- Why the block stops. -/
inductive Fault where
  /-- Raised by SQ_ENTRY_WRITE where the write lies outside the 1 MiB BAR2 window that R72 gives a function: no such address
  exists. Safe: the machine stops where the bus would not have delivered the write. -/
  | noSuchAddress
  deriving DecidableEq, Repr

/-- Why a command has no meaning here. -/
inductive Refusal where
  /-- Raised by an arm of exec whose command has no meaning yet. Safe: nothing can be proved of it. -/
  | notModelled (mnemonic : String)
  deriving DecidableEq, Repr

/-- The status codes of R105. -/
inductive Status where
  | ok | okPartial | okStalePour
  | badOpcode | badField | badAlign | badFormat
  | notOwner | alreadyFree | leaseExpired | outOfPartition | noSpace
  | deadlineMissed | pourRegress
  | mediaError | uncorrectable | rebuilding
  | tenantReset | aborted | linkUnreachable | fmOnly | notAdmitted | internal
  deriving DecidableEq, Repr, Inhabited

/-- A tenant's name in the system: its home device id and its function index (R127). -/
structure Who where
  dev : Nat := 0
  fn : Nat := 0
  deriving DecidableEq, Repr, Inhabited

/-! ### Tenants (spec/14) and command transport (spec/03) -/

/-- One function of this device: its existence, its admission record, its reset state and its MSI-X state (R374, R381, R385,
R94). -/
structure Fn where
  present : Bool := false
  /-- PF to which a VF belongs, and the VF's number in it (0 for the PF itself) -/
  vf : Nat := 0
  attach : Nat := 0
  busMaster : Bool := false
  admitted : Bool := false
  domain : Option Nat := none
  blends : Nat := 0
  ready : Bool := false
  /-- the admin pair's deletion is running (R66) -/
  acqDeleting : Bool := false
  epoch : Nat := 0
  /-- 0 not under reset, 1 FLR, 2 port reset (TEN_FN_STATE.RESET) -/
  resetState : Nat := 0
  /-- µs at which the reset began -/
  resetStart : Nat := 0
  /-- CANCEL_ACKs still awaited by the reset -/
  cancels : Nat := 0
  /-- the reset is that of a VF whose PF's VF Enable was cleared (R565) -/
  removed : Bool := false
  /-- SR-IOV of a PF: NumVFs and VF Enable -/
  numVfs : Nat := 0
  vfEnable : Bool := false
  msixEnable : Bool := false
  msixMaskAll : Bool := false
  /-- bit v: vector v is unmasked in the MSI-X table -/
  vecUnmasked : Nat := 0
  /-- bit v of the Pending Bit Array -/
  pba : Nat := 0
  deriving DecidableEq, Repr, Inhabited

/-- Replies of one vector that have not been signalled, and the µs at which the first of them was written (R95). -/
structure Coal where
  count : Nat := 0
  since : Nat := 0
  deriving DecidableEq, Repr, Inhabited

/-- CMD_SQ_STATE.STATE, and the same for a completion queue. -/
inductive QState where
  | free | active | error | deleting
  deriving DecidableEq, Repr, Inhabited

/-- A submission queue, by global id (R66 to R76). -/
structure Sq where
  state : QState := .free
  owner : Nat := 0
  loc : Nat := 0
  size : Nat := 0
  head : Nat := 0
  tail : Nat := 0
  /-- global id of the bound CQ -/
  cq : Nat := 0
  barista : Nat := 0
  /-- no Barista serves it (R81) -/
  orphan : Bool := false
  deriving DecidableEq, Repr, Inhabited

/-- A reply that is due (R85); what R85 fills in as the reply is written is not held here. -/
structure Reply where
  sq : Nat := 0
  cid : Nat := 0
  status : Status := .ok
  part : Bool := false
  decaf : Bool := false
  load : Nat := 0
  pace : Nat := 0
  result0 : Nat := 0
  result1 : Nat := 0
  noint : Bool := false
  urgent : Bool := false
  fn : Nat := 0
  blend : Nat := 0
  since : Nat := 0
  deriving DecidableEq, Repr, Inhabited

/-- A completion queue, by global id (R69, R86, R89, R90). -/
structure Cq where
  state : QState := .free
  owner : Nat := 0
  loc : Nat := 0
  size : Nat := 0
  base : Nat := 0
  vector : Option Nat := none
  head : Nat := 0
  tail : Nat := 0
  /-- phase of the pass in hand: false on the first pass, when PHASE is 1 -/
  wrapped : Bool := false
  /-- the CQ has been counted as full since it last had room -/
  full : Bool := false
  /-- replies held for it, in the order they became due -/
  held : List Reply := []
  deriving DecidableEq, Repr, Inhabited

/-- What a command in flight was accepted under or names (R13, R14, R15, R108, R194). -/
inductive ObjRef where
  | extent (dev start : Nat)
  | stream (dev index gen : Nat)
  | volume (id : Nat)
  | buffer (index : Nat)
  | channel (ch : Nat)
  | granules (dev start len : Nat)
  deriving DecidableEq, Repr

/-- How far a command in flight has come. -/
inductive Stage where
  /-- accepted, its work not begun or waiting to be tried again -/
  | accepted
  /-- its work is under way in other units, on other devices or in a run -/
  | running
  /-- its work has ended and its reply is due -/
  | done
  deriving DecidableEq, Repr, Inhabited

/-- A bound deadline: domain, and the position at which it is missed (R54). -/
structure Deadline where
  domain : Nat
  epoch : Nat
  layer : Nat
  tick : Nat
  deriving DecidableEq, Repr

/-- A command that was accepted and has not been answered. -/
structure Cmd where
  live : Bool := false
  fn : Nat := 0
  sq : Nat := 0
  /-- place in the order of acceptance -/
  order : Nat := 0
  /-- the 64-byte entry as a number (R82) -/
  entry : Nat := 0
  /-- epoch of the function at acceptance (R387) -/
  epoch : Nat := 0
  deadline : Option Deadline := none
  /-- the deadline was judged missed -/
  missed : Bool := false
  stage : Stage := .accepted
  /-- data-plane work has started (R53) -/
  started : Bool := false
  objs : List ObjRef := []
  /-- what the partition, lease, volume or stream table refused as the command was accepted (R13) -/
  refuse : Option Status := none
  /-- the range lies wholly inside the caller's partition, as checked at the home device (R128) -/
  inPart : Bool := false
  /-- the command was sent here: its origin (device + 1024 × system) and the tag there -/
  origin : Option (Nat × Nat) := none
  caller : Who := {}
  /-- first token of an ordered append; of a trigger's staging, its entry + 1024 × domain -/
  first : Nat := 0
  /-- bytes moved so far; of a trigger's staging that has ended, 1 + units that could not be staged -/
  moved : Nat := 0
  /-- µs at acceptance -/
  since : Nat := 0
  /-- the command waits for room or for a medium since that µs -/
  waitSince : Option Nat := none
  /-- the command is to end at its next element boundary (R109, R70) -/
  abort : Bool := false
  /-- tier fixed at its charge (R355) -/
  tier : Nat := 1
  /-- data received from its origin (WRITE_DATA) -/
  inData : List Byte := []
  /-- the share of the range that a WORK message gave it: object address, length, offset in the range -/
  part : Option (Nat × Nat × Nat) := none
  /-- result records of its share -/
  recs : List Byte := []
  /-- the change code and new length of the TABLE notice that it serves -/
  table : Option (Nat × Nat) := none
  /-- it came as a STEP notice, and is answered by STEP_ACK (R520) -/
  step : Bool := false
  /-- it was sent to a device that this one answers for without holding its data: that device's id (R470) -/
  proxy : Option Nat := none
  /-- parity deltas numbered below this one must be answered before its reply is written (R461) -/
  mark : Nat := 0
  /-- its table change has been written through to the table area (R456) -/
  stored : Bool := false
  reply : Reply := {}
  deriving DecidableEq, Repr, Inhabited

/-! ### Pour (spec/02) -/

/-- The three states of a domain. -/
inductive DomState where
  | off | live | stale
  deriving DecidableEq, Repr, Inhabited

/-- What a domain that is being synchronised must originate afterwards (R48). -/
inductive SyncFor where
  | nothing
  | update (tag : Nat)
  | reset
  deriving DecidableEq, Repr

/-- One pour domain (R39, R42, R47, R50, R51). -/
structure Dom where
  state : DomState := .off
  epoch : Nat := 0
  layer : Nat := 0
  tick : Nat := 0
  frac : Nat := 0
  rate : Nat := 0
  brim : Nat := 0xFFFF
  brimHeld : Bool := false
  synced : Bool := false
  rgen : Nat := 0
  seq : Nat := 0
  /-- position of the last applied update -/
  lastEpoch : Nat := 0
  lastLayer : Nat := 0
  lastTick : Nat := 0
  /-- µs at which the last update was applied -/
  heard : Nat := 0
  /-- a synchronisation is under way, and what follows it -/
  sync : Option SyncFor := none
  deriving DecidableEq, Repr, Inhabited

/-- One trigger entry (the entry layout of spec/02). -/
structure Trig where
  valid : Bool := false
  epoch : Nat := 0
  layer : Nat := 0
  tick : Nat := 0
  domain : Nat := 0
  action : Nat := 0
  owner : Nat := 0
  fm : Bool := false
  eachLayer : Bool := false
  /-- epoch and layer last fired or lost, for EACH_LAYER entries -/
  fired : Option (Nat × Nat) := none
  /-- action arguments, entry bytes 16 to 31 -/
  args : Nat := 0
  deriving DecidableEq, Repr, Inhabited

/-- An entry that has become due, with the position of the crossing that made it due (R61). -/
structure Due where
  entry : Nat
  epoch : Nat
  layer : Nat
  tick : Nat
  deriving DecidableEq, Repr

/-! ### Pool (spec/05) and pages (spec/06) -/

/-- The lease states of spec/05. -/
inductive LeaseState where
  | free | live | expired | orphaned | releasing
  deriving DecidableEq, Repr, Inhabited

/-- A grant: who, and whether it lets the grantee write (R142). -/
structure Grant where
  who : Who
  write : Bool
  deriving DecidableEq, Repr

/-- An extent record, by its first 2 MiB granule (spec/05, Where the records live). -/
structure Extent where
  state : LeaseState := .free
  /-- length in 2 MiB granules -/
  len : Nat := 0
  claimant : Who := {}
  leaseMs : Nat := 0
  expiry : Nat := 0
  hint : Nat := 0
  key : Nat := 0
  enc : Bool := false
  grants : List Grant := []
  /-- functions that held a grant at expiry (R112) -/
  former : List Who := []
  /-- the zero-fill has begun -/
  filling : Bool := false
  deriving DecidableEq, Repr, Inhabited

/-- A lease index entry of a home device: the holding device and the object address (R137). -/
structure LeaseRef where
  dev : Nat
  addr : Nat
  deriving DecidableEq, Repr

/-- A partition range in 1 GiB granules. -/
structure PRange where
  dev : Nat
  start : Nat
  len : Nat
  deriving DecidableEq, Repr

/-- A page map entry (R170). -/
structure PageEntry where
  base : Nat := 0
  count : Nat := 0
  codec : Nat := 0
  key : Nat := 0
  enc : Bool := false
  check : Nat := 0
  mapped : Bool := false
  poison : Bool := false
  deriving DecidableEq, Repr, Inhabited

/-- A write-back log record (R176); `page` is the key the entry goes to. -/
structure LogRec where
  page : Nat
  entry : PageEntry
  seq : Nat
  deriving DecidableEq, Repr

/-- Sectors of a relocated page that R19 keeps until they may be freed. -/
structure OldRun where
  base : Nat
  count : Nat
  /-- sequence of the log record that replaced the entry -/
  seq : Nat
  deriving DecidableEq, Repr

/-- A key slot (R180): its 64-byte key pair and its owner. -/
structure KeySlot where
  loaded : Bool := false
  key1 : Nat := 0
  key2 : Nat := 0
  owner : Nat := 0
  fm : Bool := false
  deriving DecidableEq, Repr, Inhabited

/-! ### Library (spec/07) and streams (spec/08) -/

/-- A volume table entry, by volume id. -/
structure Volume where
  present : Bool := false
  length : Nat := 0
  sealed : Bool := false
  writer : Who := {}
  readers : List Who := []
  shadow : Option Nat := none
  stripe : List Nat := []
  start : Nat := 0
  /-- a DELETE has stopped acceptance (R194) -/
  deleting : Bool := false
  /-- length the loads in flight will produce (R114) -/
  planned : Nat := 0
  deriving DecidableEq, Repr, Inhabited

/-- A stripe unit record (R196): the frame on its channel and the 16 page entries. -/
structure UnitRec where
  present : Bool := false
  frame : Nat := 0
  pages : List PageEntry := []
  deriving DecidableEq, Repr, Inhabited

/-- A flash frame of one channel. -/
structure Frame where
  used : Bool := false
  target : Nat := 0
  lun : Nat := 0
  /-- freed, waiting for media management to erase it -/
  stale : Bool := false
  deriving DecidableEq, Repr, Inhabited

/-- A staged copy of a stripe unit in one tier (R202 to R204). -/
structure Staged where
  present : Bool := false
  since : Nat := 0
  /-- bit b: 64-byte block b of the unit has been read by an LREAD since staging -/
  readMask : Nat := 0
  hold : Bool := false
  lastRead : Nat := 0
  /-- slot of the tier that holds it -/
  slot : Nat := 0
  deriving DecidableEq, Repr, Inhabited

/-- The stream states of SEQ_VIEW0.STATE. -/
inductive StreamState where
  | free | opened | expired | orphaned | closing
  deriving DecidableEq, Repr, Inhabited

/-- A stream descriptor, by stream index (spec/08, Where stream state lives). -/
structure Stream where
  state : StreamState := .free
  gen : Nat := 0
  rsize : Nat := 0
  hint : Nat := 0
  key : Nat := 0
  enc : Bool := false
  opener : Who := {}
  leaseMs : Nat := 0
  expiry : Nat := 0
  grants : List Grant := []
  former : List Who := []
  stripe : List Nat := []
  first : Nat := 0
  last : Nat := 0
  /-- appends accepted, oldest first, by tag; the first is ordered when `ordered` is set -/
  waiting : List Nat := []
  ordered : Bool := false
  /-- tag of the SCLOSE that closes it -/
  closer : Option Nat := none
  deriving DecidableEq, Repr, Inhabited

/-- A chunk record of a holding device, by its key (R218). -/
structure Chunk where
  present : Bool := false
  home : Nat := 0
  stream : Nat := 0
  gen : Nat := 0
  chunk : Nat := 0
  rsize : Nat := 0
  /-- runs of sectors that hold its page map entries -/
  bases : List Nat := []
  /-- its stream home has asked for its end -/
  doomed : Bool := false
  deriving DecidableEq, Repr, Inhabited

/-- What a device of a stripe list keeps of a stream, by its home device and index: what its chunks are stored with. -/
structure SInfo where
  gen : Nat := 0
  rsize : Nat := 0
  hint : Nat := 0
  key : Nat := 0
  enc : Bool := false
  deriving DecidableEq, Repr, Inhabited

/-! ### Presses (spec/09) -/

/-- One candidate of a scan: its address, its bounds (or its exact value) and whether it is live. -/
structure Cand where
  addr : Nat
  low : Int
  high : Int
  exact : Bool
  deriving DecidableEq, Repr

/-- A record of a scan or a reduction: index and value (R117); a value is an integer or an FP32 pattern. -/
structure Rec where
  index : Nat
  value : Int
  deriving DecidableEq, Repr

/-- A PSCAN fragment on this device (R246 to R254). -/
structure Frag where
  live : Bool := false
  /-- the command it serves here, or the tag at its origin device -/
  tag : Nat := 0
  origin : Option Nat := none
  slice : Option Nat := none
  order : Nat := 0
  /-- ranges: pool address and length in bytes -/
  ranges : List (Nat × Nat) := []
  query : List Int := []
  fmt : Nat := 0
  dist : Nat := 0
  dim : Nat := 0
  k : Nat := 0
  stride : Nat := 0
  degrade : Bool := false
  deadline : Option Deadline := none
  /-- first vector of the segment in hand, counted over all ranges -/
  segStart : Nat := 0
  /-- complete passes of the segment in hand -/
  pass : Nat := 0
  cands : List Cand := []
  /-- page entries pinned by the segment, by logical page -/
  pinned : List (Nat × PageEntry) := []
  kept : List Rec := []
  /-- vectors of begun segments, and the least pass count of a begun segment -/
  scanned : Nat := 0
  planes : Nat := 0
  stopped : Bool := false
  finished : Bool := false
  status : Status := .ok
  deriving DecidableEq, Repr, Inhabited

/-! ### Urn (spec/10) -/

/-- An Urn buffer, by buffer index (R107, R274 to R280). -/
structure Buf where
  /-- pages and index are held -/
  held : Bool := false
  /-- its handle is in force -/
  named : Bool := false
  gen : Nat := 0
  owner : Nat := 0
  page : Nat := 0
  pages : Nat := 0
  poisoned : Bool := false
  /-- function and generation freed by a reset of the owner (R277) -/
  resetBy : Option (Nat × Nat) := none
  deriving DecidableEq, Repr, Inhabited

/-! ### DMA (spec/11) -/

/-- A bus error or fault of a run: fault code, cause, whether the access wrote, its space and its address (R312). -/
structure DmaErr where
  fault : Nat
  cause : Nat
  write : Bool := false
  space : Nat := 0
  addr : Nat := 0
  deriving DecidableEq, Repr, Inhabited

/-- What a WAIT in hand waits with: µs at which it began, the position then, and its limits (R319). -/
structure DmaWait where
  since : Nat
  epoch : Nat
  layer : Nat
  tick : Nat
  /-- limit in µs under UNIT 0 and for LIMIT 0, none under UNIT 1 -/
  us : Option Nat
  /-- limit in pt under UNIT 1 -/
  pt : Nat
  cap : Nat
  deriving DecidableEq, Repr, Inhabited

/-- What a DMA channel holds beside its registers (R285, R288 to R290, R297, R300, R313, R319). -/
structure Chan where
  /-- command that the run answers -/
  tag : Option Nat := none
  /-- first address, Urn handle and buffer, blend, default vector, and place in the start order -/
  first : Nat := 0
  handle : Nat := 0
  buf : Option Nat := none
  vectorAt : Option Nat := none
  order : Nat := 0
  /-- the run continues from a halt -/
  resumed : Bool := false
  /-- function and generation freed by a reset of the owner -/
  resetBy : Option (Nat × Nat) := none
  /-- context slots: bases with their spaces, those that hold an Urn address loaded, LIMIT, POLICY, VECTOR -/
  bases : List Nat := [0, 0, 0, 0, 0, 0, 0, 0]
  spaces : List Nat := [0, 0, 0, 0, 0, 0, 0, 0]
  loaded : Nat := 0
  limit : Nat := 0
  retry : Bool := false
  retries : Nat := 1
  vector : Option Nat := none
  sstep : List Int := [0, 0, 0]
  dstep : List Int := [0, 0, 0]
  /-- the run's first descriptor has set its policy -/
  policySet : Bool := false
  /-- the 64-byte word fetched last, by its address -/
  word : Option (Nat × List Byte) := none
  /-- the transfer in hand: charged, bytes written, bytes read and not yet written, the fault that follows them, HALF sent -/
  charged : Bool := false
  moved : Nat := 0
  todo : Option (List Byte) := none
  after : Option DmaErr := none
  halfSent : Bool := false
  /-- tag of the internal command that reads or writes another device for the run -/
  sub : Option Nat := none
  /-- a retry is due at that µs -/
  retryAt : Option Nat := none
  waiting : Option DmaWait := none
  /-- END has executed -/
  ended : Bool := false
  deriving DecidableEq, Repr, Inhabited

/-! ### DRAM (spec/12) -/

/-- A bank of a rank-subchannel: its row left open, the last row activated, its history (R335). -/
structure Bank where
  opened : Bool := false
  row : Option Nat := none
  hist : Nat := 0
  deriving DecidableEq, Repr, Inhabited

/-- What the device drives or sends to the outside; State keeps the list in order. -/
inductive Output where
  /-- an MSI-X message of a function's vector -/
  | msix (f v : Nat)
  /-- a message or notice handed to a link's transmitter: virtual channel, and the message's bytes or the notice's slots -/
  | message (link vc : Nat) (bytes : List Byte)
  /-- a 256-byte flit sent on a link -/
  | flit (link : Nat) (bytes : List Byte)
  /-- an acknowledgement (or none) of a byte on a management bus pair -/
  | busAck (pair : Nat) (ack : Bool)
  /-- a byte sent on a pair as a target -/
  | busByte (pair byte : Nat)
  /-- SDA held low for an attention signal -/
  | busHold (pair : Nat)
  /-- nine clocks and a STOP -/
  | busClocks (pair : Nat)
  /-- a controller transfer begun: target address, bytes written, bytes to be read -/
  | busTransfer (pair addr : Nat) (bytes : List Byte) (rlen : Nat)
  deriving DecidableEq, Repr

/-! ### Blends (spec/13) -/

/-- One (account, blend) pair, account 256 the device's own (R362). -/
structure Pair where
  /-- charged since its account was admitted -/
  live : Bool := false
  cg : Int := 0
  cl : Int := 0
  /-- its limit share was finite when its credits were last set -/
  finite : Bool := false
  dec : Bool := false
  /-- bytes and requests of the window in hand -/
  runBytes : Nat := 0
  runReqs : Nat := 0
  /-- bytes and requests of the last window -/
  winBytes : Nat := 0
  winReqs : Nat := 0
  /-- since admission -/
  bytes : Nat := 0
  reqs : Nat := 0
  demotions : Nat := 0
  deriving DecidableEq, Repr, Inhabited

/-- Running counts of one blend in the window in hand (R365, R368). -/
structure BlendRun where
  bytes : Nat := 0
  charges : Nat := 0
  replies : Nat := 0
  done : Nat := 0
  overs : Nat := 0
  /-- sum over the window's µs of the GUAR in force -/
  guar : Nat := 0
  deriving DecidableEq, Repr, Inhabited

/-- What the last window fixed of a host attachment's share: the pairs charged (k_h) and the limit then in BLD_ATT_LIMIT (R361, R372). -/
structure AttWindow where
  pairs : Nat := 0
  limit : Nat := 0xFFFFFFFF
  deriving DecidableEq, Repr, Inhabited

/-! ### Links (spec/15, spec/16) -/

/-- A message or notice on its way: its virtual channel, kind, tier, destination, and its bytes (a message with its header, or a
notice's slots of 16 bytes). -/
structure Item where
  vc : Nat := 0
  kind : Nat := 0
  tier : Nat := 0
  sys : Nat := 0
  dev : Nat := 0
  recovery : Bool := false
  bytes : List Byte := []
  deriving DecidableEq, Repr, Inhabited

/-- A flit waiting in, or sent from, a transmitter. -/
structure TxFlit where
  typ : Nat := 1
  vc : Nat := 0
  payload : List Byte := []
  tier : Nat := 0
  /-- ns by which its arbiter should serve it (R356) -/
  due : Nat := 0
  /-- hops the message may still take beyond the receiver (R438) -/
  hops : Nat := 0
  recovery : Bool := false
  /-- first flit of its message -/
  first : Bool := true
  /-- the message, on its last flit -/
  item : Option Item := none
  deriving DecidableEq, Repr, Inhabited

/-- The receiver's state (R403). -/
inductive RxState where
  | ok | nakDue | nakSent
  deriving DecidableEq, Repr, Inhabited

/-- A slot received in a CTRL flit: kind, body, and whether it is the flit's last. -/
structure RxSlot where
  kind : Nat
  body : List Byte
  last : Bool
  deriving DecidableEq, Repr, Inhabited

/-- One link (R401 to R406, R418, R421, R444 to R448). Its training state, lanes, partner and counts are registers. -/
structure Link where
  next : Nat := 0
  base : Nat := 0
  expected : Nat := 0
  /-- sent and unacknowledged, oldest first -/
  replay : List TxFlit := []
  /-- waiting to be sent, in the order of each virtual channel -/
  waiting : List TxFlit := []
  fails : Nat := 0
  /-- the blend served last on each virtual channel while the blend table is FLAT (R370) -/
  turns : List Nat := [63, 63, 63, 63]
  rx : RxState := .ok
  /-- F_v, the last report R_v, and the slots the partner advertised, by virtual channel -/
  freed : List Nat := [0, 0, 0, 0]
  reports : List Nat := [0, 0, 0, 0]
  slots : List Nat := [0, 0, 0, 0]
  /-- virtual channel reported next -/
  cvc : Nat := 0
  /-- message bytes received on virtual channels 0, 1 and 3, and the place in the flit of the first of them -/
  rx0 : List Byte := []
  rx1 : List Byte := []
  rx3 : List Byte := []
  pos0 : Nat := 0
  pos1 : Nat := 0
  pos3 : Nat := 0
  rx2 : List RxSlot := []
  /-- µs of the last sequenced flit in either direction -/
  used : Nat := 0
  /-- µs at which its training state was entered -/
  since : Nat := 0
  /-- partner recorded before the retrain in hand: device, system, link number -/
  partner : Option (Nat × Nat × Nat) := none
  /-- the retrain in hand has sent RESUME_OK -/
  resume : Bool := false
  /-- the lane mask of a degrade in hand, and the µs at which the link degraded -/
  lanes : Nat := 3
  degraded : Option Nat := none
  /-- the partner's nap support, as its last TRAIN flit announced it -/
  napOk : Bool := false
  /-- it asked for a nap with that interval and waits for the answer -/
  napAsked : Option Nat := none
  /-- nap: end (µs) of the interval in hand -/
  napUntil : Nat := 0
  /-- µs at which the replay timer was restarted -/
  timer : Nat := 0
  /-- uncorrectable codewords since that µs (R419) -/
  badFrom : Nat := 0
  bad : Nat := 0
  /-- a LINK_LOST exchange is awaited since that µs -/
  lostWait : Option Nat := none
  /-- value of a LINK_LOST that came before this end lost the link -/
  early : Option Nat := none
  /-- messages that were outstanding, with the sequence number of the last flit of each, and messages held for the exchange -/
  lost : List (Nat × Item) := []
  held : List Item := []
  deriving DecidableEq, Repr, Inhabited

/-- A device's entry of the link-state table (R428 to R431). -/
structure LsEntry where
  heard : Option Nat := none
  count : Nat := 0
  seq : Nat := 0
  /-- two bits per link -/
  links : Nat := 0
  devState : Nat := 0
  stale : Bool := true
  deriving DecidableEq, Repr, Inhabited

/-- A pin (R436): origin, tag, destination, virtual channel; the link it records; the µs of its last use. -/
structure Pin where
  orgSys : Nat
  org : Nat
  tag : Nat
  dstSys : Nat
  dst : Nat
  vc : Nat
  link : Nat
  used : Nat
  deriving DecidableEq, Repr

/-- A part of a command: a whole command sent on under R35, or a share of its range, served here or by another device. -/
structure Part where
  live : Bool := false
  cmd : Nat := 0
  sys : Nat := 0
  dev : Nat := 0
  /-- the whole command was forwarded -/
  whole : Bool := false
  obj : Nat := 0
  len : Nat := 0
  off : Nat := 0
  data : List Byte := []
  done : Bool := false
  status : Status := .ok
  moved : Nat := 0
  recs : List Byte := []
  util : Nat := 0
  /-- a CANCEL was sent and its acknowledgement is awaited -/
  cancelled : Bool := false
  /-- it was sent again, in place of a part whose device failed (R476) -/
  again : Bool := false
  deriving DecidableEq, Repr, Inhabited

/-- A table change sent to another device whose acknowledgement is awaited (R126, R130, R198): command tag, device, change code. -/
structure Ask where
  live : Bool := false
  cmd : Nat := 0
  dev : Nat := 0
  code : Nat := 0
  status : Option Status := none
  /-- leases revoked, of a REVOKE -/
  count : Nat := 0
  deriving DecidableEq, Repr, Inhabited

/-! ### Protection (spec/17) -/

/-- A parity delta sent and not yet acknowledged (R461, R464): its holder's position, area, stripe, µs of sending, and its message. -/
structure Delta where
  live : Bool := false
  pos : Nat := 0
  area : Nat := 0
  stripe : Nat := 0
  sent : Nat := 0
  head : Nat := 0
  body : List Byte := []
  deriving DecidableEq, Repr, Inhabited

/-- A flash stripe at its parity holder (R465): data indices whose delta has arrived, those that are dead, µs at which it began to be
pending, and whether the parity frame has been programmed. -/
structure FlashStripe where
  opened : Bool := false
  here : Nat := 0
  dead : Nat := 0
  since : Nat := 0
  closed : Bool := false
  deriving DecidableEq, Repr, Inhabited

/-- A unit's service state (R124, R527). -/
structure UnitSvc where
  /-- 0 OUT, 1 QUARANTINE, 2 WARM, 3 SERVING -/
  state : Nat := 3
  /-- tag of the UNIT_SERVICE command that waits for the unit -/
  waiting : Option Nat := none
  /-- the unit was taken out by an order, not by a failure -/
  ordered : Bool := false
  /-- the self-test of this stay in QUARANTINE has ended, with that code (0 passed) -/
  test : Option Nat := none
  /-- of a flash channel: the LUNs marked failed by the order alone (R214) -/
  marks : Nat := 0
  deriving DecidableEq, Repr, Inhabited

/-! ### Management bus (spec/18) -/

/-- A pair's bus state as the controller side sees it. -/
inductive BusState where
  | idle | busy | attention | recovering | dead
  deriving DecidableEq, Repr, Inhabited

/-- What a target is addressed for. -/
inductive BusRole where
  | none | write | read | alert
  deriving DecidableEq, Repr, Inhabited

/-- One pair: its pointer, the transfer in hand and its recovery (R485 to R488, R503 to R505). -/
structure BusPair where
  state : BusState := .idle
  pointer : Nat := 0
  role : BusRole := .none
  /-- both pointer bytes of the write in hand have come -/
  pointed : Bool := false
  /-- register (pointer of its byte 0) whose snapshot a read in hand sends from, the snapshot, and the bytes of it sent -/
  snapAt : Option Nat := none
  snap : Nat := 0
  sent : Nat := 0
  /-- register that a write in hand is filling, its bytes, and which of them have come (bit n: byte n) -/
  fillAt : Option Nat := none
  fill : Nat := 0
  got : Nat := 0
  /-- nine-clock attempts made, and waits for SCL -/
  tries : Nat := 0
  waits : Nat := 0
  deriving DecidableEq, Repr, Inhabited

/-- Attention as it is being called for (R496). -/
structure Attention where
  /-- served since a CAUSE bit last went from 0 to 1 -/
  served : Bool := true
  /-- µs of the last signal, and how long after it the next one is due -/
  last : Option Nat := none
  interval : Nat := 1000
  deriving DecidableEq, Repr, Inhabited

/-- A controller transfer in hand (R494, R495): its pair and the retries made. -/
structure BusXfer where
  pair : Nat
  retries : Nat := 0
  deriving DecidableEq, Repr

/-! ### Power, start-up and firmware (spec/19, spec/21) -/

/-- A copy of the configuration area of the SPI NOR (R507, R431). -/
structure NorConfig where
  seq : Nat
  fm : Nat
  system : Nat
  order : Nat
  hash : List Nat
  starts : Nat
  deriving DecidableEq, Repr

/-- An image slot of the SPI NOR (R529 to R531): whether it holds an image that verifies, its security version and its version. -/
structure FwSlot where
  verified : Bool := false
  svn : Nat := 0
  version : Nat := 0
  deriving DecidableEq, Repr, Inhabited

/-- An image being staged: the slot it goes to, what its check will report (PWR_FW_STAT.STATUS), and what it is. -/
structure FwStaging where
  slot : Nat
  result : Nat
  image : FwSlot
  deriving DecidableEq, Repr

/-- A start in progress (R513, R524): the step that runs, and whether DRAM is to be trained anew. -/
structure Starting where
  step : Nat
  cold : Bool
  deriving DecidableEq, Repr

/-- The device. -/
structure State where
  /-- commands that wait, first in, first out (the model's queue) -/
  pending : List Instr := []
  /-- the register store: a register that reads its reset value is not listed -/
  regs : SMap (Option Word) := []
  /-- µs since power-up, the time base of leases, silence, timers -/
  us : Nat := 0
  /-- ms at which the lease clock stopped, while the device is out of service (R522) -/
  clockStop : Option Nat := none
  /-- free values taken so far (the model's own) -/
  freeCtr : Nat := 0
  /-- what has been sent and driven (the model's own) -/
  out : List Output := []
  fns : SMap Fn := []
  coal : SMap Coal := []
  /-- a value of TEN_FM that waits for the privileged queue to fall idle (R379) -/
  fmNext : Option Nat := none
  sqs : SMap Sq := []
  cqs : SMap Cq := []
  cmds : SMap Cmd := []
  /-- the next tag, and the next place in the order of acceptance -/
  nextTag : Nat := 1
  hostMem : SMap Byte := []
  doms : SMap Dom := []
  trigs : SMap Trig := []
  /-- the batch that is firing, in firing order, and the entries due after it -/
  batch : List Due := []
  dueNext : List Due := []
  /-- DRAM installed, in GiB (R153) -/
  dramGib : Nat := 0
  extents : SMap Extent := []
  lindex : SMap (List LeaseRef) := []
  partitions : SMap (List PRange) := []
  owners : SMap (Option Who) := []
  mapDram : SMap PageEntry := []
  mapLog : List LogRec := []
  logSeq : Nat := 0
  alloc : SMap Nat := []
  oldRuns : List OldRun := []
  sectors : SMap Byte := []
  keys : SMap KeySlot := []
  volumes : SMap Volume := []
  unitRecs : SMap UnitRec := []
  frames : SMap Frame := []
  /-- frames of each flash channel (set as the flash is scanned) -/
  chFrames : Nat := 0
  flash : SMap Byte := []
  staged : SMap Staged := []
  lunFails : SMap Nat := []
  streams : SMap Stream := []
  chunks : SMap Chunk := []
  sinfo : SMap SInfo := []
  frags : SMap Frag := []
  nextFrag : Nat := 1
  chans : SMap Chan := []
  nextRun : Nat := 0
  /-- banks, by channel × 512 + rank-subchannel × 32 + bank -/
  banks : SMap Bank := []
  /-- next bank that a same-bank refresh covers, by channel × 16 + rank-subchannel -/
  refNext : SMap Nat := []
  /-- corrections attributed in the patrol period, by (channel × 16 + rank-subchannel) × 16 + device -/
  eccCount : SMap Nat := []
  urn : SMap Byte := []
  bufs : SMap Buf := []
  /-- 64-byte words of the Urn that hold an uncorrectable lane, by word number (R279) -/
  urnPoison : SMap Bool := []
  svc : SMap UnitSvc := []
  pairs : SMap Pair := []
  blendRuns : SMap BlendRun := []
  /-- what the last window fixed of each host attachment -/
  attPairs : SMap AttWindow := []
  /-- µs of the window in hand, and its length (R365) -/
  winUs : Nat := 0
  winLen : Nat := 1000
  /-- utilisation of each arbiter in the last window, as bytes (R366) -/
  loads : List Nat := []
  /-- blends committed since FLAT began, by bit -/
  flatDone : Nat := 0
  /-- the sets in force as FLAT began: they stay in force while it lasts (R359) -/
  flatSets : Nat := 0
  links : SMap Link := []
  lsTable : SMap LsEntry := []
  /-- this device's start count and the sequence of its next LINK_STATE notice -/
  lsCount : Nat := 0
  lsSeq : Nat := 0
  /-- µs of its last LINK_STATE notice -/
  lsSent : Nat := 0
  pins : List Pin := []
  parts : SMap Part := []
  nextPart : Nat := 0
  asks : SMap Ask := []
  /-- CANCELs received and not yet acknowledged: home device and system, function, epoch, tag (R413) -/
  cancels : List (Nat × Nat × Nat × Nat) := []
  /-- volume entries before their last table change, for an undo (R126) -/
  volPrev : SMap Volume := []
  /-- by device id: the device that answers for it (R467) -/
  aliases : SMap (Option Nat) := []
  /-- µs at which a member became ABSENT, by position -/
  absentAt : SMap Nat := []
  /-- size check of the JOIN last received from a device (R454) -/
  joins : SMap (Option Nat) := []
  /-- this device has sent its own JOINs and waits for the others' -/
  joining : Bool := false
  /-- positions that a JOIN of this start has not gone to yet, and its DRAM_KEPT (R478) -/
  joinDue : List Nat := []
  joinKept : Bool := false
  /-- stale parity frames of other holders (R464), and frames reported lost, by position, area and stripe -/
  dirty : SMap Bool := []
  lostFrames : SMap Bool := []
  /-- parity frames of this device that are to be computed again before it returns (R478) -/
  resync : List (Nat × Nat) := []
  /-- stripes rebuilt out of order while a rebuild runs, by area and stripe (R473) -/
  built : SMap Bool := []
  deltas : SMap Delta := []
  /-- sequence of the next delta or source to a receiver, by device -/
  deltaSeq : SMap Nat := []
  flashStripes : SMap FlashStripe := []
  /-- running parity of flash stripes, in the DRAM staging area: stripe × 65536 + byte -/
  flashPar : SMap Byte := []
  /-- stripes under LOCK and the device that locked each, by area and stripe; deltas held meanwhile (R473) -/
  locks : SMap (Option Nat) := []
  heldDeltas : List (Nat × List Byte) := []
  /-- frames received from survivors for the stripe in hand: bytes by index × 65536 + byte, and sectors received by index -/
  srcBytes : SMap Byte := []
  srcGot : SMap Nat := []
  /-- the rebuild or resync in hand has locked its stripe -/
  rebuilding : Bool := false
  /-- the copy of an evacuation has ended and accepted commands are finishing (R479) -/
  draining : Bool := false
  /-- the event log ring: 32-byte entries as numbers, by slot -/
  evRing : SMap Nat := []
  /-- the ring has opened since power-up (R536) -/
  evOpen : Bool := false
  /-- an event message was sent and no consumer has acted on CONS since (R539) -/
  evSent : Bool := false
  /-- the management bus pairs, attention, and the controller transfer in hand -/
  bus : SMap BusPair := []
  attn : Attention := {}
  xfer : Option BusXfer := none
  /-- the core is halted: a PLL that lost lock or a thermal trip waits for PWRGOOD to be deasserted (R550, R552) -/
  halted : Bool := false
  /-- VSTBY in range; straps latched: MBA [2:0], SHELF [7:3], SLOT [12:8], BIFp from bit 13 + 2p on -/
  standby : Bool := false
  straps : Nat := 0
  /-- PWRGOOD asserted and every main rail in range -/
  pwrgood : Bool := false
  /-- a start in progress -/
  starting : Option Starting := none
  /-- the standby domain's latches: FAULT_N low, THERMTRIP_N low -/
  faultN : Bool := false
  thermtrip : Bool := false
  /-- SPI_HIZ_N low: the SPI lands are released -/
  spiHiz : Bool := false
  /-- SLEEP entry waits for a bus transfer to the device to end (R510) -/
  sleepHeld : Bool := false
  /-- a wake from SLEEP has been requested (R500, R557) -/
  waking : Bool := false
  /-- the two copies of the configuration area, the image slots, the lowest security version accepted, the active slot, the slot that the next
  start boots as a trial -/
  norA : Option NorConfig := none
  norB : Option NorConfig := none
  slotA : FwSlot := {}
  slotB : FwSlot := {}
  minSvn : Nat := 0
  bootSlot : Nat := 0
  trial : Option Nat := none
  staging : Option FwStaging := none
  /-- the DIMM population of the last start (R326, R349) -/
  population : List Nat := []
  /-- place in the trace buffer of the next record (R30) -/
  twbPos : Nat := 0
  deriving DecidableEq, Repr

/-- The machine right after reset: power off, the device's own unit OUT, every register at its reset value, every table, queue and memory empty, and
in image slot A the image that it is delivered with (DESIGN CHOICE, log entry 6). -/
def State.reset : State :=
  { svc := [(393216, { state := 0 })], slotA := { verified := true, svn := 0, version := 1 } }

end Sys2Proof.Machine
end

