-- ==== Sys2Proof/Machine/Ops.lean ====
section
/-! DEFINITION. The named operations over the state: registers and their fields, memories, positions, free values, outputs. -/

namespace Sys2Proof.Machine

/-! ### Registers (R4, R7) -/

/-- The key of instance `(i, j)` of a register in the store; no two registers or instances share one. -/
def regKey (r : Reg) (i j : Nat) : Nat := ((i + j) * (i + j) + i) * 512 + r.ord

/-- The mask of a register's defined bits; every other bit is reserved and reads zero (R4). -/
def Reg.mask (r : Reg) : Nat :=
  r.spec.fields.foldl (fun n f => setBits n f.lo f.width (2 ^ f.width - 1)) 0

/-- The stored contents of a register. -/
def State.rd (s : State) (r : Reg) (i j : Nat) : Nat :=
  match s.regs.get (regKey r i j) with
  | none => r.resetValue
  | some w => w.toNat

/-- The state with a register's contents replaced, its reserved bits held at zero (R4). -/
def State.wr (s : State) (r : Reg) (i j v : Nat) : State :=
  let v := (v &&& r.mask) % 2 ^ 64
  { s with regs := s.regs.put (regKey r i j) (if v = r.resetValue then none else some (BitVec.ofNat 64 v)) }

/-- A field of a register. -/
def State.fld (s : State) (f : Fld) (i : Nat := 0) (j : Nat := 0) : Nat := bits (s.rd f.reg i j) f.lo f.width

/-- The state with one field of a register replaced. -/
def State.setFld (s : State) (f : Fld) (v : Nat) (i : Nat := 0) (j : Nat := 0) : State :=
  s.wr f.reg i j (setBits (s.rd f.reg i j) f.lo f.width v)

/-- A count that saturates at its field's all-ones value. -/
def State.bump (s : State) (f : Fld) (n : Nat := 1) (i : Nat := 0) (j : Nat := 0) : State :=
  s.setFld f (satAdd (2 ^ f.width - 1) (s.fld f i j) n) i j

/-- A count that wraps at its field's width. -/
def State.tally (s : State) (f : Fld) (n : Nat := 1) (i : Nat := 0) (j : Nat := 0) : State :=
  s.setFld f (s.fld f i j + n) i j

/-- The flag a one-bit field holds. -/
def State.flag (s : State) (f : Fld) (i : Nat := 0) (j : Nat := 0) : Bool := s.fld f i j = 1

/-! ### Identity (GLB_ID) and time -/

/-- This device's id. -/
def State.dev (s : State) : Nat := s.fld Fld.glbIdDevid

/-- This device's system number. -/
def State.sys (s : State) : Nat := s.fld Fld.glbIdSysid

/-- The lease clock in ms; it stands still while the device is out of service (R129, R522). -/
def State.ms (s : State) : Nat := s.clockStop.getD (s.us / 1000)

/-- CCLK cycles in one ms at the speed in force (R26). -/
def State.cyclesPerMs (s : State) : Nat :=
  match s.fld Fld.glbClkSpeed with
  | 0 => 1600000
  | 1 => 1400000
  | _ => 1200000

/-! ### Free values and outputs -/

/-- The next free value. -/
def State.free (s : State) : Nat := Config.freeNat s.freeCtr

/-- The state after one free value has been taken. -/
def State.tookFree (s : State) : State := { s with freeCtr := s.freeCtr + 1 }

/-- An output as a number, for the trace's hash. -/
def Output.digest : Output → Nat
  | .msix f v => 1 + 16 * (f + 256 * v)
  | .message k vc bs => 2 + 16 * (k + 2 ^ 12 * (vc + 4 * leNat bs))
  | .flit k bs => 3 + 16 * (k + 64 * leNat bs)
  | .busAck p a => 4 + 16 * (p + 2 * b2n a)
  | .busByte p b => 5 + 16 * (p + 2 * b)
  | .busHold p => 6 + 16 * p
  | .busClocks p => 7 + 16 * p
  | .busTransfer p a bs n => 8 + 16 * (p + 2 * (a + 128 * (n + 64 * leNat bs)))

/-- A capture (mode 1) or a replay (mode 2) runs (TWB_CTRL). -/
def State.tracing (s : State) (mode : Nat) : Bool := decide (s.fld Fld.twbCtrlMode = mode) && s.flag Fld.twbCtrlGo

/-- The state with one more output. While a trace runs every output folds into its hash, and a replay drives none (R31). -/
def State.emit (s : State) (o : Output) : State :=
  let s := if s.tracing 1 || s.tracing 2 then s.setFld Fld.twbOutHashHash (Config.foldOutput (s.fld Fld.twbOutHashHash) o.digest) else s
  if s.tracing 2 then s else { s with out := s.out ++ [o] }

/-! ### Memories -/

/-- The key of a byte of a function's host address space. -/
def hostKey (f addr : Nat) : Nat := f * 2 ^ 64 + addr % 2 ^ 64

/-- `n` bytes of host memory. -/
def State.hostRead (s : State) (f addr n : Nat) : List Byte := s.hostMem.getN (hostKey f addr) n

/-- The state with bytes written to host memory. -/
def State.hostWrite (s : State) (f addr : Nat) (bs : List Byte) : State :=
  { s with hostMem := s.hostMem.putN (hostKey f addr) bs }

/-- `n` bytes of the Urn. -/
def State.urnRead (s : State) (off n : Nat) : List Byte := s.urn.getN off n

/-- The state with bytes written to the Urn. -/
def State.urnWrite (s : State) (off : Nat) (bs : List Byte) : State := { s with urn := s.urn.putN off bs }

/-- The state with `n` zero bytes written to the Urn. -/
def State.urnZero (s : State) (off n : Nat) : State :=
  { s with urn := s.urn.drop fun k _ => decide (off ≤ k) && decide (k < off + n) }

/-! ### Tables by key -/

/-- The state with one function's record changed. -/
def State.modFn (s : State) (f : Nat) (g : Fn → Fn) : State := { s with fns := s.fns.upd f g }

/-- The state with one SQ's record changed. -/
def State.modSq (s : State) (q : Nat) (g : Sq → Sq) : State := { s with sqs := s.sqs.upd q g }

/-- The state with one CQ's record changed. -/
def State.modCq (s : State) (q : Nat) (g : Cq → Cq) : State := { s with cqs := s.cqs.upd q g }

/-- The state with one command's record changed. -/
def State.modCmd (s : State) (t : Nat) (g : Cmd → Cmd) : State := { s with cmds := s.cmds.upd t g }

/-- The state with one domain's record changed. -/
def State.modDom (s : State) (d : Nat) (g : Dom → Dom) : State := { s with doms := s.doms.upd d g }

/-- The state with one trigger entry changed. -/
def State.modTrig (s : State) (e : Nat) (g : Trig → Trig) : State := { s with trigs := s.trigs.upd e g }

/-- A function's record. -/
def State.fn (s : State) (f : Nat) : Fn := s.fns.get f

/-- A command's record. -/
def State.cmd (s : State) (t : Nat) : Cmd := s.cmds.get t

/-- A domain's record. -/
def State.dom (s : State) (d : Nat) : Dom := s.doms.get d

/-! ### Pour positions (spec/00, Pour time) -/

/-- A position packed into 48 bits. -/
def packPos (epoch layer tick : Nat) : Nat := epoch * 2 ^ 32 + layer * 2 ^ 16 + tick

/-- A domain's current position, packed. -/
def Dom.pos (d : Dom) : Nat := packPos d.epoch d.layer d.tick

/-- The position of the last applied update, packed. -/
def Dom.lastPos (d : Dom) : Nat := packPos d.lastEpoch d.lastLayer d.lastTick

/-- A bound deadline is missed: its domain is LIVE and at or beyond it (R52, R54). -/
def State.deadlineMissed (s : State) (dl : Deadline) : Bool :=
  let d := s.dom dl.domain
  decide (d.state = .live) && decide (packPos dl.epoch dl.layer dl.tick ≤ d.pos)

/-! ### Service states of units (R124) -/

/-- The key of a unit: class and index. -/
def unitKey (cls idx : Nat) : Nat := cls * 2 ^ 16 + idx

/-- A unit's service state: 0 OUT, 1 QUARANTINE, 2 WARM, 3 SERVING. -/
def State.unitState (s : State) (cls idx : Nat) : Nat := (s.svc.get (unitKey cls idx)).state

/-- A unit takes new work: it is WARM or SERVING. -/
def State.unitIn (s : State) (cls idx : Nat) : Bool := decide (2 ≤ s.unitState cls idx)

/-- The state with one unit's record changed. -/
def State.modUnit (s : State) (cls idx : Nat) (g : UnitSvc → UnitSvc) : State :=
  { s with svc := s.svc.upd (unitKey cls idx) g }

/-! ### The privileged function (R377) -/

/-- The function that holds the privileged queue here, if TEN_FM names one of this device. -/
def State.privFn (s : State) : Option Nat :=
  if s.flag Fld.tenFmValid && s.flag Fld.tenFmLocal then some (s.fld Fld.tenFmFunc) else none

/-- `f` is the privileged function. -/
def State.isPriv (s : State) (f : Nat) : Bool := s.privFn = some f

/-- A function counts as admitted: by its record, or as the privileged function (R377). -/
def State.admittedNow (s : State) (f : Nat) : Bool := (s.fn f).admitted || s.isPriv f

/-- The blend set that a function holds: its record's; the privileged function without a record holds all 64 (R377). -/
def State.blendsOf (s : State) (f : Nat) : Nat := if !(s.fn f).admitted && s.isPriv f then 2 ^ 64 - 1 else (s.fn f).blends

end Sys2Proof.Machine
end

