-- ==== Sys2Proof/Machine/Codec.lean ====
section
/-! DEFINITION. The page codecs and the container of spec/06 (R158 to R167): check value, LZB, EXPO and PLANE decoders, the candidates
and the choice among them. -/

namespace Sys2Proof.Machine

/-- Bytes of a logical page. -/
def pageSize : Nat := 4096

/-! ### The check value (R163) -/

/-- One bit step of the reflected CRC-32C. -/
def crcBit (c : Nat) : Nat := if c % 2 = 1 then (c / 2) ^^^ 0x82F63B78 else c / 2

/-- One byte folded into the CRC register. -/
def crcByte (c : Nat) (b : Byte) : Nat :=
  crcBit (crcBit (crcBit (crcBit (crcBit (crcBit (crcBit (crcBit (c ^^^ b.toNat))))))))

/-- CRC-32C of a list of bytes: initial value and final exclusive-or 0xFFFF_FFFF. -/
def crc32c (bs : List Byte) : Nat := (bs.foldl crcByte 0xFFFFFFFF) ^^^ 0xFFFFFFFF

/-! ### Bit streams -/

/-- The bits of a stream: stream bit j is bit (j mod 8) of byte floor(j / 8). -/
def streamBits (bs : List Byte) : List Bool := bs.flatMap fun b => (List.range 8).map fun i => b.getLsbD i

/-- The bytes of a bit list, zero bits added up to a byte boundary. -/
def packBits : List Bool → List Byte
  | a :: b :: c :: d :: e :: f :: g :: h :: r =>
    BitVec.ofNat 8 (b2n a + 2 * b2n b + 4 * b2n c + 8 * b2n d + 16 * b2n e + 32 * b2n f + 64 * b2n g + 128 * b2n h) :: packBits r
  | [] => []
  | l => [BitVec.ofNat 8 (l.foldr (fun x n => b2n x + 2 * n) 0)]

/-- The number of a bit list, first bit least significant. -/
def lsbNat : List Bool → Nat
  | [] => 0
  | b :: bs => b2n b + 2 * lsbNat bs

/-- The number of a bit list, first bit most significant. -/
def msbNat (bs : List Bool) : Nat := bs.foldl (fun n b => 2 * n + b2n b) 0

/-! ### LZB (R164) -/

/-- Extension bytes added to a code of 15: 255 is followed by another byte. The sum and the bytes left, or none at the end of
the payload. -/
def lzbExtend : Nat → List Byte → Option (Nat × List Byte)
  | _, [] => none
  | n, b :: bs => if b = 255#8 then lzbExtend (n + 255) bs else some (n + b.toNat, bs)

/-- A length code: 15 is extended. -/
def lzbLen (code : Nat) (bs : List Byte) : Option (Nat × List Byte) := if code = 15 then lzbExtend 15 bs else some (code, bs)

/-- `n` bytes copied one at a time from `off` back; the output is held newest byte first. -/
def lzbCopy (off : Nat) : Nat → List Byte → List Byte
  | 0, out => out
  | n + 1, out => lzbCopy off n (out.getD (off - 1) 0#8 :: out)

/-- Tokens decoded until the last token; the output is held newest byte first, `len` bytes of it. -/
def lzbTokens : Nat → List Byte → List Byte → Nat → Option (List Byte)
  | 0, _, _, _ => none
  | _ + 1, [], _, _ => none
  | fuel + 1, c :: bs, out, len =>
    match lzbLen (c.toNat / 16) bs with
    | none => none
    | some (l, bs) =>
      if bs.length < l || pageSize < len + l then none
      else
        let out := (bs.take l).reverse ++ out
        let bs := bs.drop l
        let len := len + l
        if len = pageSize then (if bs.isEmpty then some out else none)
        else match bs with
          | o0 :: o1 :: bs =>
            let off := o0.toNat + 256 * o1.toNat
            match lzbLen (c.toNat % 16) bs with
            | none => none
            | some (m, bs) =>
              if off = 0 || len < off || 4095 < off || pageSize < len + m + 4 then none
              else lzbTokens fuel bs (lzbCopy off (m + 4) out) (len + m + 4)
          | _ => none

/-- The page of an LZB payload; none where the stream is invalid. -/
def lzbDecode (p : List Byte) : Option (List Byte) := (lzbTokens (p.length + 1) p [] 0).map List.reverse

/-! ### EXPO (R165) -/

/-- Exponent and mantissa widths of an EXPO format. -/
def expoWidths (fmt : Nat) : Nat × Nat :=
  match fmt with
  | 0 => (8, 7)
  | 1 => (5, 10)
  | 2 => (4, 3)
  | _ => (5, 2)

/-- `n` exponents read from the exponent stream: code width `w`, base `b`, exponent width `ew`. -/
def expoCodes (w b ew : Nat) : Nat → List Bool → Option (List Nat)
  | 0, _ => some []
  | n + 1, bs =>
    if bs.length < w then none
    else
      let v := lsbNat (bs.take w)
      let bs := bs.drop w
      if v < 2 ^ w - 1 then (expoCodes w b ew n bs).map ((b + v) :: ·)
      else if bs.length < ew then none
      else (expoCodes w b ew n (bs.drop ew)).map (lsbNat (bs.take ew) :: ·)

/-- The elements of an EXPO page put together from sign bits, exponents and mantissa bits. -/
def expoJoin (ew mw bytes : Nat) : List Bool → List Nat → List Bool → List Byte
  | sg :: sgs, e :: es, ms =>
    leBytes bytes (lsbNat (ms.take mw) + e * 2 ^ mw + b2n sg * 2 ^ (mw + ew)) ++ expoJoin ew mw bytes sgs es (ms.drop mw)
  | _, _, _ => []

/-- The page of an EXPO payload of format `fmt`; none where the stream is invalid. -/
def expoDecode (fmt : Nat) (p : List Byte) : Option (List Byte) :=
  let (ew, mw) := expoWidths fmt
  let bytes := if fmt < 2 then 2 else 1
  let n := pageSize / bytes
  let b0 := (p.getD 0 0#8).toNat
  let b := (p.getD 1 0#8).toNat
  let x := leNat ((p.drop 2).take 2)
  if p.length ≠ 4 + n / 8 + x + n * mw / 8 || b0 / 4 ≠ 0 || 2 ^ ew ≤ b then none
  else
    match expoCodes (b0 % 4 + 2) b ew n (streamBits ((p.drop (4 + n / 8)).take x)) with
    | none => none
    | some es =>
      if es.any (fun e => decide (2 ^ ew ≤ e)) then none
      else some (expoJoin ew mw bytes (streamBits ((p.drop 4).take (n / 8))) es (streamBits (p.drop (4 + n / 8 + x))))

/-! ### PLANE (R166) -/

/-- One Exp-Golomb code of order 0: its value and the bits left. -/
def golomb (bs : List Bool) : Option (Nat × List Bool) :=
  let n := (bs.takeWhile (! ·)).length
  let r := bs.drop n
  if r.length < n + 1 then none else some (msbNat (r.take (n + 1)) - 1, r.drop (n + 1))

/-- Runs of a RUN plane until `n` bits are covered: the value of the next run, and whether it is the first. -/
def planeRuns : Nat → Bool → Bool → Nat → List Bool → Option (List Bool)
  | 0, _, _, _, _ => none
  | fuel + 1, v, first, n, bs =>
    if n = 0 && !first then some []
    else match golomb bs with
      | none => none
      | some (x, bs) =>
        let r := if first then x else x + 1
        if n < r then none else (planeRuns fuel (!v) false (n - r) bs).map (List.replicate r v ++ ·)

/-- The bits of one plane of `n` elements, from its mode and its coded bytes. -/
def planeBits (mode n : Nat) (bs : List Byte) : Option (List Bool) :=
  match mode with
  | 0 => if bs.isEmpty then none else planeRuns (n + 2) false true n (streamBits bs)
  | 1 => if bs.length = n / 8 then some (streamBits bs) else none
  | 2 => if bs.isEmpty then some (List.replicate n false) else none
  | _ => if bs.isEmpty then some (List.replicate n true) else none

/-- The directory of a PLANE payload: mode and length of planes b − 1 to 0. -/
def planeDir : Nat → List Byte → List (Nat × Nat)
  | 0, _ => []
  | b + 1, d =>
    let x := leNat (d.take 2)
    (x / 4096, x % 4096) :: planeDir b (d.drop 2)

/-- The planes of a payload in directory order, the first `q` of them decoded and the rest zero. -/
def planeList (n : Nat) : Nat → List (Nat × Nat) → List Byte → Option (List (List Bool))
  | _, [], _ => some []
  | q, (mode, len) :: ds, bs =>
    let here := if q = 0 then some (List.replicate n false) else planeBits mode n (bs.take len)
    match here, planeList n (q - 1) ds (bs.drop len) with
    | some h, some t => some (h :: t)
    | _, _ => none

/-- Element width of a PLANE container's PARAM. -/
def planeWidth (param : Nat) : Nat :=
  match param % 4 with
  | 0 => 1
  | 1 => 4
  | _ => 8

/-- The bits of a page interleaved from its planes, lowest plane first. -/
def planeJoin : Nat → List (List Bool) → List Bool
  | 0, _ => []
  | n + 1, ps => ps.map (fun p => p.headD false) ++ planeJoin n (ps.map List.tail)

/-- A directory entry that no rule of R166 forbids: the mode is defined, and the length is the mode's. -/
def planeEntryOk (n : Nat) (d : Nat × Nat) : Bool :=
  match d.1 with
  | 0 => decide (1 ≤ d.2)
  | 1 => decide (d.2 = n / 8)
  | 2 => decide (d.2 = 0)
  | 3 => decide (d.2 = 0)
  | _ => false

/-- The page of a PLANE payload of width `b`, from its top `q` planes; the missing planes read as zero bits (R208). -/
def planeDecode (b q : Nat) (p : List Byte) : Option (List Byte) :=
  let n := pageSize * 8 / b
  let dir := planeDir b (p.take (2 * b))
  if p.length < 2 * b || !dir.all (planeEntryOk n) || p.length ≠ 2 * b + (dir.map (·.2)).sum then none
  else (planeList n q dir (p.drop (2 * b))).map fun ps => packBits (planeJoin n ps.reverse)

/-! ### The container (R162) -/

/-- The header of a container and its payload. -/
structure Container where
  codec : Nat
  version : Nat
  param : Nat
  check : Nat
  payload : List Byte
  deriving DecidableEq, Repr

/-- The container that stored bytes hold. -/
def Container.ofBytes (bs : List Byte) : Container :=
  let h := leNat (bs.take 8)
  ⟨bits h 0 4, bits h 4 4, bits h 8 8, bits h 32 32, (bs.drop 8).take (bits h 16 16)⟩

/-- The PARAM byte holds only defined values. -/
def paramOk (codec param : Nat) : Bool :=
  match codec with
  | 2 => decide (param = 0)
  | 3 => decide (param < 4)
  | _ => decide (param < 8) && decide (param % 4 ≠ 3)

/-- The container is valid against its map entry (R162). -/
def Container.valid (c : Container) (e : PageEntry) (p : Nat) : Bool :=
  decide (c.codec = e.codec) && decide (c.version = 1) && paramOk c.codec c.param && decide (1 ≤ p) && decide (p ≤ 3832) &&
    decide (ceilDiv (8 + p) 256 = e.count + 1) && decide (c.check = e.check)

/-- The page that a payload decodes to. -/
def payloadDecode (codec param q : Nat) (p : List Byte) : Option (List Byte) :=
  match codec with
  | 2 => lzbDecode p
  | 3 => expoDecode (param % 4) p
  | 4 => planeDecode (planeWidth param) q p
  | _ => none

/-- The bytes of a container: header, payload, zero bytes up to the end of its last sector. -/
def containerBytes (codec param check : Nat) (p : List Byte) : List Byte :=
  let b := leBytes 1 (codec + 16) ++ leBytes 1 param ++ leBytes 2 p.length ++ leBytes 4 check ++ p
  b ++ zeroBytes (ceilDiv b.length 256 * 256 - b.length)

/-! ### Choosing a codec (R159, R160) -/

/-- The candidates of a hint in the order listed: codec and PARAM. -/
def candidates (hint : Nat) : List (Nat × Nat) :=
  match hint with
  | 0 => [(2, 0)]
  | 1 => [(3, 0), (2, 0)]
  | 2 => [(3, 1), (2, 0)]
  | 3 => [(3, 2), (2, 0)]
  | 4 => [(3, 3), (2, 0)]
  | 5 => [(4, 6), (2, 0)]
  | 6 => [(4, 5), (2, 0)]
  | 7 => [(4, 0), (2, 0)]
  | _ => []

/-- Sectors that a payload of `p` bytes needs. -/
def sectorsOf (p : Nat) : Nat := ceilDiv (8 + p) 256

/-- How a page is stored: codec, container PARAM, stored bytes, and whether WVERIFY found a mismatch. -/
structure Coded where
  codec : Nat
  param : Nat
  bytes : List Byte
  mismatch : Bool
  deriving DecidableEq, Repr

/-- The candidate kept: the one that needs fewer sectors, the first listed on a tie (R160). -/
def bestCandidate (page : List Byte) : List (Nat × Nat) → Option (Nat × Nat × List Byte)
  | [] => none
  | (c, a) :: rest =>
    let p := Config.encoderOut c a page
    match bestCandidate page rest with
    | none => some (c, a, p)
    | some (c', a', p') =>
      if sectorsOf p'.length < sectorsOf p.length then some (c', a', p') else some (c, a, p)

/-- A page coded under a hint (R159 to R161). -/
def codePage (hint : Nat) (verify : Bool) (page : List Byte) : Coded :=
  if allZero page then ⟨0, 0, [], false⟩
  else match bestCandidate page (candidates hint) with
    | none => ⟨1, 0, page, false⟩
    | some (c, a, p) =>
      if p.isEmpty || decide (15 < sectorsOf p.length) || decide (3832 < p.length) then ⟨1, 0, page, false⟩
      else if verify && decide (payloadDecode c a 8 p ≠ some page) then ⟨1, 0, page, true⟩
      else ⟨c, a, containerBytes c a (crc32c page) p, false⟩

end Sys2Proof.Machine
end

