-- ==== Sys2Proof/Machine/Flags.lean ====
section
/-! DEFINITION. Status flags, interrupts and the event log: MSI-X delivery (R91, R94, R384), the event log (R536 to R540), attention
(R496), the seam flags (R16, R20, R22, R24), and the image slots of the SPI NOR (R529). -/

namespace Sys2Proof.Machine

/-! ### MSI-X -/

/-- A message of vector `v` of function `f` can go out now: MSI-X enabled, Bus Master Enable set, vector unmasked. -/
def State.vectorOpen (s : State) (f v : Nat) : Bool :=
  let r := s.fn f
  r.present && r.busMaster && decide (r.resetState = 0) && r.msixEnable && !r.msixMaskAll && bit r.vecUnmasked v

/-- The vector is signalled: one message, or its pending bit where no message can go out (R91, R95, R384). -/
def State.sendVector (s : State) (f v : Nat) : State :=
  if s.vectorOpen f v then s.emit (.msix f v)
  else s.modFn f fun r => { r with pba := r.pba ||| 2 ^ v }

/-- One message for every pending vector that is now open, and the pending bits of those cleared (R384). -/
def State.flushPending (s : State) (f : Nat) : Nat → State
  | 0 => s
  | n + 1 =>
    let s := s.flushPending f n
    if bit (s.fn f).pba n && s.vectorOpen f n then
      (s.emit (.msix f n)).modFn f fun r => { r with pba := r.pba ^^^ (r.pba &&& 2 ^ n) }
    else s

/-- The key of a vector's coalescing state. -/
def coalKey (f v : Nat) : Nat := f * 64 + v

/-- Signalling a vector under coalescing clears its count of unsignalled replies and stops its timer (R95). -/
def State.signalVector (s : State) (f v : Nat) : State :=
  ({ s with coal := s.coal.put (coalKey f v) default }).sendVector f v

/-! ### The event log -/

/-- Severity of each class of spec/20's class table: 0 INFO, 1 NOTICE, 2 ERROR, 3 FATAL. -/
def evSeverity (code : Nat) : Nat :=
  if code ∈ [0x0103, 0x0202, 0x0208, 0x0303, 0x0305, 0x0308, 0x0701] then 0
  else if code ∈ [0x0102, 0x0309, 0x0407, 0x0408, 0x0409, 0x0602] then 3
  else if code ∈ [0x0104, 0x0106, 0x0108, 0x0109, 0x010B, 0x010C, 0x0301, 0x0307, 0x0402, 0x0403, 0x0405, 0x0406, 0x040A,
      0x040B, 0x040C, 0x0501, 0x0502, 0x0503, 0x0604, 0x0702, 0x0802] then 2
  else 1

/-- The attention flag of each class (the Attn column). -/
def evAttention (code : Nat) : Bool :=
  code ∈ [0x0101, 0x0102, 0x0104, 0x0106, 0x0108, 0x0109, 0x010B, 0x010C, 0x0201, 0x0209, 0x0301, 0x0306, 0x0307, 0x0309, 0x0402,
    0x0406, 0x0407, 0x0408, 0x0409, 0x040B, 0x040C, 0x0501, 0x0602, 0x0603, 0x0604, 0x0802]

/-- The 32-byte entry of the event log as a number (the entry format of spec/20). -/
def evEntry (seq cycle code kind idx detail : Nat) : Nat :=
  seq % 2 ^ 32 + (cycle % 2 ^ 48) * 2 ^ 32 + (code % 2 ^ 16) * 2 ^ 80 + evSeverity code * 2 ^ 96 + (kind % 2 ^ 8) * 2 ^ 104 +
    (idx % 2 ^ 16) * 2 ^ 112 + (detail % 2 ^ 128) * 2 ^ 128

/-- PROD minus CONS, modulo 2^32. -/
def State.evFill (s : State) : Nat :=
  (s.fld Fld.evtProdProd + 2 ^ 32 - s.fld Fld.evtConsCons) % 2 ^ 32

/-- The interrupt of R539 for an entry of that severity. -/
def State.evInterrupt (s : State) (sev : Nat) : State :=
  if s.flag Fld.evtCtrlNovec || decide (sev < s.fld Fld.evtCtrlMinSev) || s.evSent then s
  else match s.privFn with
    | none => s
    | some f => ({ s with evSent := true }).sendVector f (s.fld Fld.evtCtrlVector)

/-- Attention is pending (R496). -/
def State.attnPending (s : State) : Bool :=
  s.flag Fld.pwrMbCtrlAttnEn && decide (s.fld Fld.pwrMbAttnCause &&& s.fld Fld.pwrMbAttnMask ≠ 0) && !s.attn.served

/-- PWR_MB_STATUS.PENDING follows. -/
def State.attnShow (s : State) : State := s.setFld Fld.pwrMbStatusPending (b2n s.attnPending)

/-- A CAUSE bit is set: 0 SOFT, 1 EVENT, 2 POWER, 3 BUS; one that goes from 0 to 1 asks for attention anew (R496). -/
def State.attend (s : State) (cause : Nat) : State :=
  let old := s.fld Fld.pwrMbAttnCause
  let s := if bit old cause then s else { s with attn := { s.attn with served := false } }
  (s.setFld Fld.pwrMbAttnCause (setBits old cause 1 1)).attnShow

/-- The attention that an event with the flag raises (R496). -/
def State.evAttend (s : State) (code : Nat) : State := if evAttention code then s.attend 1 else s

/-- The ring makes room: where it is full its oldest entry is given up and counted (R537). -/
def State.evRoom (s : State) : State :=
  if s.evFill = 4096 then (s.setFld Fld.evtConsCons (s.fld Fld.evtConsCons + 1)).bump Fld.evtStatOverwritten else s

/-- A slot of the ring is written. -/
def State.ringWrite (s : State) (k e : Nat) : State := { s with evRing := s.evRing.put k e }

/-- The entry goes into the ring and PROD advances (R536). -/
def State.evPut (s : State) (code kind idx detail : Nat) : State :=
  let p := s.fld Fld.evtProdProd
  (s.ringWrite (p % 4096) (evEntry p (s.fld Fld.glbCycleCycle) code kind idx detail)).setFld Fld.evtProdProd (p + 1)

/-- One event is logged (R536, R537, R539): class code, subject kind and index, 16 detail bytes as a number. -/
def State.log (s : State) (code kind idx detail : Nat) : State :=
  if !s.evOpen then s else ((s.evRoom.evPut code kind idx detail).evInterrupt (evSeverity code)).evAttend code

/-- WRITE_IGNORED: a register write that the device ignores and logs; `src` 0 BAR0, 1 pair 0, 2 pair 1. -/
def State.logIgnored (s : State) (off src value : Nat) : State :=
  s.log 0x010A 0 0 (off % 2 ^ 32 + src * 2 ^ 32 + (value % 2 ^ 64) * 2 ^ 64)

/-- FOREIGN_FREE: what kind of object, the caller, the owner and the address or handle. -/
def State.logForeign (s : State) (what caller : Nat) (owner : Who) (addr : Nat) : State :=
  s.log 0x0206 1 caller (what + owner.fn * 2 ^ 8 + owner.dev * 2 ^ 16 + (addr % 2 ^ 64) * 2 ^ 64)

/-- TRIGGER_SKIPPED: domain, entry, action, and why: 0 rights, 1 owner reset or not admitted, 2 channel busy, 3 unit not staged. -/
def State.logSkipped (s : State) (d e action why : Nat) : State := s.log 0x0207 10 d (e + action * 2 ^ 16 + why * 2 ^ 24)

/-! ### The four seams -/

/-- A seam's degraded flag is set or cleared; a change sets CHANGED and is logged as SEAM_STATE. `n`: 0 PLT, 1 MAP, 2 BLEND, 3 RAC. -/
def State.setSeam (s : State) (n : Nat) (on : Bool) : State :=
  let old := bits (s.rd .glbSeamState 0 0) 0 4
  if bit old n = on then s
  else
    let new := setBits old n 1 (b2n on)
    let s := s.wr .glbSeamState 0 0 (setBits (setBits (s.rd .glbSeamState 0 0) 0 4 new) (8 + n) 1 1)
    s.log 0x010B 0 0 (old + new * 2 ^ 8)

/-- A seam is in its degraded state. -/
def State.seam (s : State) (n : Nat) : Bool := bit (s.rd .glbSeamState 0 0) n

/-! ### The trace (R29 to R32) -/

/-- A trace record and its payload, padded to a multiple of 16 bytes: class, source index, payload. -/
def traceRecord (cycle cls idx : Nat) (payload : List Byte) : List Byte :=
  let p := payload.take 4096
  leBytes 6 (cycle % 2 ^ 48) ++ leBytes 1 cls ++ leBytes 1 (idx % 256) ++ leBytes 2 p.length ++ leBytes 1 (b2n (decide (4096 < payload.length))) ++
    leBytes 1 (if cls = 4 then idx / 256 % 4 else 0) ++ zeroBytes 4 ++ p ++ zeroBytes ((16 - p.length % 16) % 16)

/-- A record is written at a place of the trace buffer, and counted. -/
def State.putRecord (s : State) (place : Nat) (rec : List Byte) : State :=
  let t := { s with twbPos := place + rec.length }
  (t.urnWrite (16 * s.fld Fld.twbBaseBase + place) rec).tally Fld.twbStatusRecords

/-- A record goes into the trace buffer, or stops the capture, or with WRAP goes to the buffer's start (R30). -/
def State.record (s : State) (rec : List Byte) : State :=
  let size := min (16 * s.fld Fld.twbSizeSize) (2 ^ 29 - 16 * s.fld Fld.twbBaseBase)
  if s.twbPos + rec.length ≤ size then s.putRecord s.twbPos rec
  else if s.flag Fld.twbCtrlWrap && decide (rec.length ≤ size) then (s.putRecord 0 rec).setFld Fld.twbStatusWrapped 1
  else (s.setFld Fld.twbStatusOverrun 1).setFld Fld.twbCtrlGo 0

/-- An outside input of a class arrives: 0 PCIe, 1 Woduyx, 2 flash, 3 management bus, 4 key slot load. A capture records it, or notes that its class
is left out (R32); in a replay it stands for the next record of the trace (log entry 39). -/
def State.capture (s : State) (cls idx : Nat) (payload : List Byte) : State :=
  if s.tracing 2 then s.tally Fld.twbStatusRecords
  else if !s.tracing 1 then s
  else if !bit (s.fld Fld.twbSrcMaskClass) cls then s.setFld Fld.twbStatusMasked 1
  else s.record (traceRecord (s.fld Fld.glbCycleCycle) cls idx payload)

/-- A host's write to function `f`: the bytes written. -/
def State.hostInput (s : State) (f : Nat) (bytes : List Byte) : State := s.capture 0 (s.fn f).attach bytes

/-- A write by the privileged function to its BAR0: `n` bytes of a value; `src` 0 BAR0, 1 and 2 the bus pairs, whose bytes are recorded one by one. -/
def State.fmInput (s : State) (src n value : Nat) : State := if src = 0 then s.hostInput (s.privFn.getD 0) (leBytes n value) else s

/-! ### Image slots (R529 to R531) -/

/-- The image of a slot: 0 A, 1 B. -/
def State.fwSlot (s : State) (n : Nat) : FwSlot := if n % 2 = 0 then s.slotA else s.slotB

/-- A slot's image is replaced. -/
def State.putImage (s : State) (n : Nat) (x : FwSlot) : State := if n % 2 = 0 then { s with slotA := x } else { s with slotB := x }

/-- Staging ends without an image: the slot is marked empty (R529). -/
def State.dropStaging (s : State) (status : Nat) : State :=
  match s.staging with
  | none => s
  | some g => (({ s with staging := none }).putImage g.slot {}).setFld Fld.pwrFwStatStatus status

end Sys2Proof.Machine
end

