-- ==== Sys2Proof/Machine/Operands.lean ====
section
/-! DEFINITION. The layouts that commands carry: the 64-byte entry (R82), the 32-byte reply (R85), the object address forms
(spec/01), the status codes (R105), the opcode map of spec/04. -/

namespace Sys2Proof.Machine

/-! ### The command entry (R82), held as the little-endian number of its 64 bytes -/

namespace Entry

def op (e : Nat) : Nat := bits e 0 8
def fence (e : Nat) : Bool := bit e 8
def noint (e : Nat) : Bool := bit e 9
def urgent (e : Nat) : Bool := bit e 10
def cid (e : Nat) : Nat := bits e 16 16
def blend (e : Nat) : Nat := bits e 32 6
def dlMode (e : Nat) : Nat := bits e 38 2
def qspec (e : Nat) : Nat := bits e 48 16
def deadline (e : Nat) : Nat := bits e 64 32
def object (e : Nat) : Nat := bits e 128 64
def hostBuf (e : Nat) : Nat := bits e 192 64
def length (e : Nat) : Nat := bits e 256 64
/-- `k` bytes of the entry from byte `off` on: the OPSPEC fields of spec/04. -/
def spec (e off k : Nat) : Nat := byteField e off k
/-- Bits `[lo + w - 1 : lo]` of the byte or field at `off`. -/
def specBits (e off lo w : Nat) : Nat := bits e (8 * off + lo) w

/-- Every reserved bit of the common header is zero (R79 row 4); QSPEC is reserved but on the privileged queue. -/
def headerClean (e : Nat) (priv : Bool) : Bool :=
  bits e 11 5 = 0 && bits e 40 8 = 0 && bits e 96 32 = 0 && (priv || qspec e = 0)

end Entry

/-! ### Object addresses (spec/01, Address forms) -/

namespace Addr

def sys (a : Nat) : Nat := bits a 58 6
def dev (a : Nat) : Nat := bits a 48 10
def off (a : Nat) : Nat := bits a 0 48
def vol (a : Nat) : Nat := bits a 40 18
def libOff (a : Nat) : Nat := bits a 0 40
def stream (a : Nat) : Nat := bits a 32 16
def gen (a : Nat) : Nat := bits a 24 8
def token (a : Nat) : Nat := bits a 0 24

/-- A pool address. -/
def pool (sys dev off : Nat) : Nat := sys * 2 ^ 58 + dev * 2 ^ 48 + off % 2 ^ 48
/-- A sequence address. -/
def seq (sys dev stream gen token : Nat) : Nat :=
  sys * 2 ^ 58 + dev * 2 ^ 48 + stream * 2 ^ 32 + gen * 2 ^ 24 + token % 2 ^ 24

end Addr

/-! ### Status codes (R105) -/

/-- The code of each status. -/
def Status.code : Status → Nat
  | .ok => 0x00 | .okPartial => 0x01 | .okStalePour => 0x02
  | .badOpcode => 0x10 | .badField => 0x11 | .badAlign => 0x12 | .badFormat => 0x13
  | .notOwner => 0x20 | .alreadyFree => 0x21 | .leaseExpired => 0x22 | .outOfPartition => 0x23 | .noSpace => 0x24
  | .deadlineMissed => 0x30 | .pourRegress => 0x31
  | .mediaError => 0x40 | .uncorrectable => 0x41 | .rebuilding => 0x42
  | .tenantReset => 0x50 | .aborted => 0x51 | .linkUnreachable => 0x60
  | .fmOnly => 0x70 | .notAdmitted => 0x71 | .internal => 0x7F

/-- Every status. -/
def Status.all : List Status :=
  [.ok, .okPartial, .okStalePour, .badOpcode, .badField, .badAlign, .badFormat, .notOwner, .alreadyFree, .leaseExpired,
   .outOfPartition, .noSpace, .deadlineMissed, .pourRegress, .mediaError, .uncorrectable, .rebuilding, .tenantReset, .aborted,
   .linkUnreachable, .fmOnly, .notAdmitted, .internal]

/-- The status with a code, if the table has one. -/
def Status.ofCode (n : Nat) : Option Status := Status.all.find? fun st => st.code = n

/-- A status reports an error: it is none of OK, OK_PARTIAL, OK_STALE_POUR (R55). -/
def Status.isError (st : Status) : Bool := decide (0x10 ≤ st.code)

/-! ### The opcode map (spec/04) -/

/-- Every defined opcode. -/
def opcodes : List Nat :=
  [0x00, 0x01, 0x02, 0x03, 0x04, 0x05, 0x06, 0x07, 0x08, 0x10, 0x11, 0x12, 0x13, 0x14, 0x20, 0x21, 0x22, 0x30, 0x31, 0x32, 0x33, 0x34,
   0x40, 0x41, 0x42, 0x43, 0x44, 0x50, 0x51, 0x52, 0x60, 0x61, 0x62, 0x63, 0x70, 0x71, 0x80, 0x81, 0x82, 0x83, 0x84, 0x85, 0x86]

/-- The opcode is in the opcode map. -/
def opDefined (op : Nat) : Bool := op ∈ opcodes

/-- The opcodes marked "yes" in the Deadline column. -/
def opDeadline (op : Nat) : Bool := op ∈ [0x13, 0x14, 0x20, 0x21, 0x31, 0x32, 0x40, 0x41, 0x42, 0x43, 0x44]

/-- The opcodes that use the host buffer (the HOSTBUF column), given LENGTH, which decides it for KEY_LOAD, SOPEN and VOLUME. -/
def opUsesHost (op length : Nat) : Bool :=
  op ∈ [0x00, 0x03, 0x13, 0x14, 0x20, 0x22, 0x31, 0x32, 0x42, 0x43, 0x44, 0x70] ||
    (op ∈ [0x30, 0x82, 0x86] && decide (length ≠ 0))

/-- The opcodes that move data, whose Result0 [39:0] is MOVED (R100). -/
def opMoves (op : Nat) : Bool :=
  op ∈ [0x00, 0x13, 0x14, 0x20, 0x21, 0x22, 0x31, 0x32, 0x40, 0x41, 0x42, 0x43, 0x44, 0x62]

/-- OPSPEC fields that each opcode names, as (first bit from byte 40, width); every other bit of bytes 40 to 63 is reserved (R564).
For PARTITION, ADMIT and the like the whole named byte is taken as named. -/
def opSpecFields (op cns : Nat) : List (Nat × Nat) :=
  match op with
  | 0x00 => if cns = 2 then [(0, 8), (32, 32)] else [(0, 8)]
  | 0x01 => [(0, 16), (16, 16), (32, 16)]
  | 0x02 => [(0, 16), (16, 1)]
  | 0x03 => [(0, 16), (16, 16), (32, 6), (39, 1)]
  | 0x04 => [(0, 16)]
  | 0x05 => [(0, 32)]
  | 0x08 => [(0, 16), (16, 16)]
  | 0x10 => [(0, 32), (32, 8), (48, 10), (63, 1)]
  | 0x12 => [(0, 10), (16, 8), (24, 8)]
  | 0x21 => [(0, 8)]
  | 0x22 => [(0, 1), (8, 8)]
  | 0x30 => [(0, 32), (32, 32), (64, 8), (80, 10), (95, 1)]
  | 0x31 => [(0, 1)]
  | 0x40 => [(0, 128), (128, 8)]
  | 0x41 => [(0, 64)]
  | 0x42 => [(0, 64), (64, 16), (80, 4), (88, 8), (96, 8)]
  | 0x43 => [(80, 4), (88, 8), (96, 16)]
  | 0x44 => [(0, 64), (64, 16), (80, 4), (88, 8), (96, 16), (112, 2), (128, 32)]
  | 0x50 => [(0, 32), (32, 16), (48, 2)]
  | 0x51 => [(0, 8), (8, 6), (16, 1), (64, 128)]
  | 0x52 => [(0, 16)]
  | 0x60 => [(0, 5), (7, 1)]
  | 0x62 => [(0, 64), (64, 8), (72, 8), (80, 2), (128, 64)]
  | 0x70 => [(0, 6)]
  | 0x80 => [(0, 8), (16, 8)]
  | 0x81 => [(0, 8), (16, 8), (32, 6), (39, 1), (64, 64)]
  | 0x82 => [(0, 10), (16, 8), (32, 8), (40, 1)]
  | 0x83 => [(0, 8)]
  | 0x84 => [(16, 8)]
  | 0x85 => [(0, 8), (8, 16), (24, 8)]
  | 0x86 => [(0, 8), (16, 8), (32, 18), (63, 1)]
  | _ => []

/-- TRIGGER_SET argument bits that each action's row names (spec/02, Actions), from byte 48. -/
def trigArgFields (action : Nat) : List (Nat × Nat) :=
  match action with
  | 0x01 => [(0, 64), (64, 32), (96, 8), (104, 6)]
  | 0x02 => [(0, 16)]
  | 0x03 => [(0, 16)]
  | 0x04 => [(0, 16)]
  | 0x05 => [(0, 64), (64, 8)]
  | 0x06 => [(0, 16)]
  | _ => [(0, 128)]

/-- The bits that a list of fields names. -/
def fieldMask (fs : List (Nat × Nat)) : Nat := fs.foldl (fun n f => setBits n f.1 f.2 (2 ^ f.2 - 1)) 0

/-- The reserved-bit check of R564: every OPSPEC bit that the opcode does not name is zero. -/
def opSpecClean (e : Nat) : Bool :=
  let op := Entry.op e
  let sp := byteField e 40 24
  let m := fieldMask (opSpecFields op (Entry.spec e 40 1))
  let rest := sp - (sp &&& m)
  decide (rest = 0) &&
    (op ≠ 0x51 ||
      (let a := byteField e 48 16
       decide (a - (a &&& fieldMask (trigArgFields (Entry.spec e 40 1))) = 0)))

/-- Opcodes whose OBJECT column of the opcode map is 0. -/
def objZero : List Nat :=
  [0x00, 0x01, 0x02, 0x03, 0x04, 0x06, 0x08, 0x52, 0x60, 0x70, 0x71, 0x81, 0x82, 0x83, 0x85]

/-- Opcodes whose HOSTBUF column is 0. -/
def hostZero : List Nat :=
  [0x01, 0x02, 0x04, 0x05, 0x06, 0x07, 0x08, 0x10, 0x11, 0x12, 0x21, 0x33, 0x34, 0x40, 0x41, 0x50, 0x51, 0x52, 0x60, 0x61, 0x62, 0x63,
   0x71, 0x80, 0x81, 0x83, 0x84, 0x85]

/-- Opcodes whose LENGTH column is 0. -/
def lengthZero : List Nat :=
  [0x01, 0x02, 0x03, 0x04, 0x05, 0x07, 0x08, 0x11, 0x12, 0x33, 0x34, 0x50, 0x51, 0x52, 0x60, 0x61, 0x62, 0x63, 0x71, 0x81, 0x83, 0x84,
   0x85]

/-- OBJECT, HOSTBUF and LENGTH are as the opcode map fixes them; any other value is outside the field's range (DEDUCED, log entry 32). -/
def mapFields (e : Nat) : Bool :=
  let op := Entry.op e
  (decide (op ∉ objZero) || decide (Entry.object e = 0)) && (decide (op ∉ hostZero) || decide (Entry.hostBuf e = 0)) &&
    (decide (op ∉ lengthZero) || decide (Entry.length e = 0)) && (decide (op ≠ 0x00) || decide (Entry.length e = 4096))

/-- The checks that every opcode meets first at row 6 of R79: the reserved bits of R564, then R102, then the fields that the opcode map
fixes. -/
def rowSix (e : Nat) : Option Status :=
  if !opSpecClean e then some .badField
  else if !mapFields e then some .badField
  else if !opDeadline (Entry.op e) && (decide (Entry.dlMode e ≠ 0) || decide (Entry.deadline e ≠ 0)) then some .badField
  else none

/-- The range rules of R103 and R228 for groups 0x1_, 0x2_, 0x4_ and the stream opcodes: multiples of 64 bytes, LENGTH not 0 and at
most 1 GiB where the rules say so. -/
def rangeRules (e : Nat) : Option Status :=
  let op := Entry.op e
  let n := Entry.length e
  let list := op = 0x44 && Entry.specBits e 54 0 1 = 1
  if decide (op ∈ [0x13, 0x14, 0x20, 0x21, 0x22, 0x40, 0x41, 0x42, 0x43, 0x44]) && !list &&
      (decide (Entry.object e % 64 ≠ 0) || decide (n % 64 ≠ 0) ||
        (decide (op = 0x41 ∨ op = 0x42) && decide (Entry.spec e 40 8 % 64 ≠ 0))) then some .badAlign
  else if decide (op ∈ [0x13, 0x14, 0x20, 0x21, 0x22, 0x31, 0x32, 0x40, 0x41, 0x42, 0x43, 0x44]) && decide (n = 0) then some .badField
  else if decide (op ∈ [0x13, 0x14, 0x20, 0x22, 0x31, 0x32]) && decide (2 ^ 30 < n) then some .badField
  else none

/-- Stripe units that an entry of the library group touches. -/
def libUnits (e : Nat) : Nat :=
  let o := Addr.libOff (Entry.object e)
  (o + Entry.length e - 1) / 65536 - o / 65536 + 1

/-! ### The reply entry (R85) -/

/-- The 32 bytes of a reply, with what is filled in as it is written: phase, the SQ's head and the pour position. -/
def replyBytes (r : Reply) (phase : Bool) (sqHead pourPos : Nat) : List Byte :=
  leBytes 2 r.cid ++ leBytes 1 r.status.code ++
  leBytes 1 (b2n phase + 2 * b2n r.part + 4 * b2n r.decaf) ++
  leBytes 1 r.load ++ leBytes 1 r.pace ++ leBytes 2 sqHead ++
  leBytes 8 r.result0 ++ leBytes 8 r.result1 ++ leBytes 8 (pourPos % 2 ^ 48)

/-- The position a reply reports for a function: its domain's, zero if it has none or the domain is OFF (R85, R52). -/
def State.replyPos (s : State) (f : Nat) : Nat :=
  match (s.fn f).domain with
  | none => 0
  | some d => if (s.dom d).state = .off then 0 else (s.dom d).pos

/-! ### Results -/

/-- What a command's work answers. -/
structure Res where
  status : Status := .ok
  r0 : Nat := 0
  r1 : Nat := 0
  part : Bool := false
  deriving DecidableEq, Repr, Inhabited

/-- A refusal: no data moved, both result words zero. -/
def Res.err (st : Status) : Res := { status := st }

/-- The result of a command that moved a prefix of the bytes it asked for (R100, R101). -/
def Res.moved (st : Status) (moved asked : Nat) (r1 : Nat := 0) : Res :=
  { status := st, r0 := moved, r1 := r1, part := decide (moved < asked) }

/-- The status that R55 and R52 report: OK becomes OK_STALE_POUR where a deadline mode was set and the domain is STALE. -/
def State.finalStatus (s : State) (c : Cmd) (st : Status) : Status :=
  match st, c.deadline with
  | .ok, some dl => if (s.dom dl.domain).state = .stale then .okStalePour else .ok
  | st, _ => st

/-- The command's work has ended with that result; its reply is due once the parity deltas sent so far have been answered (R461). -/
def State.finish (s : State) (tag : Nat) (r : Res) : State :=
  s.modCmd tag fun c =>
    { c with
      stage := .done
      mark := s.nextPart
      reply := { sq := c.sq, cid := Entry.cid c.entry, status := s.finalStatus c r.status, part := r.part, result0 := r.r0, result1 := r.r1,
                 noint := Entry.noint c.entry, urgent := Entry.urgent c.entry, fn := c.fn,
                 blend := Entry.blend c.entry, since := c.since } }

/-! ### Urn handles (R107, R108, R277) -/

/-- The buffer that a handle names now: its index, or why it names none (R107, R108, R277). -/
def State.bufOf (s : State) (f h : Nat) : Except Status Nat :=
  let idx := h % 2 ^ 16
  let gen := bits h 16 8
  let b := s.bufs.get idx
  if 2 ^ 24 ≤ h then .error .badField
  else if !b.named && decide (b.resetBy = some (f, gen)) then .error .tenantReset
  else if !b.named || decide (b.gen ≠ gen) then .error .alreadyFree
  else if b.owner ≠ f then .error .notOwner
  else .ok idx

/-- The Urn buffer that an entry of function `f` names by handle: PSCAN with QURN, DSTART with location 0. -/
def State.entryBuf (s : State) (f e : Nat) : Option (Except Status Nat) :=
  if Entry.op e = 0x44 ∧ Entry.specBits e 54 1 1 = 1 then some (s.bufOf f (Entry.spec e 40 8))
  else if Entry.op e = 0x62 ∧ Entry.spec e 49 1 = 0 then some (s.bufOf f (Entry.spec e 56 8))
  else none

end Sys2Proof.Machine
end

