-- ==== Sys2Proof/Machine/Credit.lean ====
section
/-! DEFINITION. The budget arithmetic of spec/13: shares (R361), credits and tiers (R362, R363), what a charge covers (R360), PACE (R367),
LOAD (R366), the window's counts. -/

namespace Sys2Proof.Machine

/-- The device's own account (R360). -/
def deviceAccount : Nat := 256
/-- The key of a pair. -/
def pairKey (a b : Nat) : Nat := a * 64 + b
/-- No rate: 0xFFFF_FFFF. -/
def noRate : Nat := 2 ^ 32 - 1
/-- The floor of a credit. -/
def creditFloor : Int := -(2 ^ 47)

/-- A pair of account and blend. -/
def State.pair (s : State) (a b : Nat) : Pair := s.pairs.get (pairKey a b)

/-- The state with one pair changed. -/
def State.modPair (s : State) (a b : Nat) (g : Pair → Pair) : State := { s with pairs := s.pairs.upd (pairKey a b) g }

/-- The state with the running counts of a blend changed. -/
def State.modRun (s : State) (b : Nat) (g : BlendRun → BlendRun) : State := { s with blendRuns := s.blendRuns.upd b g }

/-- The set in force for a blend: the one of BLD_ACTIVE, or while the table is FLAT the one in force as FLAT began (R359). -/
def State.blendSet (s : State) (b : Nat) : Bool := bit (if s.seam 2 then s.flatSets else s.fld Fld.bldActiveSet) b

/-- Guaranteed rate of the set in force. -/
def State.guarOf (s : State) (b : Nat) : Nat := if s.blendSet b then s.fld Fld.bldGuar1Mbps b else s.fld Fld.bldGuar0Mbps b

/-- Limit of the set in force. -/
def State.limitOf (s : State) (b : Nat) : Nat := if s.blendSet b then s.fld Fld.bldLimit1Mbps b else s.fld Fld.bldLimit0Mbps b

/-- n_b of the last window, at least 1 (R361). -/
def State.accountsIn (s : State) (b : Nat) : Nat := max 1 (s.fld Fld.bldWinStateActive b)

/-- The attachment term of an account's limit share: none where it has no limit or the account is the device's (R361); a change of the limit
applies at the next window end (R372). -/
def State.attachShare (s : State) (a : Nat) : Option Nat :=
  let w := s.attPairs.get (s.fn a).attach
  if a = deviceAccount ∨ w.limit = noRate then none else some (w.limit / max 1 w.pairs)

/-- The guarantee share g (R361). -/
def State.shareG (s : State) (b : Nat) : Nat := s.guarOf b / s.accountsIn b

/-- The limit share l, none where it is unlimited (R361). -/
def State.shareL (s : State) (a b : Nat) : Option Nat :=
  let t := if s.limitOf b = noRate then none else some (s.limitOf b / s.accountsIn b)
  match t, s.attachShare a with
  | none, none => none
  | some x, none => some (max 64 x)
  | none, some y => some (max 64 y)
  | some x, some y => some (max 64 (min x y))

/-- The cap of a credit whose share is `r`. -/
def State.creditCap (s : State) (r : Nat) : Int := r * clamp 1 1000 (s.fld Fld.bldCtrlBurstUs)

/-- The pair with both credits at their caps. -/
def State.atCaps (s : State) (a b : Nat) (p : Pair) : Pair :=
  { p with cg := s.creditCap (s.shareG b), cl := (s.shareL a b).elim 0 s.creditCap, finite := (s.shareL a b).isSome }

/-- A share change: credits are clamped to their caps, and a limit share that becomes finite starts at its cap (R359, R362). -/
def State.clampPair (s : State) (a b : Nat) (p : Pair) : Pair :=
  let p := { p with cg := min p.cg (s.creditCap (s.shareG b)) }
  match s.shareL a b with
  | none => { p with finite := false }
  | some l => { p with cl := if p.finite then min p.cl (s.creditCap l) else s.creditCap l, finite := true }

/-- Every pair of a blend is clamped to its present shares. -/
def State.clampBlend (s : State) (b : Nat) : State :=
  { s with pairs := s.pairs.map fun e => if e.1 % 64 = b then (e.1, s.clampPair (e.1 / 64) b e.2) else e }

/-- Accrual and restoration of one pair at a µs (R362). -/
def State.accrue (s : State) (a b : Nat) (p : Pair) : Pair :=
  let g := s.shareG b
  let p := { p with cg := min (p.cg + g) (s.creditCap g) }
  match s.shareL a b with
  | none => { p with dec := false }
  | some l =>
    let cap := s.creditCap l
    let cl : Int := min (p.cl + (l : Int)) cap
    { p with cl := cl, dec := p.dec && decide (1000 * cl < cap * clamp 1 1000 (s.fld Fld.bldDecafRestorePm)) }

/-- The tier of a charge, and the pair with its dec bit as the charge leaves it (R362, R370). -/
def State.tierAt (s : State) (a b : Nat) (p : Pair) : Nat × Pair :=
  if s.seam 2 then (1, { p with dec := false })
  else if p.dec || ((s.shareL a b).isSome && decide (p.cl ≤ 0)) then
    (2, { p with dec := true, demotions := if p.dec then p.demotions else satAdd 65535 p.demotions 1 })
  else if 0 < p.cg then (0, p)
  else (1, p)

/-- One charge of `x` bytes to account `a` in blend `b`: the state after it, and the tier of the work (R360 to R363). -/
def State.chargeWork (s : State) (a b x : Nat) : State × Nat :=
  let p := s.pair a b
  let p := if p.live then p else { s.atCaps a b p with live := true }
  let (t, q) := s.tierAt a b p
  let demoted := q.dec && !p.dec
  let q := { q with cg := max (q.cg - x) creditFloor, cl := if (s.shareL a b).isSome then max (q.cl - x) creditFloor else q.cl,
                    runBytes := q.runBytes + x, runReqs := q.runReqs + 1, bytes := q.bytes + x, reqs := q.reqs + 1 }
  let s := s.modPair a b fun _ => q
  let s := if demoted then s.bump Fld.bldDemotedCount 1 b else s
  let s := s.modRun b fun r => { r with bytes := r.bytes + x, charges := r.charges + 1 }
  ((s.tally Fld.bldTotalBytesBytes x b).tally Fld.bldTotalReqsCharges 1 b, t)

/-- Bytes that a command is charged for: LENGTH for groups 0x1_ to 0x4_, the sum of the list for a PSCAN with LIST, else 0 (R360). -/
def State.chargeBytes (s : State) (f e : Nat) : Nat :=
  let op := Entry.op e
  let n := Entry.length e
  if op = 0x44 ∧ Entry.specBits e 54 0 1 = 1 then
    ((List.range (min 4096 (n / 16))).map fun i => leNat (s.hostRead f (Entry.object e + 16 * i + 8) 8)).sum
  else if 0x10 ≤ op ∧ op < 0x50 then n else 0

/-- The charge of an accepted command of function `f`; its tier is fixed (R355, R360). -/
def State.charge (s : State) (tag f e : Nat) : State :=
  let (s, t) := s.chargeWork f (Entry.blend e) (s.chargeBytes f e)
  s.modCmd tag fun c => { c with tier := t }

/-- Work-order bytes completed are counted in their blend's window (BLD_WIN_DONE). -/
def State.countDone (s : State) (b n : Nat) : State := s.modRun b fun r => { r with done := r.done + n }

/-- A reply of a command is counted in its blend's window; `took` is its time in µs (R365, R368). -/
def State.countReply (s : State) (b took : Nat) : State :=
  let late := decide (max 1 (s.fld Fld.bldCfgLatNs b) < 1000 * took)
  s.modRun b fun r => { r with replies := r.replies + 1, overs := r.overs + b2n late }

/-- The PACE code of a rate: the largest m × 2^e × 64 not above it, with the smaller e on a tie (R93, R367); 0 where unlimited. The code
holds m in [4:0] and e in [7:5]. -/
def paceOf (l : Option Nat) : Nat :=
  match l with
  | none => 0
  | some r =>
    if 253952 ≤ r then 0xFF
    else
      let best := (List.range 8).foldl (fun (b : Nat × Nat) e =>
        let m := min 31 (r / (64 * 2 ^ e))
        let v := m * 2 ^ e * 64
        if b.1 < v then (v, e * 32 + m) else b) (0, 1)
      best.2

/-- PACE of a reply (R367, R370). -/
def State.pace (s : State) (f b : Nat) : Nat :=
  if s.seam 2 then paceOf ((s.attachShare f).map (max 64)) else paceOf (s.shareL f b)

/-- LOAD of a reply (R366): work with no data plane takes the host attachment's egress arbiter, numbered 401 and on; which arbiters the other
work passed the spec leaves to the units chosen, so one of the window's values is taken freely. -/
def State.loadHint (s : State) (f op : Nat) : Nat :=
  if opMoves op then s.loads.getD (s.free % max 1 s.loads.length) 0 else s.loads.getD (401 + (s.fn f).attach) 0

end Sys2Proof.Machine
end

