-- ==== Sys2Proof/Machine/Wire.lean ====
section
/-! DEFINITION. What goes over a link, to the bit (spec/15): the flit (R399), the message header (R409), control slots (R412), the routed
envelope (R439). -/

namespace Sys2Proof.Machine

/-! ### CRC-64 (R399) -/

/-- One bit of the reflected ECMA-182 CRC. -/
def crc64Bit (c : Nat) : Nat := if c % 2 = 1 then (c / 2) ^^^ 0xC96C5795D7870F42 else c / 2

/-- One byte of it. -/
def crc64Byte (c : Nat) (b : Byte) : Nat :=
  crc64Bit (crc64Bit (crc64Bit (crc64Bit (crc64Bit (crc64Bit (crc64Bit (crc64Bit (c ^^^ b.toNat))))))))

/-- CRC-64 of a byte string, initial value and final exclusive-or all ones. -/
def crc64 (bs : List Byte) : Nat := bs.foldl crc64Byte (2 ^ 64 - 1) ^^^ (2 ^ 64 - 1)

/-! ### The flit header (R399) -/

/-- The fields of a flit header. -/
structure FlitHead where
  seq : Nat
  ack : Nat
  nak : Bool
  typ : Nat
  vc : Nat
  cvc : Nat
  ccount : Nat
  deriving DecidableEq, Repr

/-- The header word. -/
def FlitHead.word (h : FlitHead) : Nat :=
  h.seq % 4096 + h.ack % 4096 * 2 ^ 12 + b2n h.nak * 2 ^ 24 + h.typ % 8 * 2 ^ 25 + h.vc % 4 * 2 ^ 28 + h.cvc % 4 * 2 ^ 30 +
    h.ccount % 1024 * 2 ^ 32

/-- The fields of a header word. -/
def FlitHead.of (n : Nat) : FlitHead :=
  { seq := bits n 0 12, ack := bits n 12 12, nak := bit n 24, typ := bits n 25 3, vc := bits n 28 2, cvc := bits n 30 2, ccount := bits n 32 10 }

/-- The header is well formed: a defined TYPE, a VC that matches it, reserved bits zero (R399, R400). -/
def flitHeadOk (n : Nat) : Bool :=
  let h := FlitHead.of n
  bits n 42 22 = 0 &&
    (match h.typ with
     | 1 => decide (h.vc ≠ 2)
     | 2 => decide (h.vc = 2)
     | 0 => decide (h.vc = 0)
     | 3 => decide (h.vc = 0)
     | 4 => decide (h.vc = 0)
     | _ => false)

/-- The 256 bytes of a flit. -/
def flitBytes (h : FlitHead) (payload : List Byte) : List Byte :=
  let b := leBytes 8 h.word ++ (payload ++ zeroBytes (240 - payload.length)).take 240
  b ++ leBytes 8 (crc64 b)

/-! ### Messages (R409, R410) -/

/-- The 16-byte message header. -/
structure MsgHead where
  dev : Nat := 0
  sys : Nat := 0
  orgDev : Nat := 0
  orgSys : Nat := 0
  kind : Nat := 0
  blend : Nat := 0
  tier : Nat := 0
  /-- body length in 16-byte units -/
  len : Nat := 0
  tag : Nat := 0
  fn : Nat := 0
  epoch : Nat := 0
  devwork : Bool := false
  detour : Bool := false
  /-- its command is boosted at this device's arbiters (R364); the header does not carry it -/
  lift : Bool := false
  deriving DecidableEq, Repr

/-- The header's bytes. -/
def MsgHead.bytes (h : MsgHead) : List Byte :=
  leBytes 2 (h.dev % 1024 + h.sys % 64 * 1024) ++ leBytes 2 (h.orgDev % 1024 + h.orgSys % 64 * 1024) ++ leBytes 1 h.kind ++
    leBytes 1 (h.blend % 64 + h.tier % 4 * 64) ++ leBytes 2 (h.len % 512) ++ leBytes 2 h.tag ++ leBytes 1 h.fn ++ leBytes 1 h.epoch ++
    leBytes 1 (b2n h.devwork + 2 * b2n h.detour) ++ zeroBytes 3

/-- The header of a message's bytes. -/
def MsgHead.of (bs : List Byte) : MsgHead :=
  let n := leNat (bs.take 16)
  { dev := bits n 0 10, sys := bits n 10 6, orgDev := bits n 16 10, orgSys := bits n 26 6, kind := bits n 32 8, blend := bits n 40 6,
    tier := bits n 46 2, len := bits n 48 9, tag := bits n 64 16, fn := bits n 80 8, epoch := bits n 88 8, devwork := bit n 96,
    detour := bit n 97 }

/-- A body filled up to whole 16-byte units. -/
def padBody (bs : List Byte) : List Byte := bs ++ zeroBytes ((16 - bs.length % 16) % 16)

/-- The body of a message's bytes. -/
def msgBody (bs : List Byte) : List Byte := (bs.drop 16).take (16 * (MsgHead.of bs).len)

/-- The virtual channel of a message kind (R410). -/
def kindVc (k : Nat) : Nat := if k < 0x10 then 0 else if k < 0x30 then 1 else 3

/-! ### Notices (R412, R414, R439) -/

/-- Recovery-class slot kinds (R412). -/
def recoveryKind (k : Nat) : Bool := k ∈ [0x02, 0x03, 0x04, 0x05, 0x08, 0x09, 0x0A]

/-- A slot's 16 bytes. -/
def slot16 (bs : List Byte) : List Byte := (bs ++ zeroBytes 16).take 16

/-- The payload of a CTRL flit that carries one notice: its kinds, then its slots (R412). -/
def ctrlPayload (kind : Nat) (body : List Byte) : List Byte :=
  let n := body.length / 16
  let kinds := (leBytes 1 kind ++ List.replicate (n - 1) 0x0F#8 ++ zeroBytes 14).take 14
  kinds ++ zeroBytes 2 ++ body

/-- The slots of a CTRL flit's payload that hold something, in order. -/
def ctrlSlots (p : List Byte) : List (Nat × List Byte) :=
  ((List.range 14).map fun i => ((p.getD i 0#8).toNat, (p.drop (16 + 16 * i)).take 16)).filter fun x => x.1 ≠ 0

/-- A notice wrapped for a device that is not the link partner (R439). -/
def envelope (dstSys dst orgSys org kind : Nat) (detour cross : Bool) (body : List Byte) : List Byte :=
  slot16 (leBytes 1 1 ++ leBytes 1 (b2n detour + 2 * b2n cross) ++ leBytes 2 (dst % 1024 + dstSys * 1024) ++
    leBytes 2 (org % 1024 + orgSys * 1024) ++ leBytes 1 kind ++ leBytes 1 (body.length / 16)) ++ body

/-- Device and system of a 16-bit name. -/
def nameBytes (dev sys : Nat) : List Byte := leBytes 2 (dev % 1024 + sys % 64 * 1024)

end Sys2Proof.Machine
end

