-- ==== Sys2Proof/Machine/Routes.lean ====
section
/-! DEFINITION. Routing (spec/16): wiring (R425), the link-state table (R428, R430), default routes and detours (R432 to R435), gateways
(R441), the escape rule (R438). -/

namespace Sys2Proof.Machine

/-! ### Wiring (R424, R425) -/

/-- In-shelf links, 0 to 30. -/
def inShelf (k : Nat) : Bool := decide (k ≤ 30)

/-- Cross-shelf links, 31 to 61. -/
def crossShelf (k : Nat) : Bool := decide (31 ≤ k) && decide (k ≤ 61)

/-- The link of device `x` whose partner is `y`, where they are wired together. -/
def linkNo (x y : Nat) : Option Nat :=
  let sx := x / 32
  let sy := y / 32
  let tx := x % 32
  let ty := y % 32
  if x = y then none
  else if sx = sy then some (if ty < tx then ty else ty - 1)
  else if tx = ty then some (31 + (if sy < sx then sy else sy - 1))
  else none

/-- The device at the other end of link `k` of device `x` (R425), for links 0 to 61. -/
def wiredTo (x k : Nat) : Nat :=
  let s := x / 32
  let t := x % 32
  if k ≤ 30 then 32 * s + (if k < t then k else k + 1)
  else
    let j := k - 31
    32 * (if j < s then j else j + 1) + t

/-! ### Names of devices and functions (R127) -/

/-- A device as Who and LeaseRef hold it: its id, or for one of another system that and 1024 times the system and one. -/
def State.devName (s : State) (sys dev : Nat) : Nat := if sys = s.sys then dev else dev + 1024 * (sys + 1)

/-- The system of a device held so. -/
def State.sysOf (s : State) (d : Nat) : Nat := if d < 1024 then s.sys else d / 1024 - 1

/-- The 16-bit name (device [9:0], system [15:10]) of a function's home device, as a device of system `sys` holds it. -/
def Who.name (w : Who) (sys : Nat) : Nat := if w.dev < 1024 then w.dev + 1024 * sys else w.dev - 1024

/-- A function by the 16-bit name of its home device. -/
def State.whoNamed (s : State) (name fn : Nat) : Who := ⟨s.devName (name / 1024) (name % 1024), fn⟩

/-! ### The link-state table (R428, R430) -/

/-- Link `k` is usable: WARM or SERVING, and ACTIVE (R428). -/
def State.linkUsable (s : State) (k : Nat) : Bool := s.unitIn 3 k && decide (s.fld Fld.wlkStateTstate k = 5)

/-- The state of link `k` of this device as the table gives it: 0, 1 on two lanes, 2 on one lane. -/
def State.ownLink (s : State) (k : Nat) : Nat :=
  if s.linkUsable k then (if s.fld Fld.wlkStateLanes k = 3 then 1 else 2) else 0

/-- The state of link `k` of device `d`, 0 where the device is treated as OUT (R428, R430). -/
def State.linkAt (s : State) (d k : Nat) : Nat :=
  if d = s.dev then s.ownLink k
  else if (s.lsTable.get d).stale then 0 else bits (s.lsTable.get d).links (2 * k) 2

/-- Device `d` is WARM or SERVING (R450); of a device whose notices have not come, nothing is known and its direct link decides. -/
def State.devIn (s : State) (d : Nat) : Bool :=
  if d = s.dev then s.unitIn 6 0
  else let e := s.lsTable.get d; !e.stale && decide (2 ≤ e.devState)

/-- A device may be sent messages of VC 0, 1 or 3: it is not known to be out of service (R430, R450). -/
def State.devTakes (s : State) (d : Nat) : Bool :=
  d = s.dev || s.devIn d || ((s.lsTable.get d).heard = none)

/-! ### Routes (R432 to R435) -/

/-- A route: devices left, each with the link taken. -/
abbrev Route := List (Nat × Nat)

/-- One hop from `x` to `y`, where they are wired together. -/
def hop (x y : Nat) : Option (Nat × Nat) := (linkNo x y).map fun k => (x, k)

/-- The route from `x` to `b` by way of `i`. -/
def viaRoute (x i b : Nat) : Option Route :=
  match hop x i, hop i b with
  | some p, some q => some [p, q]
  | _, _ => none

/-- The default route, `order` 0 cross first, 1 in-shelf first (R432). -/
def defaultRoute (order x b : Nat) : Option Route :=
  if x = b then some []
  else match hop x b with
    | some p => some [p]
    | none => viaRoute x (if order = 0 then 32 * (b / 32) + x % 32 else 32 * (x / 32) + b % 32) b

/-- Every link of a route is usable in this device's table, and every device between its ends is in service (R433, R450). -/
def State.routeOk (s : State) (r : Route) : Bool :=
  (r.all fun h => decide (s.linkAt h.1 h.2 ≠ 0)) && (r.drop 1).all fun h => s.devIn h.1

/-- ORDER in force. -/
def State.order (s : State) : Nat := s.fld Fld.wlkRtCtrlOrder

/-- Detour candidates towards `b`: the intermediate's link here, the route beyond it, and its weight; `short` asks for one hop beyond
(R435). -/
def State.candidates (s : State) (b : Nat) (short : Bool) : List (Nat × Route × Nat) :=
  (List.range 62).filterMap fun k =>
    let i := wiredTo s.dev k
    if i = b || decide (1024 ≤ i) || !s.devIn i then none
    else match defaultRoute s.order i b with
      | none => none
      | some r =>
        let all := (s.dev, k) :: r
        if (short && decide (r.length ≠ 1)) || r.any (fun h => h.1 = s.dev) || !s.routeOk all then none
        else some (k, all, if all.all fun h => s.linkAt h.1 h.2 = 1 then 2 else 1)

/-- The candidate that covers a position counted through the weights. -/
def coverAt : List (Nat × Route × Nat) → Nat → Option Route
  | [], _ => none
  | (_, r, w) :: cs, p => if p < w then some r else coverAt cs (p - w)

/-- The detour from this device to `b` for a message from `org` (R435). -/
def State.detour (s : State) (org b : Nat) (short : Bool) : Option Route :=
  let cs := s.candidates b short
  let w := (cs.map fun c => c.2.2).sum
  if w = 0 then none else coverAt cs ((org + b) % w)

/-- What a route choice gives: the link, the hops that remain beyond its receiver, and whether DETOUR is to be set. -/
structure Choice where
  link : Nat
  hops : Nat
  detour : Bool
  deriving DecidableEq, Repr

/-- The choice a route makes. -/
def choiceOf (r : Route) (d : Bool) (extra : Nat) : Option Choice :=
  match r with
  | [] => none
  | (_, k) :: rest => some ⟨k, min 6 (rest.length + extra), d⟩

/-- The route of a message that starts here (R433): the default, the other order, a detour; else a napping link it waits for (R449). -/
def State.routeFrom (s : State) (b extra : Nat) : Option Choice :=
  let d := defaultRoute s.order s.dev b
  let o := defaultRoute (1 - s.order) s.dev b
  let ok := fun (r : Option Route) => r.any s.routeOk
  if ok d then choiceOf (d.getD []) false extra
  else if ok o then choiceOf (o.getD []) true extra
  else match s.detour s.dev b false with
    | some r => choiceOf r true extra
    | none =>
      match d with
      | some ((x, k) :: rest) => if s.fld Fld.wlkStateTstate k = 6 ∧ s.unitIn 3 k then choiceOf ((x, k) :: rest) false extra else none
      | _ => none

/-- The route of a message that passes through (R434); one that no other route is left for waits for a napping link (R449). -/
def State.routeOn (s : State) (org b : Nat) (detoured : Bool) (extra : Nat) : Option Choice :=
  match defaultRoute s.order s.dev b with
  | some ((x, k) :: rest) =>
    if s.linkAt x k ≠ 0 then choiceOf ((x, k) :: rest) detoured extra
    else match (if detoured then none else s.detour org b true) with
      | some r => choiceOf r true extra
      | none => if s.fld Fld.wlkStateTstate k = 6 ∧ s.unitIn 3 k then choiceOf ((x, k) :: rest) detoured extra else none
  | _ => none

/-- The gateway towards another system: device and link (R441). -/
def State.gateway (s : State) (sys : Nat) : Option (Nat × Nat) :=
  let ok := fun (v g l : Nat) =>
    if v = 1 ∧ s.devIn g = true ∧ s.linkAt g (62 + l) ≠ 0 then some (g, 62 + l) else none
  match ok (s.fld Fld.wlkFedValid0 sys) (s.fld Fld.wlkFedGw0 sys) (s.fld Fld.wlkFedLink0 sys) with
  | some g => some g
  | none => ok (s.fld Fld.wlkFedValid1 sys) (s.fld Fld.wlkFedGw1 sys) (s.fld Fld.wlkFedLink1 sys)

/-- Where no gateway can be taken, the link of this device's own that WLK_FED names and that naps: a message waits for its wake (R449). -/
def State.napGateway (s : State) (sys : Nat) : Option (Nat × Nat) :=
  let ok := fun (v g l : Nat) => decide (v = 1) && decide (g = s.dev) && s.unitIn 3 (62 + l) && decide (s.fld Fld.wlkStateTstate (62 + l) = 6)
  if ok (s.fld Fld.wlkFedValid0 sys) (s.fld Fld.wlkFedGw0 sys) (s.fld Fld.wlkFedLink0 sys) then some (s.dev, 62 + s.fld Fld.wlkFedLink0 sys)
  else if ok (s.fld Fld.wlkFedValid1 sys) (s.fld Fld.wlkFedGw1 sys) (s.fld Fld.wlkFedLink1 sys) then some (s.dev, 62 + s.fld Fld.wlkFedLink1 sys)
  else none

/-- The device that answers for an id: the alias target, which may be aliased itself (R467). -/
def State.aliasOf (s : State) (d : Nat) : Nat :=
  let x := (s.aliases.get d).getD d
  (s.aliases.get x).getD x

/-- A notice that is for the named device itself, whatever device answers for its id: LINK_LOST, SERVICE, and DIRTY, which only a device out of
service receives (R421, R478, R520; DEDUCED, log entry 33). -/
def selfNotice (kind : Nat) (body : List Byte) : Bool :=
  decide (kind = 0x09 ∨ kind = 0x0A) || (decide (kind = 0x08) && decide (body.head? = some 10#8))

/-- The same of the notice in an envelope (R439). -/
def selfEnvelope (bs : List Byte) : Bool := selfNotice (bs.getD 6 0#8).toNat (bs.drop 16)

/-- A message that is for the named device itself: a SOURCE, which goes to the device that rebuilds (R473, R478; log entry 33). -/
def selfMessage (bs : List Byte) : Bool :=
  decide (bs.getD 4 0#8 = 0x30#8) && bit (bs.getD 12 0#8).toNat 0 && decide (bs.getD 16 0#8 = 2#8)

/-- The choice for a message to device `dev` of system `sys`, started here or passed on (R433, R434, R441, R467); `raw`: for the device itself. -/
def State.choose (s : State) (start : Bool) (org sys dev : Nat) (detoured : Bool) (raw : Bool := false) : Option Choice :=
  let go := fun b extra => if start then s.routeFrom b extra else s.routeOn org b detoured extra
  if sys = s.sys then go (if raw then dev else s.aliasOf dev) 0
  else match (s.gateway sys).or (s.napGateway sys) with
    | none => none
    | some (g, l) => if g = s.dev then some ⟨l, 3, detoured⟩ else go g 4

/-- The choice that a pin makes: its link, with DETOUR where the default route leaves by another (R433, R436, R438). -/
def State.viaPin (s : State) (k sys dev : Nat) (raw : Bool) : Choice :=
  let far := if sys = s.sys then some (if raw then dev else s.aliasOf dev, 0) else (s.gateway sys).map fun g => (g.1, 4)
  if 62 ≤ k then ⟨k, 3, false⟩
  else match far with
    | none => ⟨k, 6, false⟩
    | some (b, extra) =>
      let n := ((defaultRoute s.order (wiredTo s.dev k) b).map (·.length)).getD 0
      ⟨k, min 6 (n + extra), decide (((defaultRoute s.order s.dev b).getD []).head?.map (·.2) ≠ some k)⟩

/-- A route exists from here to a device (R433, R450). -/
def State.reach (s : State) (sys dev : Nat) : Bool :=
  (decide (sys = s.sys) && decide (s.aliasOf dev = s.dev)) ||
    ((s.choose true s.dev sys dev false).isSome && (decide (sys ≠ s.sys) || s.devTakes (s.aliasOf dev)))

/-- Messages for the id are this device's own: its id, or an id that it answers for (R467). -/
def State.answersFor (s : State) (sys dev : Nat) : Bool := decide (sys = s.sys) && decide (s.aliasOf dev = s.dev)

/-- What is sent to a device is for this one: its own id where it is `raw`, else an id that it answers for. -/
def State.forMe (s : State) (raw : Bool) (sys dev : Nat) : Bool :=
  if raw then decide (sys = s.sys) && decide (dev = s.dev) else s.answersFor sys dev

/-- This device holds the data of the id: its own, or that of a device whose identity it has assumed (R472). -/
def State.mine (s : State) (d : Nat) : Bool :=
  decide (d = s.dev) || (decide (s.fld Fld.protSpareState = 3) && decide (s.fld Fld.protSpareFor = d))

/-- It answers for the id as a proxy, or as a spare whose restore has not ended (R470, R472). -/
def State.proxied (s : State) (d : Nat) : Bool := !s.mine d && decide (s.aliasOf d = s.dev)

/-- A pool address as this device reaches it: the offset, or for a device that it answers for without its data a number from 2^80 on. -/
def State.poolOff (s : State) (a : Nat) : Nat := if s.proxied (Addr.dev a) then 2 ^ 80 * (Addr.dev a + 1) + Addr.off a else Addr.off a

/-- What the absent device's tables say of an access, which no rule tells the device that answers for it: a free value (R469). -/
def State.proxyRefusal (s : State) : Option Status :=
  match s.free % 4 with
  | 0 => none | 1 => some .notOwner | 2 => some .outOfPartition | _ => some .leaseExpired

/-- The id under which it holds data: the failed id, once assumed, else its own. -/
def State.holdId (s : State) : Nat := if s.fld Fld.protSpareState = 3 then s.fld Fld.protSpareFor else s.dev

/-! ### The escape rule (R438) -/

/-- The reserve of a virtual channel (R407). -/
def vcReserve (v : Nat) : Nat := if v = 2 then 16 else 0

/-- The escape step of a virtual channel of a link. -/
def State.escapeStep (s : State) (k v : Nat) : Nat :=
  min (clamp 1 15 (s.fld Fld.wlkRtCtrlEscape)) (((s.links.get k).slots.getD v 0 - 1 - vcReserve v) / 6)

/-- The credit count of a virtual channel (WLK_TXCRED). -/
def State.credit (s : State) (k v : Nat) : Nat := bits (s.rd .wlkTxcred k 0) (16 * v) 10

/-- The state with a credit count replaced. -/
def State.setCredit (s : State) (k v n : Nat) : State := s.wr .wlkTxcred k 0 (setBits (s.rd .wlkTxcred k 0) (16 * v) 10 n)

/-- A flit may take a credit of its virtual channel now (R406, R407, R438). -/
def State.mayTake (s : State) (k : Nat) (f : TxFlit) : Bool :=
  if f.typ = 3 then true
  else
    let c := s.credit k f.vc
    let rsv := if f.vc = 2 ∧ f.recovery = false then 16 else 0
    decide (1 ≤ c) && decide (rsv < c ∨ rsv = 0) && decide (f.hops * s.escapeStep k f.vc + rsv < c ∨ f.hops = 0)

end Sys2Proof.Machine
end

