-- ==== Sys2Proof/Machine/Lease.lean ====
section
/-! DEFINITION. The partition and lease table as every family reads it (spec/05, R128; spec/08, R219; spec/07, R193): who may touch
which range. The check is made once, as a command is accepted (R13). -/

namespace Sys2Proof.Machine

/-! ### Partitions -/

/-- Granules `[g, g + n)` of 1 GiB on device `dev` lie wholly inside function `f`'s partition; `n` steps. -/
def State.holdsGranules (s : State) (f dev g : Nat) : Nat → Bool
  | 0 => true
  | n + 1 => (s.partitions.get f).any (fun r => decide (r.dev = dev) && rangeWithin (g + n) 1 r.start r.len) && s.holdsGranules f dev g n

/-- 1 GiB in bytes, 2 MiB in bytes. -/
def gib : Nat := 2 ^ 30
/-- One extent granule. -/
def mib2 : Nat := 2 ^ 21

/-- A byte range of device `dev` lies wholly inside function `f`'s partition record (R128). -/
def State.inPartition (s : State) (f dev off len : Nat) : Bool :=
  decide (0 < len) && decide (off + len ≤ 2 ^ 48) && s.holdsGranules f dev (off / gib) ((off + len - 1) / gib - off / gib + 1)

/-- Granules `[g, g + n)` of 1 GiB of this device are owned by `w` in the owner map. -/
def State.ownsGranules (s : State) (w : Who) (g : Nat) : Nat → Bool
  | 0 => true
  | n + 1 => decide (s.owners.get (g + n) = some w) && s.ownsGranules w g n

/-- A byte range of this device lies wholly inside what `w` owns here: how a holding device knows the home's partition check of a
forwarded command (R128). -/
def State.ownedBy (s : State) (w : Who) (off len : Nat) : Bool :=
  decide (0 < len) && s.ownsGranules w (off / gib) ((off + len - 1) / gib - off / gib + 1)

/-! ### Extents -/

/-- The extent record that covers 2 MiB granule `g` of this device, with its first granule. -/
def State.extentAt (s : State) (g : Nat) : Option (Nat × Extent) :=
  s.extents.find? fun e => decide (e.2.state ≠ .free) && rangeWithin g 1 e.1 e.2.len

/-- The lease is in force now: LIVE, and its expiry not yet reached (R139). -/
def Extent.inForce (e : Extent) (ms : Nat) : Bool := decide (e.state = .live) && decide (ms < e.expiry)

/-- The lease has expired and its reclaim has not finished (R112). -/
def Extent.lapsed (e : Extent) (ms : Nat) : Bool :=
  decide (e.state = .expired) || decide (e.state = .orphaned) || (decide (e.state = .live) && decide (e.expiry ≤ ms))

/-- `w` held the extent or a grant on it when its lease expired (R112). -/
def Extent.wasHeldBy (e : Extent) (w : Who) : Bool :=
  decide (e.claimant = w) || e.former.contains w || (decide (e.state = .live) && e.grants.any fun g => decide (g.who = w))

/-- The grant that `w` holds. -/
def grantOf (gs : List Grant) (w : Who) : Option Grant := gs.find? fun g => g.who = w

/-- Every granule `[g, g + n)` lies in an extent in force that `w` claimed, or holds a grant on (a write grant for a write). -/
def State.coveredBy (s : State) (w : Who) (write : Bool) (g : Nat) : Nat → Bool
  | 0 => true
  | n + 1 =>
    (match s.extentAt (g + n) with
     | none => false
     | some (_, e) =>
       e.inForce s.ms && (decide (e.claimant = w) ||
         (match grantOf e.grants w with
          | some gr => gr.write || !write
          | none => false))) && s.coveredBy w write g n

/-- A granule of `[g, g + n)` lies in an extent whose lease has lapsed and that `w` held (R112). -/
def State.lapsedFor (s : State) (w : Who) (g : Nat) : Nat → Bool
  | 0 => false
  | n + 1 =>
    (match s.extentAt (g + n) with
     | some (_, e) => e.lapsed s.ms && e.wasHeldBy w
     | none => false) || s.lapsedFor w g n

/-- The extents that granules `[g, g + n)` lie in. -/
def State.extentsOver (s : State) (g n : Nat) : List ObjRef :=
  (s.extents.sel fun k e => decide (e.state ≠ .free) && rangesMeet g n k e.len).map (ObjRef.extent s.dev)

/-- The check of a pool range of this device for caller `w`, whose home found it inside the partition or not (R111, R112, R128). The former
grantees of an extent in RELEASING get NOT_OWNER (R144). -/
def State.poolCheck (s : State) (w : Who) (inPart write : Bool) (off len : Nat) : Option Status :=
  let g := off / mib2
  let n := (off + len - 1) / mib2 - g + 1
  if s.lapsedFor w g n then some .leaseExpired
  else if inPart then (if s.coveredBy w write g n then none else some .notOwner)
  else match s.extentAt g with
    | none => some .outOfPartition
    | some (k, e) =>
      if decide (e.state = .releasing) && rangeWithin g n k e.len && (decide (e.claimant = w) || e.former.contains w) then some .notOwner
      else if e.inForce s.ms && rangeWithin g n k e.len then
        (match grantOf e.grants w with
         | none => some .outOfPartition
         | some gr => if write && !gr.write then some .notOwner else none)
      else some .outOfPartition

/-! ### Streams -/

/-- The stream that a sequence address names here, if its generation is current (R36). -/
def State.streamOf (s : State) (addr : Nat) : Option Stream :=
  let r := s.streams.get (Addr.stream addr)
  if decide (r.state ≠ .free) && decide (r.gen = Addr.gen addr) then some r else none

/-- The stream's lease has lapsed and its end has not come (R112, R233). -/
def Stream.lapsed (r : Stream) (ms : Nat) : Bool :=
  decide (r.state = .expired) || decide (r.state = .orphaned) || (decide (r.state = .opened) && decide (r.expiry ≤ ms))

/-- `w` opened the stream, or held a grant on it at expiry. -/
def Stream.wasHeldBy (r : Stream) (w : Who) : Bool :=
  decide (r.opener = w) || r.former.contains w || (decide (r.state = .opened) && r.grants.any fun g => decide (g.who = w))

/-- `w` may use the stream: as opener, or by a grant (with write where asked) (R234). -/
def Stream.allows (r : Stream) (w : Who) (write : Bool) : Bool :=
  decide (r.opener = w) || (match grantOf r.grants w with
    | some g => g.write || !write
    | none => false)

/-- The descriptor's check of SAPPEND (0x31), SREAD (0x32), STRIM (0x33) or SCLOSE (0x34) by `w` (R115, R227, R231, R232). -/
def State.streamCheck (s : State) (w : Who) (op addr len : Nat) : Option Status :=
  match s.streamOf addr with
  | none => if op = 0x34 && decide ((s.streams.get (Addr.stream addr)).gen = Addr.gen addr) && decide (Addr.gen addr ≠ 0) then
      some .alreadyFree else some .badField
  | some r =>
    if r.state = .closing then (if op = 0x34 then some .alreadyFree else some .badField)
    else if r.lapsed s.ms && r.wasHeldBy w then some .leaseExpired
    else if !r.allows w (decide (op ≠ 0x32)) then some .notOwner
    else if decide (op = 0x31 ∨ op = 0x32) && (decide (len = 0) || decide (len % r.rsize ≠ 0)) then some .badField
    else if op = 0x32 && (decide (Addr.token addr < r.first) || decide (r.last < Addr.token addr + len / r.rsize)) then some .badField
    else if op = 0x33 && decide (r.last < Addr.token addr) then some .badField
    else none

/-! ### Volumes -/

/-- The planning device: the first device of the stripe list that this one can reach, itself included (R199). -/
def State.planner (s : State) (v : Volume) : Option Nat := v.stripe.find? fun d => s.mine d || s.reach s.sys d

/-- The rights and range check of LREAD (0x20), LSTAGE (0x21) and LLOAD (0x22) by `w` on the planning device (R113, R193). -/
def State.volumeCheck (s : State) (w : Who) (op addr len : Nat) : Option Status :=
  let v := s.volumes.get (Addr.vol addr)
  let o := Addr.libOff addr
  if !v.present || v.deleting then some .badField
  else if op = 0x22 then
    if v.writer ≠ w then some .notOwner
    else if v.sealed || decide (o ≠ v.planned) then some .badField
    else none
  else if decide (v.writer ≠ w) && !v.readers.contains w then some .notOwner
  else if v.length < o + len then some .badField
  else none

/-! ### The check as a command is accepted -/

/-- The pool ranges that an entry names and this device answers for: offset as it reaches it, length, write. -/
def State.poolRanges (s : State) (e : Nat) : List (Nat × Nat × Bool) :=
  let here := fun a => decide (Addr.sys a = s.sys) && (s.mine (Addr.dev a) || s.proxied (Addr.dev a))
  let a := Entry.object e
  let b := Entry.spec e 40 8
  let n := Entry.length e
  let own := fun (x : Nat) (w : Bool) => if here x then [(s.poolOff x, n, w)] else []
  match Entry.op e with
  | 0x13 => own a false
  | 0x14 => own a true
  | 0x40 => own a true
  | 0x41 => own a false ++ own b true
  | 0x42 => own a false ++ own b false
  | 0x43 => own a false
  | 0x44 => if Entry.specBits e 54 0 1 = 0 then own a false else []
  | _ => []

/-- The first refusal of the ranges of a list. -/
def State.poolChecks (s : State) (c : Cmd) : List (Nat × Nat × Bool) → Option Status
  | [] => none
  | (o, n, w) :: rs =>
    let inPart := if c.origin.isSome then s.ownedBy c.caller o n else s.inPartition c.caller.fn s.holdId o n
    match (if 2 ^ 80 ≤ o then s.proxyRefusal else s.poolCheck c.caller inPart w o n) with
    | some st => some st
    | none => s.poolChecks c rs

/-- What acceptance binds a command to: the refusal of the tables or of its Urn handle, if any, and the objects it was accepted under (R13,
R108, R128, R193, R219). -/
def State.bindTable (s : State) (c : Cmd) : Cmd :=
  let e := c.entry
  let op := Entry.op e
  let a := Entry.object e
  let rs := s.poolRanges e
  if decide (op = 0x20 ∨ op = 0x21 ∨ op = 0x22) then
    if (s.planner (s.volumes.get (Addr.vol a))).any s.mine = false then c else
    { c with refuse := s.volumeCheck c.caller op a (Entry.length e), objs := [.volume (Addr.vol a)] }
  else if decide (op = 0x31 ∨ op = 0x32 ∨ op = 0x33 ∨ op = 0x34) && s.mine (Addr.dev a) && decide (Addr.sys a = s.sys) then
    { c with refuse := s.streamCheck c.caller op a (Entry.length e), objs := [.stream s.dev (Addr.stream a) (Addr.gen a)] }
  else
    let objs := rs.flatMap fun r => s.extentsOver (r.1 / mib2) ((r.1 + r.2.1 - 1) / mib2 - r.1 / mib2 + 1)
    let b := if c.origin.isSome then none else s.entryBuf c.caller.fn e
    let no := match b with
      | some (.error st) => some st
      | _ => none
    let objs := objs ++ (match b with
      | some (.ok i) => [ObjRef.buffer i]
      | _ => [])
    { c with refuse := (s.poolChecks c rs).or no, objs := objs,
             inPart := if c.origin.isSome then s.ownedBy c.caller (Addr.off a) (Entry.length e) else
               s.inPartition c.caller.fn (Addr.dev a) (Addr.off a) (Entry.length e) }

/-- What takes effect in the order of acceptance: a STRIM moves the stream's first token (R227, R231), an SAPPEND joins the stream's
appends (R223), an SCLOSE puts the stream in CLOSING (R232), an LLOAD adds to the length that the loads in flight will produce (R114). -/
def State.acceptEffect (s : State) (tag : Nat) (c : Cmd) : State :=
  let e := c.entry
  let op := Entry.op e
  let i := Addr.stream (Entry.object e)
  if c.refuse.isSome || (rowSix e).isSome || (rangeRules e).isSome then s
  else match c.objs with
    | [.stream _ _ _] =>
      if op = 0x33 then
        let r := s.streams.get i
        let t := Addr.token (Entry.object e)
        if t ≤ r.first then s
        else { s with streams := s.streams.put i { r with first := t }, cmds := s.cmds.put tag { c with moved := t - r.first } }
      else if op = 0x34 then { s with streams := s.streams.upd i fun r => { r with state := .closing, closer := some tag } }
      else if op = 0x31 then { s with streams := s.streams.upd i fun r => { r with waiting := r.waiting ++ [tag] } }
      else s
    | [.volume v] =>
      if op = 0x22 then { s with volumes := s.volumes.upd v fun r => { r with planned := r.planned + Entry.length e } } else s
    | _ => s

/-- A command in flight, other than `t`, was accepted under the object. -/
def State.objBusy (s : State) (o : ObjRef) (t : Nat) : Bool :=
  s.cmds.any fun e => decide (e.1 ≠ t) && e.2.live && decide (e.2.stage ≠ .done) && e.2.objs.contains o

end Sys2Proof.Machine
end

