-- ==== Sys2Proof/Machine/Queues.lean ====
section
/-! DEFINITION. The rings of spec/03: finding queues, choosing a Barista, acceptance (R77 to R80), the acceptance checks (R79),
ordering within an SQ (R96, R97), writing replies (R85 to R91, R95). -/

namespace Sys2Proof.Machine

/-! ### Finding queues -/

/-- The SQ that function `f` numbers `i`, with its global id. -/
def State.findSq (s : State) (f i : Nat) : Option (Nat × Sq) :=
  s.sqs.find? fun e => decide (e.2.state ≠ .free) && decide (e.2.owner = f) && decide (e.2.loc = i)

/-- The CQ that function `f` numbers `j`, with its global id. -/
def State.findCq (s : State) (f j : Nat) : Option (Nat × Cq) :=
  s.cqs.find? fun e => decide (e.2.state ≠ .free) && decide (e.2.owner = f) && decide (e.2.loc = j)

/-- SQs that function `f` holds beyond its admin SQ. -/
def State.sqCount (s : State) (f : Nat) : Nat :=
  s.sqs.count fun k q => decide (q.owner = f) && decide (256 ≤ k)

/-- CQs that function `f` holds beyond its admin CQ. -/
def State.cqCount (s : State) (f : Nat) : Nat :=
  s.cqs.count fun k q => decide (q.owner = f) && decide (256 ≤ k)

/-- `q` is the privileged queue: the admin SQ of the fabric manager's function (R71). -/
def State.privSq (s : State) (q : Nat) : Bool :=
  let r := s.sqs.get q
  decide (r.loc = 0) && decide (r.state ≠ .free) && s.isPriv r.owner

/-! ### Baristas (R77, R81) -/

/-- SQs that a Barista serves. -/
def State.baristaLoad (s : State) (b : Nat) : Nat := s.sqs.count fun _ q => decide (q.barista = b) && !q.orphan

/-- Among Baristas `b` below `n` in service, the one with the fewest SQs, the lowest number on a tie (R77). -/
def State.pickBarista (s : State) : Nat → Option Nat
  | 0 => none
  | n + 1 =>
    match s.pickBarista n with
    | none => if s.unitIn 5 n then some n else none
    | some b => if s.unitIn 5 n && decide (s.baristaLoad n < s.baristaLoad b) then some n else some b

/-- The Barista of a new SQ: 15 for the privileged queue, else by R77. -/
def State.newBarista (s : State) (priv : Bool) : Option Nat := if priv then some 15 else s.pickBarista 15

/-! ### The submission ring -/

/-- Entries from head up to `t` in a ring of `n` (R74). -/
def ringCount (n head t : Nat) : Nat := if n = 0 then 0 else (t + n - head % n) % n

/-- The Cup offset of slot `e` of global SQ `q` (spec/10, The Cup). -/
def slotOff (q e : Nat) : Nat := 0x1000 * q + 0x40 * e

/-- The 64-byte entry in slot `e` of global SQ `q`. -/
def State.slotEntry (s : State) (q e : Nat) : Nat := leNat (s.urnRead (slotOff q e) 64)

/-- The word of the Urn at `off` holds an uncorrectable lane. -/
def State.poisoned (s : State) (off : Nat) : Bool := s.urnPoison.get (off / 64)

/-- A CQ has no room for a reply (R89). -/
def Cq.isFull (c : Cq) : Bool := decide (c.size = 0) || decide ((c.tail + 1) % c.size = c.head)

/-- An SQ enters ERROR (R76): `why` 0 doorbell, 1 overwrite, 2 poisoned shadow; `v` the value written. -/
def State.sqError (s : State) (q v why : Nat) : State :=
  let r := s.sqs.get q
  let s := s.modSq q fun r => { r with state := .error }
  let s := s.wr .cmdSqErr r.owner (r.loc / 64) (s.rd .cmdSqErr r.owner (r.loc / 64) ||| 2 ^ (r.loc % 64))
  let s := match (s.cqs.get r.cq).vector with
    | some v => s.sendVector r.owner v
    | none => s
  (s.log 0x0203 12 q (v % 2 ^ 16 + why * 2 ^ 16)).bump Fld.cmdStatSqErr

/-- The first row of R79, rows 1 to 5, that refuses an entry of SQ `q`. -/
def State.acceptCheck (s : State) (q e : Nat) : Option Status :=
  let r := s.sqs.get q
  let f := s.fn r.owner
  let priv := s.privSq q
  let op := Entry.op e
  if !s.admittedNow r.owner && op ≠ 0 then some .notAdmitted
  else if !opDefined op then some .badOpcode
  else if decide (op / 16 = 8) && !priv then some .fmOnly
  else if !Entry.headerClean e priv || (Entry.noint e && Entry.urgent e)
      || (!bit (s.blendsOf r.owner) (Entry.blend e) && !(op = 0 && !s.admittedNow r.owner))
      || (decide (Entry.dlMode e ≠ 0) && (match f.domain with
            | none => true
            | some d => decide ((s.dom d).state = .off)))
      || decide (bits e (256 + 40) 24 ≠ 0) then some .badField
  else if opUsesHost op (Entry.length e) && decide (Entry.hostBuf e % 4 ≠ 0) then some .badAlign
  else none

/-- The deadline that acceptance binds (R54); none under mode NONE. -/
def State.bindDeadline (s : State) (f e : Nat) : Option Deadline :=
  if Entry.dlMode e = 0 then none
  else match (s.fn f).domain with
    | none => none
    | some d => some ⟨d, (s.dom d).epoch, bits (Entry.deadline e) 16 16, bits (Entry.deadline e) 0 16⟩

/-- One entry leaves its slot and becomes a command in flight, or is refused with a reply that is due (R78, R79). -/
def State.acceptOne (s : State) (q : Nat) : State :=
  let r := s.sqs.get q
  let bad := s.poisoned (slotOff q r.head)
  let e := s.slotEntry q r.head
  let tag := s.nextTag
  let s := s.modSq q fun r => { r with head := (r.head + 1) % r.size }
  let c : Cmd :=
    { live := true, fn := r.owner, sq := q, order := tag, entry := e, epoch := (s.fn r.owner).epoch,
      deadline := s.bindDeadline r.owner e, caller := ⟨s.dev, r.owner⟩, since := s.us }
  let c := { c with missed := match c.deadline with
    | none => false
    | some dl => s.deadlineMissed dl }
  let s := { s with nextTag := tag + 1, cmds := s.cmds.put tag c }
  if bad then s.finish tag (Res.err .internal)
  else match s.acceptCheck q e with
    | some st => (if st = .notAdmitted then s.bump Fld.tenFnStatRefused 1 r.owner else s).finish tag (Res.err st)
    | none =>
      let c := s.bindTable c
      let s := ({ s with cmds := s.cmds.put tag c }).acceptEffect tag c
      s.charge tag r.owner e

/-- An SQ may give up entries now: active, served, its CQ not full and not in ERROR, its function a bus master and not under reset
(R81, R89, R91), the device ON (R509) and in service, or the queue the privileged one (R518). -/
def State.canAccept (s : State) (q : Nat) : Bool :=
  let r := s.sqs.get q
  let c := s.cqs.get r.cq
  decide (r.state = .active) && !r.orphan && decide (c.state = .active) && !c.isFull && (s.fn r.owner).busMaster &&
    decide ((s.fn r.owner).resetState = 0) && (s.unitIn 6 0 || s.privSq q) && !s.draining &&
    decide (s.fld Fld.pwrStateState = 0)

/-- The Barista accepts up to `n` entries of SQ `q` in slot order. -/
def State.acceptEntries (s : State) (q : Nat) : Nat → State
  | 0 => s
  | n + 1 =>
    let r := s.sqs.get q
    if s.canAccept q && decide (r.head ≠ r.tail) then (s.acceptOne q).acceptEntries q n else s

/-- Every SQ of a list accepts what it holds. -/
def State.acceptAll (s : State) : List Nat → State
  | [] => s
  | q :: qs => (s.acceptEntries q 64).acceptAll qs

/-- SQs bound to a CQ. -/
def State.boundSqs (s : State) (cq : Nat) : List Nat :=
  s.sqs.sel fun _ q => decide (q.cq = cq) && decide (q.state ≠ .free)

/-- SQs of a function. -/
def State.sqsOf (s : State) (f : Nat) : List Nat :=
  s.sqs.sel fun _ q => decide (q.owner = f) && decide (q.state ≠ .free)

/-- CQs of a function. -/
def State.cqsOf (s : State) (f : Nat) : List Nat :=
  s.cqs.sel fun _ q => decide (q.owner = f) && decide (q.state ≠ .free)

/-! ### Order within an SQ (R96, R97) -/

/-- A command of the same SQ accepted before this one is still unanswered. -/
def State.earlierLive (s : State) (c : Cmd) : Bool :=
  s.cmds.any fun e => e.2.live && decide (e.2.sq = c.sq) && decide (e.2.origin = none) && decide (e.2.order < c.order)

/-- Object byte ranges of an entry: address space (1 pool, 2 library, 3 stream), first byte, length, and whether it writes. -/
def entryRanges (e : Nat) : List (Nat × Nat × Nat × Bool) :=
  let a := Entry.object e
  let n := Entry.length e
  match Entry.op e with
  | 0x13 => [(1, a, n, false)]
  | 0x14 => [(1, a, n, true)]
  | 0x20 => [(2, a, n, false)]
  | 0x21 => [(2, a, n, false)]
  | 0x22 => [(2, a, n, true)]
  | 0x40 => [(1, a, n, true)]
  | 0x41 => [(1, a, n, false), (1, Entry.spec e 40 8, n, true)]
  | 0x42 => [(1, a, n, false), (1, Entry.spec e 40 8, n, false)]
  | 0x43 => [(1, a, n, false)]
  | 0x44 => if Entry.specBits e 54 0 1 = 0 then [(1, a, n, false)] else []
  | _ => []

/-- Two entries touch a common byte that at least one of them writes. -/
def entriesClash (a b : Nat) : Bool :=
  (entryRanges a).any fun x => (entryRanges b).any fun y =>
    decide (x.1 = y.1) && (x.2.2.2 || y.2.2.2) && rangesMeet x.2.1 x.2.2.1 y.2.1 y.2.2.1

/-- An earlier unfinished command of the same SQ holds this one back: an admin SQ runs one command at a time (R97), FENCE waits for
every earlier reply, and overlapping ranges take effect in order (R96). -/
def State.heldBack (s : State) (c : Cmd) : Bool :=
  decide (c.origin = none) &&
  (((decide ((s.sqs.get c.sq).loc = 0) || Entry.fence c.entry) && s.earlierLive c) ||
   s.cmds.any fun e => e.2.live && decide (e.2.sq = c.sq) && decide (e.2.order < c.order) && decide (e.2.stage ≠ .done) &&
     decide (e.2.origin = none) && entriesClash e.2.entry c.entry)

/-- The command's work takes its data from the host buffer: WRITE, LLOAD, SAPPEND, and the lists and keys of SOPEN, KEY_LOAD and VOLUME. -/
def opSources (op : Nat) : Bool := op ∈ [0x14, 0x22, 0x30, 0x31, 0x82, 0x86]

/-- The data that the command's work takes has arrived. -/
def Cmd.fed (c : Cmd) : Bool :=
  c.origin.isNone || (c.table.isSome && decide (Entry.spec c.entry 40 1 ≠ 0)) ||
    !(opSources (Entry.op c.entry) || (c.part.isSome && decide (Entry.op c.entry = 0x41 ∨ Entry.op c.entry = 0x44))) ||
    decide ((match c.part with
      | some (_, n, _) => n
      | none => Entry.length c.entry) ≤ c.inData.length)

/-- The command that tag `t` names, of opcode `op`, whose work may begin or go on. -/
def State.ready (s : State) (t op : Nat) : Option Cmd :=
  let c := s.cmd t
  if c.live && decide (c.stage ≠ .done) && decide (Entry.op c.entry = op) && !c.abort && c.fed && !s.heldBack c then some c else none

/-! ### Replies -/

/-- The reply is written into the CQ's next slot, and counted and signalled on its vector (R85 to R87, R95). -/
def State.writeReply (s : State) (q : Nat) (r : Reply) : State :=
  let c := s.cqs.get q
  let bs := replyBytes r (!c.wrapped) ((s.sqs.get r.sq).head) (s.replyPos r.fn)
  let s := s.hostWrite c.owner (c.base + 32 * c.tail) bs
  let t := (c.tail + 1) % c.size
  let c' := { c with tail := t, wrapped := if t = 0 then !c.wrapped else c.wrapped }
  let s := s.modCq q fun _ => c'
  let s := if c'.isFull then s.bump Fld.cmdStatCqFull else s
  let s := s.countReply r.blend (s.us - r.since)
  match c.vector with
  | none => s
  | some v =>
    if r.noint then s
    else
      let k := s.coal.get (coalKey c.owner v)
      let k' : Coal := { count := k.count + 1, since := if k.count = 0 then s.us else k.since }
      let s := { s with coal := s.coal.put (coalKey c.owner v) k' }
      if r.urgent || decide (max 1 (s.fld Fld.cmdVecCoalCount c.owner v) ≤ k'.count) then s.signalVector c.owner v else s

/-- A reply can be written now: CQ active with room, its function a bus master. -/
def State.canReply (s : State) (q : Nat) : Bool :=
  let c := s.cqs.get q
  decide (c.state = .active) && !c.isFull && (s.fn c.owner).busMaster

/-- Held replies are written in the order they became due, while there is room (R89). -/
def State.flushHeld (s : State) (q : Nat) : Nat → State
  | 0 => s
  | n + 1 =>
    let c := s.cqs.get q
    match c.held with
    | [] => s
    | r :: rs =>
      if s.canReply q then ((s.modCq q fun c => { c with held := rs }).writeReply q r).flushHeld q n else s

/-- Held replies of every CQ of a list are written. -/
def State.flushCqs (s : State) : List Nat → State
  | [] => s
  | q :: qs => (s.flushHeld q (s.cqs.get q).held.length).flushCqs qs

/-- Commands that an SQ has accepted and that are unanswered. -/
def State.sqBusy (s : State) (q : Nat) : Bool :=
  s.cmds.any fun e => e.2.live && decide (e.2.sq = q) && decide (e.2.origin = none)

/-- The admin pair of a function whose deletion runs leaves once its commands have ended (R66). -/
def State.reapAdmin (s : State) (f : Nat) : State :=
  if (s.fn f).acqDeleting && !s.sqBusy f && (s.cqs.get f).held.isEmpty then
    let s := s.modSq f fun _ => default
    let s := s.modCq f fun _ => default
    let s := s.modFn f fun r => { r with acqDeleting := false, ready := false }
    (s.setFld Fld.cmdAcqCfgEnable 0 f).setFld Fld.cmdFnStatusReady 0 f
  else s

end Sys2Proof.Machine
end

