-- ==== Sys2Proof/Machine/LinkOps.lean ====
section
/-! DEFINITION. The transmitter of a link (R402, R406 to R408), sending messages and notices by routes and pins (R433 to R436, R439, R440),
and the parts of commands that other devices serve (R35, R410, R412). -/

namespace Sys2Proof.Machine

/-- The state with one link's record changed. -/
def State.modLink (s : State) (k : Nat) (g : Link → Link) : State := { s with links := s.links.upd k g }

/-- A link's record. -/
def State.link (s : State) (k : Nat) : Link := s.links.get k

/-! ### The transmitter -/

/-- One flit goes out with acknowledgement, retry request and credit report filled in (R402, R403, R406). -/
def State.sendFlit (s : State) (k typ vc seq : Nat) (payload : List Byte) : State :=
  let l := s.link k
  let h : FlitHead := { seq := seq, ack := (l.expected + 4095) % 4096, nak := decide (l.rx = .nakDue), typ := typ, vc := vc, cvc := l.cvc,
                        ccount := l.freed.getD l.cvc 0 }
  let s := s.modLink k fun l => { l with rx := if l.rx = .nakDue then .nakSent else l.rx, cvc := (l.cvc + 1) % 4 }
  s.emit (.flit k (flitBytes h payload))

/-- The first waiting flit of virtual channel `v` (`4`: of the LINK flits), with its place in the list. -/
def headOf (v : Nat) (fs : List TxFlit) : Option (Nat × TxFlit) :=
  ((List.range fs.length).zip fs).find? fun x => if v = 4 then x.2.typ = 3 else decide (x.2.typ ≠ 3) && decide (x.2.vc = v)

/-- The waiting flit that goes next, of those that may go (R408): VC 2 first, then the lowest tier, ties to VC 1, VC 0, VC 3. -/
def State.pickFlit (s : State) (k : Nat) : Option (Nat × TxFlit) :=
  let ws := (s.link k).waiting
  let can := fun v => (headOf v ws).filter fun x => s.mayTake k x.2
  match can 4, can 2 with
  | some x, _ => some x
  | none, some x => some x
  | none, none =>
    [can 1, can 0, can 3].foldl (fun b x => match b, x with
      | none, x => x
      | some b, some x => if x.2.tier < b.2.tier then some x else some b
      | some b, none => some b) none

/-- The blend of the message that a flit begins. -/
def TxFlit.blend (f : TxFlit) : Nat := (MsgHead.of f.payload).blend

/-- The message that FLAT serves next on a virtual channel: of the blend next in turn, the one that entered first, which is the one due first
(R356, R370). -/
def turnOf (v last : Nat) (ws : List TxFlit) : Option (Nat × TxFlit) :=
  let after := fun (f : TxFlit) => (f.blend + 63 - last) % 64
  (((List.range ws.length).zip ws).filter fun x => x.2.first && decide (x.2.typ ≠ 3) && decide (x.2.vc = v)).foldl
    (fun b x => match b with
      | none => some x
      | some y =>
        if decide (after x.2 < after y.2) || (decide (after x.2 = after y.2) && decide (x.2.due < y.2.due)) then some x else some y) none

/-- The message whose first flit stands at a place goes to the front. -/
def toFront (i : Nat) (ws : List TxFlit) : List TxFlit :=
  match ws.drop i with
  | [] => ws
  | f :: r =>
    let m := f :: r.takeWhile fun x => !x.first && decide (x.typ = f.typ) && decide (x.vc = f.vc)
    m ++ ws.take i ++ (ws.drop i).drop m.length

/-- While the blend table is FLAT, the message next in turn of every virtual channel on which none has begun goes to the front (R370). -/
def State.flatTurn (s : State) (k : Nat) : State :=
  if s.seam 2 then
    [0, 1, 3].foldl (fun (s : State) v =>
      let l := s.link k
      match headOf v l.waiting, turnOf v (l.turns.getD v 63) l.waiting with
      | some h, some x => if h.2.first then s.modLink k fun l => { l with waiting := toFront x.1 l.waiting } else s
      | _, _ => s) s
  else s

/-- One waiting flit is sent for the first time: numbered, kept for replay, its credit taken (R401, R402, R406). -/
def State.sendNew (s : State) (k i : Nat) (f : TxFlit) : State :=
  let l := s.link k
  let s := s.modLink k fun l => { l with waiting := l.waiting.eraseIdx i, replay := l.replay ++ [f], next := (l.next + 1) % 4096,
                                         used := if f.typ = 3 then l.used else s.us,
                                         turns := if s.seam 2 && f.first && decide (f.typ = 1) then l.turns.set f.vc f.blend else l.turns }
  let s := if f.typ = 3 then s else s.setCredit k f.vc (s.credit k f.vc - 1)
  (s.tally Fld.wlkBytesTxBytes 240 k).sendFlit k f.typ f.vc l.next f.payload

/-- New flits go out while the link is usable, fewer than 512 are outstanding and credits allow (R401, R406). -/
def State.pump (s : State) (k : Nat) : Nat → State
  | 0 => s
  | n + 1 =>
    if s.linkUsable k && decide ((s.link k).replay.length < 512) then
      let s := s.flatTurn k
      match s.pickFlit k with
      | some (i, f) => (s.sendNew k i f).pump k n
      | none => s
    else s

/-- Everything that may go out on a link now goes out. -/
def State.flush (s : State) (k : Nat) : State := s.pump k (s.link k).waiting.length

/-- The flits outstanding are sent again, oldest first (R402). -/
def State.resend (s : State) (k seq : Nat) : List TxFlit → State
  | [] => s
  | f :: fs => (s.sendFlit k f.typ f.vc seq f.payload).resend k ((seq + 1) % 4096) fs

/-- A payload cut into flits of 240 bytes. -/
def cut240 : Nat → List Byte → List (List Byte)
  | 0, _ => []
  | n + 1, bs => if bs.isEmpty then [] else bs.take 240 :: cut240 n (bs.drop 240)

/-- The flits of an item: its message bytes from the start of a flit on, or one CTRL flit for a notice. -/
def itemFlits (it : Item) (hops due : Nat) : List TxFlit :=
  let ps := if it.vc = 2 then [ctrlPayload it.kind it.bytes] else cut240 (it.bytes.length + 1) it.bytes
  ((List.range ps.length).zip ps).map fun x =>
    { typ := if it.vc = 2 then 2 else 1, vc := it.vc, payload := x.2, tier := it.tier, hops := hops, due := due, recovery := it.recovery,
      first := decide (x.1 = 0), item := if x.1 + 1 = ps.length then some it else none }

/-- Flits of a message join a link's waiting list: after the message begun, and before the first message of its virtual channel of a lower
precedence, or of its tier and due later (R355, R356, R408). -/
def joinWaiting (new : List TxFlit) (vc tier due : Nat) : List TxFlit → List TxFlit
  | [] => new
  | w :: ws =>
    if decide (w.typ ≠ 3) && decide (w.vc = vc) && w.first && (decide (tier < w.tier) || (decide (tier = w.tier) && decide (due < w.due))) then
      new ++ w :: ws
    else w :: joinWaiting new vc tier due ws

/-- When an arbiter should have served an item that enters it now, in ns: its blend's latency target from now on (R356). -/
def State.dueOf (s : State) (it : Item) : Nat := 1000 * s.us + max 1 (s.fld Fld.bldCfgLatNs (MsgHead.of it.bytes).blend)

/-- An item is handed to a link's transmitter. -/
def State.enqueue (s : State) (k hops : Nat) (it : Item) : State :=
  let due := if it.vc = 2 then 0 else s.dueOf it
  let s := s.modLink k fun l => { l with waiting := joinWaiting (itemFlits it hops due) it.vc it.tier due l.waiting }
  (s.emit (.message k it.vc it.bytes)).flush k

/-- A LINK notice is handed to a link's transmitter (R414). -/
def State.linkNotice (s : State) (k code arg : Nat) : State :=
  let f : TxFlit := { typ := 3, vc := 0, payload := leBytes 1 code ++ zeroBytes 3 ++ leBytes 4 arg }
  (s.modLink k fun l => { l with waiting := l.waiting ++ [f] }).flush k

/-! ### Pins and routes -/

/-- The pin of a message (R436). -/
def State.pinOf (s : State) (h : MsgHead) (vc : Nat) : Option Pin :=
  s.pins.find? fun p => p.orgSys = h.orgSys && p.org = h.orgDev && p.tag = h.tag && p.dstSys = h.sys && p.dst = h.dev && p.vc = vc

/-- The pin table is replaced, and its count (WLK_RT_PINS). -/
def State.putPins (s : State) (ps : List Pin) : State := { s with pins := ps }.setFld Fld.wlkRtPinsUsed ps.length

/-- The message's pin records a link, used now. -/
def State.setPin (s : State) (h : MsgHead) (vc k : Nat) : State :=
  let rest := s.pins.filter fun p => !(p.orgSys = h.orgSys && p.org = h.orgDev && p.tag = h.tag && p.dstSys = h.sys && p.dst = h.dev && p.vc = vc)
  if 16384 ≤ rest.length then s.bump Fld.wlkRtStatPinFull
  else
    s.putPins (rest ++ [Pin.mk h.orgSys h.orgDev h.tag h.sys h.dev vc k s.us])

/-- A message's bytes with DETOUR set. -/
def markDetour (bs : List Byte) : List Byte := overlay bs 12 [BitVec.ofNat 8 ((bs.getD 12 0#8).toNat ||| 2)]

/-- The detail of ROUTE_DROP: destination, origin, virtual channel, kind, why. -/
def routeDrop (h : MsgHead) (vc why : Nat) : Nat :=
  (h.dev + h.sys * 1024) + (h.orgDev + h.orgSys * 1024) * 2 ^ 16 + vc * 2 ^ 32 + h.kind * 2 ^ 40 + why * 2 ^ 48

/-- The link still carries the messages pinned to it, now or after its retrain or nap (R436). -/
def State.linkAlive (s : State) (k : Nat) : Bool := s.unitIn 3 k && decide (s.fld Fld.wlkStateTstate k ≠ 0)

/-- No message of a command starts for a device that is out of service (R450). -/
def State.startBlocked (s : State) (h : MsgHead) (vc : Nat) : Bool :=
  decide (vc ≠ 2) && decide (h.sys = s.sys) && decide (h.kind ≠ 0x3F) && !h.devwork && !s.devTakes (s.aliasOf h.dev)

/-- A message leaves by its pin or by a route; it is dropped where there is none, or where its gateway's partner is of another system (R433,
R434, R436, R441, R442). One for an id that this device answers for comes back to it, as if on link 64 (R467). `start`: it begins here; `arr`:
the link it arrived on. -/
def State.sendItem (s : State) (start : Bool) (arr : Nat) (it : Item) : State :=
  let h := MsgHead.of it.bytes
  let drop := fun (s : State) (why : Nat) => (s.bump Fld.wlkRtStatDiscards).log 0x0504 5 arr (routeDrop h it.vc why)
  let fresh := fun (s : State) =>
    match s.choose start h.orgDev it.sys it.dev h.detour (selfMessage it.bytes) with
    | none => if start then s else drop s (if it.sys = s.sys then 0 else 1)
    | some c =>
      if 62 ≤ c.link ∧ (s.fld Fld.wlkModeMode c.link ≠ 1 ∨ s.fld Fld.wlkStatePartnerSys c.link ≠ it.sys) then drop s 2 else
      let s := if c.detour && !h.detour then s.bump Fld.wlkRtStatDetours else s
      (s.setPin h it.vc c.link).enqueue c.link c.hops { it with bytes := if c.detour then markDetour it.bytes else it.bytes }
  if s.forMe (selfMessage it.bytes) it.sys it.dev then s.emit (.message 64 it.vc it.bytes)
  else if start && s.startBlocked h it.vc then s
  else match s.pinOf h it.vc with
  | none => fresh s
  | some p =>
    if s.linkAlive p.link then
      let c := s.viaPin p.link it.sys it.dev (selfMessage it.bytes)
      let s := if c.detour && !h.detour then s.bump Fld.wlkRtStatDetours else s
      (s.setPin h it.vc p.link).enqueue p.link c.hops { it with bytes := if c.detour then markDetour it.bytes else it.bytes }
    else if (s.link p.link).lostWait.isSome then s.modLink p.link fun l => { l with held := l.held ++ [it] }
    else fresh s

/-- A message starts here: header and body (R409). -/
def State.sendMsg (s : State) (h : MsgHead) (body : List Byte) : State :=
  let b := padBody body
  let h := { h with orgDev := s.dev, orgSys := s.sys, len := b.length / 16 }
  s.sendItem true 0 { vc := kindVc h.kind, kind := h.kind, tier := if h.lift && decide (h.tier = 1) then 0 else h.tier, sys := h.sys, dev := h.dev, bytes := h.bytes ++ b }

/-- A notice for device `dev`: as slots to a link partner, else in an envelope (R412, R439). -/
def State.sendNotice (s : State) (kind sys dev : Nat) (body : List Byte) : State :=
  let raw := selfNotice kind body
  let here := if decide (sys = s.sys) && !raw then s.aliasOf dev else dev
  let direct := if sys = s.sys then (linkNo s.dev here).filter s.linkUsable else none
  if s.forMe raw sys dev then s.emit (.message 64 2 body)
  else match direct with
  | some k => s.enqueue k 0 { vc := 2, kind := kind, sys := sys, dev := dev, recovery := recoveryKind kind, bytes := body }
  | none =>
    match s.choose true s.dev sys dev false raw with
    | none => s
    | some c =>
      s.enqueue c.link c.hops { vc := 2, kind := 0x09, sys := sys, dev := dev, recovery := recoveryKind kind,
                                bytes := envelope sys dev s.sys s.dev kind c.detour false body }

/-- A notice is of the recovery class: by its kind, but LINK_STATE, of kind SERVICE, is ordinary (R412, R429). -/
def noticeClass (kind : Nat) (body : List Byte) : Bool := recoveryKind kind && !(decide (kind = 0x09) && decide (body.head? = some 2#8))

/-- A notice is sent on every link of a list, as slots. -/
def State.sendSlots (s : State) (kind : Nat) (body : List Byte) : List Nat → State
  | [] => s
  | k :: ks =>
    (s.enqueue k 0 { vc := 2, kind := kind, recovery := noticeClass kind body, bytes := slot16 (body.take 16) ++ body.drop 16 }).sendSlots kind body ks

/-- The usable links below `n` that satisfy `p`, in ascending order. -/
def State.usableLinks (s : State) (p : Nat → Bool) (n : Nat) : List Nat := (List.range n).filter fun k => p k && s.linkUsable k

/-- A flood on the links of a list: by the link where it is usable, else in an envelope to its partner (R440). -/
def State.flood (s : State) (kind : Nat) (body : List Byte) : List Nat → State
  | [] => s
  | k :: ks =>
    let b := slot16 (body.take 16) ++ body.drop 16
    let d := wiredTo s.dev k
    let s :=
      if s.linkUsable k then s.sendSlots kind b [k]
      else if 1024 ≤ d then s
      else match s.choose true s.dev s.sys d false true with
        | none => s
        | some c => s.enqueue c.link c.hops { vc := 2, kind := 0x09, sys := s.sys, dev := d, recovery := noticeClass kind body,
                                              bytes := envelope s.sys d s.sys s.dev kind c.detour (crossShelf k) b }
    s.flood kind body ks

/-- The states of this device's links 0 to 63, two bits each (R428). -/
def State.ownStates (s : State) : Nat := (List.range 64).foldl (fun n k => n + s.ownLink k * 4 ^ k) 0

/-- A LINK_STATE notice of this device goes out (R429, R431). -/
def State.floodState (s : State) : State :=
  let n := s.ownStates
  let body := leBytes 1 2 ++ leBytes 1 s.lsCount ++ nameBytes s.dev s.sys ++ leBytes 2 s.lsSeq ++ leBytes 10 n ++ leBytes 6 (n / 2 ^ 80) ++
    leBytes 1 (s.unitState 6 0) ++ zeroBytes 9
  ({ s with lsSeq := (s.lsSeq + 1) % 65536, lsSent := s.us }).flood 0x09 body (List.range 62)

/-- LINK_STATE goes out where this device's entry differs from what it was in `old` (R429). -/
def State.noteLinks (s old : State) : State :=
  if s.ownStates = old.ownStates ∧ s.unitState 6 0 = old.unitState 6 0 then s else s.floodState

/-! ### Parts of commands -/

/-- The tag that a part's key gives on the links; 0xFFFF is never one (R412). -/
def partTag (key : Nat) : Nat := key % 65535

/-- The part in force that a tag of a response names. -/
def State.partAt (s : State) (t : Nat) : Option (Nat × Part) := s.parts.find? fun e => e.2.live && decide (partTag e.1 = t)

/-- The parts of a command, in the order of its range. -/
def State.partsOf (s : State) (tag : Nat) : List (Nat × Part) := s.parts.filter fun e => e.2.live && decide (e.2.cmd = tag)

/-- Every part of a command has ended. -/
def State.partsDone (s : State) (tag : Nat) : Bool := (s.partsOf tag).all fun e => e.2.done

/-- A command's parts are forgotten. -/
def State.dropParts (s : State) (tag : Nat) : State := { s with parts := s.parts.drop fun _ p => decide (p.cmd = tag) }

/-- A part joins a command. -/
def State.addPart (s : State) (p : Part) : State × Nat := ({ s with parts := s.parts.put s.nextPart { p with live := true }, nextPart := s.nextPart + 1 }, s.nextPart)

/-- The binding that goes with an entry (R410): the epoch bound to the deadline, and the pour domain. Where the sender is not the function's home
device, bytes 10 to 13 name that device: 1 and its 16-bit name. -/
def State.binding (s : State) (c : Cmd) (tag : Nat) : List Byte :=
  let d := match c.deadline with
    | some dl => leBytes 2 dl.epoch ++ leBytes 1 dl.domain
    | none => zeroBytes 2 ++ leBytes 1 (if c.origin.isSome then 0x80 else ((s.fn c.fn).domain).getD 0x80)
  slot16 (d ++ zeroBytes 5 ++ leBytes 2 tag ++ leBytes 4 (if decide (tag = 0) && decide (c.caller.dev ≠ s.dev) then 1 + c.caller.name s.sys else 0))

/-- A command's STANDARD work is raised at an arbiter that it enters now: its blend's policy is BOOST, and its deadline in a LIVE domain has been
reached or lies within the boost distance in the domain's own layer (R364). -/
def State.boosted (s : State) (c : Cmd) : Bool :=
  match c.deadline with
  | none => false
  | some dl =>
    let d := s.dom dl.domain
    decide (s.fld Fld.bldCfgPolicy (Entry.blend c.entry) = 1) && decide (d.state = .live) && !s.seam 2 &&
      (decide (packPos dl.epoch dl.layer dl.tick ≤ d.pos) ||
        (decide (d.epoch = dl.epoch) && decide (d.layer = dl.layer) && decide (dl.tick ≤ d.tick + s.fld Fld.bldBoostPt)))

/-- The header of a message of a command. -/
def State.headFor (s : State) (c : Cmd) (kind sys dev tag : Nat) : MsgHead :=
  { dev := dev, sys := sys, kind := kind, blend := Entry.blend c.entry, tier := c.tier, tag := tag, fn := c.caller.fn, epoch := c.epoch,
    orgDev := s.dev, orgSys := s.sys, lift := s.boosted c }

/-- Data of a command in messages of at most 4096 bytes, in range order. -/
def State.sendData (s : State) (h : MsgHead) : Nat → List Byte → State
  | 0, _ => s
  | n + 1, bs => if bs.isEmpty then s else (s.sendMsg h (bs.take 4096)).sendData h n (bs.drop 4096)

/-- The whole command goes to the device that serves it, with its data, or ends with LINK_UNREACHABLE (R35, R410). -/
def State.forward (s : State) (tag : Nat) (c : Cmd) (sys dev : Nat) : State :=
  if c.stage = .running then s
  else if s.reach sys dev then
    let (s, k) := s.addPart { cmd := tag, sys := sys, dev := dev, whole := true, obj := Entry.object c.entry, len := Entry.length c.entry }
    let h := s.headFor c 0x01 sys dev (partTag k)
    let s := s.sendMsg h (leBytes 64 c.entry ++ s.binding c 0)
    let n := Entry.length c.entry
    let s := if opSources (Entry.op c.entry) then
        s.sendData { h with kind := 0x03 } (n / 4096 + 1) (s.hostRead c.fn (Entry.hostBuf c.entry) n)
      else s
    s.modCmd tag fun c => { c with stage := .running, started := true }
  else (s.bump Fld.wlkRtStatUnreach).finish tag (Res.err .linkUnreachable)

/-- A share of a command goes to another device, with its data in messages of kind `kind` (R410); a share whose device cannot be reached
ends with LINK_UNREACHABLE. -/
def State.sendShare (s : State) (tag : Nat) (c : Cmd) (kind sys dev obj len off : Nat) (data : List Byte) (again : Bool) : State :=
  if s.reach sys dev then
    let (s, k) := s.addPart { cmd := tag, sys := sys, dev := dev, obj := obj, len := len, off := off, data := data, again := again }
    let h := s.headFor c 0x02 sys dev (partTag k)
    let s := s.sendMsg h (leBytes 64 c.entry ++ s.binding c 0 ++ leBytes 8 obj ++ leBytes 8 len ++ leBytes 8 off ++ zeroBytes 8)
    s.sendData { h with kind := kind } (data.length / 4096 + 1) data
  else
    (s.addPart { cmd := tag, sys := sys, dev := dev, obj := obj, len := len, off := off, done := true, status := .linkUnreachable }).1

/-- A share of a command goes to another device of this system, with its data. -/
def State.sendWork (s : State) (tag : Nat) (c : Cmd) (dev obj len off : Nat) (data : List Byte) : State :=
  s.sendShare tag c 0x03 s.sys dev obj len off data false

/-- A share that this device served itself. -/
def State.localPart (s : State) (tag obj len off : Nat) (st : Status) (moved : Nat) (data recs : List Byte) : State :=
  (s.addPart { cmd := tag, sys := s.sys, dev := s.dev, obj := obj, len := len, off := off, data := data, done := true, status := st,
               moved := moved, recs := recs }).1

/-- Data that a command returns: to its host, or to its origin as READ_DATA (R410). -/
def State.deliver (s : State) (c : Cmd) (addr : Nat) (bs : List Byte) : State :=
  match c.origin with
  | none => s.hostWrite c.fn addr bs
  | some (o, t) => s.sendData (s.headFor c 0x12 (o / 1024) (o % 1024) t) (bs.length / 4096 + 1) bs

/-- Bytes that a command takes from its host buffer, or from the data that its origin sent. -/
def State.source (s : State) (c : Cmd) (addr n : Nat) : List Byte :=
  match c.origin with
  | none => s.hostRead c.fn addr n
  | some _ => (c.inData.drop (addr - Entry.hostBuf c.entry)).take n

/-- STEP_ACK: the answer to a STEP, with the prior state and the self-test code (R520). -/
def State.sendStepAck (s : State) (o : Nat × Nat) (c : Cmd) : State :=
  let r := c.reply
  s.sendNotice 0x09 (o.1 / 1024) (o.1 % 1024) (slot16 (leBytes 1 4 ++ leBytes 1 r.status.code ++ nameBytes s.dev s.sys ++ leBytes 2 o.1 ++
    leBytes 1 c.fn ++ leBytes 1 (Entry.spec c.entry 40 1) ++ leBytes 2 (Entry.spec c.entry 41 2) ++ leBytes 1 (r.result0 % 4) ++ zeroBytes 1 ++
    leBytes 2 o.2 ++ leBytes 2 r.result1))

/-- The answer of a command that was sent here (R410, R412, R520): STEP_ACK, TABLE_ACK, PART_DONE or REPLY. -/
def State.sendReply (s : State) (o : Nat × Nat) (c : Cmd) : State :=
  let sys := o.1 / 1024
  let dev := o.1 % 1024
  let r := c.reply
  if c.step then s.sendStepAck o c
  else if c.table.isSome then
    s.sendNotice 0x07 sys dev (slot16 (nameBytes s.dev s.sys ++ leBytes 1 r.status.code ++ zeroBytes 1 ++ leBytes 2 o.2))
  else
    let h := s.headFor c 0x10 sys dev o.2
    match c.part with
    | none => s.sendMsg h (replyBytes r false 0 0)
    | some _ =>
      let u := s.loads.getD (s.free % max 1 s.loads.length) 0
      s.tookFree.sendMsg { h with kind := 0x11 } (leBytes 1 r.status.code ++ leBytes 1 (b2n r.part) ++ leBytes 1 u ++ zeroBytes 5 ++ leBytes 8 r.result0 ++ c.recs)

/-! ### Cancelling and asking -/

/-- A CANCEL or CANCEL_ACK slot (R412). -/
def cancelSlot (dev sys fn epoch tag : Nat) : List Byte :=
  slot16 (nameBytes dev sys ++ leBytes 1 fn ++ leBytes 1 epoch ++ leBytes 2 tag)

/-- CANCEL goes to every device that still works on a part of the command (R413). -/
def State.cancelParts (s : State) (c : Cmd) : List (Nat × Part) → State
  | [] => s
  | (k, p) :: ps =>
    let s :=
      if p.done || p.cancelled then s
      else ({ s with parts := s.parts.put k { p with cancelled := true } }).sendNotice 0x02 p.sys p.dev
        (cancelSlot s.dev s.sys c.caller.fn c.epoch (partTag k))
    s.cancelParts c ps

/-- The command is one that a CANCEL names: by its tag, or every one of the function and epoch (R412). -/
def Cmd.cancelled (c : Cmd) (x : Nat × Nat × Nat × Nat) : Bool :=
  c.live && (match c.origin with
    | none => false
    | some (o, t) => decide (o = x.1) && (decide (t = x.2.2.2) || (decide (x.2.2.2 = 0xFFFF) && decide (c.caller.fn = x.2.1) && decide (c.epoch = x.2.2.1))))

/-- CANCEL_ACK goes out for every CANCEL whose work has ended here and where it was passed on (R413). -/
def State.flushAcks (s : State) : State :=
  let gone := fun (x : Nat × Nat × Nat × Nat) => !s.cmds.any fun e => e.2.cancelled x && decide (e.2.stage ≠ .done)
  let go := s.cancels.filter gone
  go.foldl (fun s x => s.sendNotice 0x03 (x.1 / 1024) (x.1 % 1024) (cancelSlot (x.1 % 1024) (x.1 / 1024) x.2.1 x.2.2.1 x.2.2.2))
    { s with cancels := s.cancels.filter fun x => !gone x }

/-- A table change goes to another device: the entry that caused it, its binding, and a slot with a change code, the function whose command it is
and its home device, and a length (R412). -/
def State.sendTable (s : State) (tag : Nat) (c : Cmd) (dev code len : Nat) : State :=
  let k := s.nextPart
  let s := { s with asks := s.asks.put k { live := true, cmd := tag, dev := dev, code := code }, nextPart := k + 1 }
  s.sendNotice 0x06 s.sys dev (leBytes 64 c.entry ++ s.binding c (partTag k) ++
    slot16 (leBytes 1 code ++ leBytes 1 c.caller.fn ++ leBytes 2 (c.caller.name s.sys) ++ zeroBytes 4 ++ leBytes 8 len))

/-- A REVOKE of one lease goes to its holding device (R149). -/
def State.sendRevoke (s : State) (tag f : Nat) (r : LeaseRef) : State :=
  let k := s.nextPart
  let s := { s with asks := s.asks.put k { live := true, cmd := tag, dev := r.dev, code := 0x100 }, nextPart := k + 1 }
  s.sendNotice 0x04 (s.sysOf r.dev) (r.dev % 1024) (slot16 (leBytes 8 r.addr ++ nameBytes s.dev s.sys ++ leBytes 1 f ++ zeroBytes 1 ++ leBytes 2 (partTag k)))

/-- REVOKE goes out for every lease of a list. -/
def State.sendRevokes (s : State) (tag f : Nat) : List LeaseRef → State
  | [] => s
  | r :: rs => (s.sendRevoke tag f r).sendRevokes tag f rs

/-- The table changes that a command waits for or has had answered. -/
def State.asksOf (s : State) (tag : Nat) : List (Nat × Ask) := s.asks.filter fun e => e.2.live && decide (e.2.cmd = tag)

/-- Every table change of a command has been answered. -/
def State.asksDone (s : State) (tag : Nat) : Bool := (s.asksOf tag).all fun e => e.2.status.isSome

/-- The first answer of a command's table changes that is not OK. -/
def State.askError (s : State) (tag : Nat) : Option Status :=
  ((s.asksOf tag).filterMap fun e => e.2.status.filter fun st => decide (st ≠ .ok)).head?

/-- A command's table changes are forgotten. -/
def State.dropAsks (s : State) (tag : Nat) : State := { s with asks := s.asks.drop fun _ a => decide (a.cmd = tag) }

end Sys2Proof.Machine
end

