-- ==== Sys2Proof/Machine/ParityOps.lean ====
section
/-! DEFINITION. Parity sets (spec/17): the group and its placement (R453, R457 to R459), the arithmetic of P and Q (R460), deltas (R461 to R464),
what can be reconstructed (R468, R469), flash stripes at their data members (R465). -/

namespace Sys2Proof.Machine

/-! ### The group -/

/-- Data frames and parity frames of a stripe, by WIDTH (R453). -/
def groupShape (width : Nat) : Nat × Nat :=
  match width with
  | 1 => (4, 1) | 2 => (8, 1) | 3 => (8, 2) | 4 => (16, 2) | _ => (0, 0)

/-- k. -/
def State.gk (s : State) : Nat := (groupShape (s.fld Fld.protGroupWidth)).1
/-- m. -/
def State.gm (s : State) : Nat := (groupShape (s.fld Fld.protGroupWidth)).2
/-- n. -/
def State.gn (s : State) : Nat := s.gk + s.gm

/-- A group is formed: SYNCING or beyond. -/
def State.grouped (s : State) : Bool := decide (s.fld Fld.protStateState ≠ 0) && decide (0 < s.gn)

/-- The device id of a position. -/
def State.memberId (s : State) (p : Nat) : Nat := s.fld Fld.protMemberDevid p

/-- The state of a position: 0 IN, 1 ABSENT, 2 FAILED, 3 REPLACED. -/
def State.memberState (s : State) (p : Nat) : Nat := s.fld Fld.protMemberState p

/-- A position whose frames are in service: IN, or REPLACED, where the spare holds them (DEDUCED, log entry 34). -/
def State.memberIn (s : State) (p : Nat) : Bool := decide (s.memberState p = 0 ∨ s.memberState p = 3)

/-- The position of a device id. -/
def State.posOf (s : State) (d : Nat) : Option Nat := (List.range s.gn).find? fun p => s.memberId p = d

/-- The position that this device holds frames for: its own, or that of the id it has assumed or is assuming. -/
def State.myPos (s : State) : Nat :=
  if 2 ≤ s.fld Fld.protSpareState then (s.posOf (s.fld Fld.protSpareFor)).getD 0 else s.fld Fld.protGroupPosition

/-! ### Placement -/

/-- The number of a stripe that placement counts by: the frame, or the frame index of a flash channel (R457 to R459). -/
def stripeRow (area stripe : Nat) : Nat := if area = 2 then stripe / 32 else stripe

/-- The position of P. -/
def State.posP (s : State) (area stripe : Nat) : Nat := stripeRow area stripe % s.gn
/-- The position of Q. -/
def State.posQ (s : State) (area stripe : Nat) : Nat := (stripeRow area stripe + 1) % s.gn

/-- The data index of a position; it holds data where that is below k. -/
def State.dataIndex (s : State) (p area stripe : Nat) : Nat := (p + 2 * s.gn - s.gm - stripeRow area stripe % s.gn) % s.gn

/-- The position that holds a data index. -/
def State.posOfIndex (s : State) (d area stripe : Nat) : Nat := (d + stripeRow area stripe + s.gm) % s.gn

/-- What this device holds of a stripe: a data index, 16 for P, 17 for Q. -/
def State.roleOf (s : State) (p area stripe : Nat) : Nat :=
  if s.gm = 2 ∧ p = s.posQ area stripe then 17 else if p = s.posP area stripe then 16 else s.dataIndex p area stripe

/-- This device holds data in a frame of an area; it always does outside a group (R457, R459). -/
def State.holdsData (s : State) (area stripe : Nat) : Bool := !s.grouped || decide (s.roleOf s.myPos area stripe < 16)

/-- The residues r at which a position holds metadata, in ascending order (R458). -/
def State.metaRows (s : State) (p : Nat) : List Nat := (List.range s.gn).filter fun r => decide (s.dataIndex p 1 r < s.gk)

/-- The stripe of a position's metadata frame `x` (R458). -/
def State.metaStripe (s : State) (p x : Nat) : Nat := x / max 1 s.gk * s.gn + (s.metaRows p).getD (x % max 1 s.gk) 0

/-- The metadata frame of a position in a stripe where it holds data (R458). -/
def State.metaFrame (s : State) (p stripe : Nat) : Nat :=
  stripe / max 1 s.gn * s.gk + ((s.metaRows p).takeWhile (· < stripe % max 1 s.gn)).length

/-- Frames of each parity region of the metadata (R455). -/
def State.metaRegion (s : State) : Nat := ceilDiv (s.fld Fld.protSizeF) (max 1 s.gk)

/-- Whole frames of the sectors of R153, reserve included. -/
def State.allFrames (s : State) : Nat := (s.fld Fld.poolSectorsTotalTotal + s.fld Fld.poolSectorsRsvRsv) / 256

/-- The sector frame that holds the metadata parity of a stripe: role 16 for P, 17 for Q (R455, R458). -/
def State.metaParity (s : State) (role stripe : Nat) : Nat :=
  s.allFrames - 1024 - s.gm * s.metaRegion + (if role = 17 then s.metaRegion else 0) + stripe / max 1 s.gn

/-- The key of a stripe. -/
def areaKey (area stripe : Nat) : Nat := area * 2 ^ 64 + stripe
/-- The key of one position's frame of a stripe. -/
def frameOf (pos area stripe : Nat) : Nat := pos * 2 ^ 72 + areaKey area stripe

/-- The stripes of an area, in number (R455, R458, R459). -/
def State.areaStripes (s : State) (area : Nat) : Nat :=
  match area with
  | 0 => s.fld Fld.protSizeS
  | 1 => s.gn * s.metaRegion
  | _ => 32 * s.fld Fld.protSizeFlFrames

/-! ### A rebuild on this device (R472, R473, R478) -/

/-- This device rebuilds frames: it has assumed an id or is assuming it, or it is a FAILED member that rebuilds in place. -/
def State.rebuildOn (s : State) : Bool :=
  s.grouped && (decide (2 ≤ s.fld Fld.protSpareState) || decide (s.memberState s.myPos = 2))

/-- The place of an area in the order of rebuild: metadata, sectors, flash. -/
def areaRank (area : Nat) : Nat := if area = 1 then 0 else if area = 0 then 1 else 2

/-- Every stripe has been rebuilt. -/
def State.rebuildOver (s : State) : Bool :=
  decide (s.fld Fld.protRebuildArea = 2) && decide (s.areaStripes 2 ≤ s.fld Fld.protRebuildStripe)

/-- This device's frame of a stripe has not been rebuilt yet. -/
def State.awaiting (s : State) (area stripe : Nat) : Bool :=
  let a := s.fld Fld.protRebuildArea
  s.rebuildOn && !s.rebuildOver && !s.built.get (areaKey area stripe) &&
    (decide (areaRank a < areaRank area) || (decide (a = area) && decide (s.fld Fld.protRebuildStripe ≤ stripe)))

/-- A stripe joins those to be rebuilt out of order. -/
def State.wantStripe (s : State) (area stripe : Nat) : State :=
  if s.resync.contains (area, stripe) then s else { s with resync := s.resync ++ [(area, stripe)] }

/-! ### P and Q (R460) -/

/-- Multiplication by g = 2 in GF(2^8) under 0x11D. -/
def rsDouble (b : Nat) : Nat := if 128 ≤ b then (2 * b) ^^^ 0x11D else 2 * b

/-- The product of two elements, over the low `n` bits of the second. -/
def rsMulBits (a : Nat) : Nat → Nat → Nat
  | 0, _ => 0
  | n + 1, b => (if b % 2 = 1 then a else 0) ^^^ rsMulBits (rsDouble a) n (b / 2)

/-- The product in GF(2^8). -/
def rsMul (a b : Nat) : Nat := rsMulBits a 8 b

/-- g to the power d. -/
def rsPow : Nat → Nat
  | 0 => 1
  | d + 1 => rsDouble (rsPow d)

/-- The inverse of an element that is not 0: its 254th power. -/
def rsInv (a : Nat) : Nat := (List.range 253).foldl (fun x _ => rsMul x a) a

/-- Every byte of a list multiplied by an element. -/
def rsScale (c : Nat) (bs : List Byte) : List Byte := bs.map fun b => BitVec.ofNat 8 (rsMul c b.toNat)

/-- Exclusive-or of two byte lists, the shorter filled with zeros. -/
def xorLists : List Byte → List Byte → List Byte
  | [], bs => bs
  | as, [] => as
  | a :: as, b :: bs => (a ^^^ b) :: xorLists as bs

/-- The sum of frames, each scaled by g to its index for Q and plain for P. -/
def paritySum (q : Bool) : List (Nat × List Byte) → List Byte
  | [] => []
  | (d, f) :: r => xorLists (if q then rsScale (rsPow d) f else f) (paritySum q r)

/-! ### Deltas (R461 to R464) -/

/-- The 32-byte header of a delta or source (R462). -/
def deltaHead (role area d stripe first count seq : Nat) : List Byte :=
  let b := leBytes 1 role ++ leBytes 1 area ++ leBytes 1 d ++ zeroBytes 1 ++ leBytes 8 stripe ++ leBytes 2 first ++ leBytes 2 count ++ leBytes 4 seq
  b ++ leBytes 4 (crc32c b) ++ zeroBytes 8

/-- A holder's parity frame goes stale: it is listed, counted and logged (R464). -/
def State.markDirty (s : State) (pos area stripe : Nat) : State :=
  let k := frameOf pos area stripe
  let s := (s.bump Fld.protStatStale).log 0x0601 0 0 (pos + area * 2 ^ 8 + stripe * 2 ^ 64)
  if s.dirty.get k then s
  else if s.dirty.length = 1048576 then s.setFld Fld.protDirtyOverflow 1
  else
    let s := { s with dirty := s.dirty.put k true }
    s.setFld Fld.protDirtyEntries s.dirty.length

/-- A message of recovery work, which no function asked for. -/
def State.recoveryHead (s : State) (dev tag : Nat) : MsgHead :=
  { dev := dev, sys := s.sys, kind := 0x30, blend := s.fld Fld.protCtrlRebuildBlend, tier := 1, tag := tag, devwork := true }

/-- The next sequence number to a receiver (R462). -/
def State.takeSeq (s : State) (dev : Nat) : State × Nat :=
  let q := s.deltaSeq.get dev
  ({ s with deltaSeq := s.deltaSeq.put dev ((q + 1) % 2 ^ 32) }, q)

/-- One delta goes to the device of a position. -/
def State.sendPiece (s : State) (pos role area d stripe first tag : Nat) (bs : List Byte) : State :=
  let (s, q) := s.takeSeq (s.memberId pos)
  s.sendMsg (s.recoveryHead (s.memberId pos) tag) (deltaHead role area d stripe first (bs.length / 256) q ++ bs)

/-- SOURCE messages of part of a frame from sector `first` on, 15 sectors each, to a device (R462). -/
def State.sendSource (s : State) (dev area role stripe : Nat) : Nat → Nat → List Byte → State
  | 0, _, _ => s
  | n + 1, first, bs =>
    if bs.isEmpty then s
    else
      let p := bs.take 3840
      let (s, q) := s.takeSeq dev
      (s.sendMsg (s.recoveryHead dev 0) (deltaHead 2 area role stripe first (p.length / 256) q ++ p)).sendSource dev area role stripe n
        (first + 15) (bs.drop 3840)

/-- A member that evacuates sends what it writes in a frame to its target too (R479). -/
def State.alsoCopy (s : State) (area stripe first : Nat) (bs : List Byte) : State :=
  if s.flag Fld.protEvacBusy then
    s.sendSource (s.fld Fld.protEvacTarget) area (s.roleOf s.myPos area stripe) stripe (bs.length / 3840 + 1) first bs
  else s

/-- A delta goes to one holder, or the holder's frame goes stale (R461, R464). -/
def State.deltaTo (s : State) (pos role area d stripe first : Nat) (bs : List Byte) : State :=
  if !s.memberIn pos then s.markDirty pos area stripe
  else
    let k := s.nextPart
    let x : Delta := { live := true, pos := pos, area := area, stripe := stripe, sent := s.us, head := role + d * 2 ^ 8 + first * 2 ^ 16, body := bs }
    ({ s with deltas := s.deltas.put k x, nextPart := k + 1 }).sendPiece pos role area d stripe first (partTag k) bs

/-- A delta of data index `d` goes to the parity holders of its stripe, in pieces of at most 15 sectors from sector `first` on (R461, R462). -/
def State.sendDeltas (s : State) (area stripe d : Nat) : Nat → Nat → List Byte → State
  | 0, _, _ => s
  | n + 1, first, bs =>
    if bs.isEmpty then s
    else
      let p := bs.take 3840
      let s := s.deltaTo (s.posP area stripe) 0 area d stripe first p
      let s := if s.gm = 2 then s.deltaTo (s.posQ area stripe) 1 area d stripe first p else s
      s.sendDeltas area stripe d n (first + 15) (bs.drop 3840)

/-- The change of part of a data frame of this device goes to the parity holders, where it is in a group, and to the target of an evacuation. -/
def State.parityOf (s : State) (area stripe first : Nat) (old new : List Byte) : State :=
  if !s.grouped then s
  else (s.sendDeltas area stripe (s.dataIndex s.myPos area stripe) (new.length / 3840 + 1) first (xorLists old new)).alsoCopy area stripe first new

/-- Sectors are written from `base` on, all in one frame, and parity with them (R461). -/
def State.writeSectors (s : State) (base : Nat) (bs : List Byte) : State :=
  let old := s.sectors.getN (256 * base) bs.length
  let s := { s with sectors := s.sectors.putN (256 * base) bs }
  s.parityOf 0 (base / 256) (base % 256) old bs

/-! ### The map area (R458, R461, R170) -/

/-- The 16 bytes of a map entry (R170). -/
def PageEntry.bytes (e : PageEntry) : List Byte :=
  leBytes 8 (e.base % 2 ^ 36 + e.count % 16 * 2 ^ 36 + e.codec % 8 * 2 ^ 40 + e.key % 1024 * 2 ^ 48 + b2n e.enc * 2 ^ 58) ++
    leBytes 8 (e.check % 2 ^ 32 + b2n e.mapped * 2 ^ 32 + b2n e.poison * 2 ^ 33)

/-- The map entry that 16 bytes hold. -/
def PageEntry.ofBytes (bs : List Byte) : PageEntry :=
  let n := leNat (bs.take 16)
  { base := bits n 0 36, count := bits n 36 4, codec := bits n 40 3, key := bits n 48 10, enc := bit n 58, check := bits n 64 32, mapped := bit n 96,
    poison := bit n 97 }

/-- The entry of a page is written to the DRAM copy of the map, and its parity with it: a pool page's entry lies in the map area, a chunk's in
the sectors of its record (R176, R218, R461). -/
def State.putEntry (s : State) (page : Nat) (e : PageEntry) : State :=
  let old := s.mapDram.get page
  let s := { s with mapDram := s.mapDram.put page e }
  if !s.grouped then s
  else if page < 2 ^ 40 then
    let st := s.metaStripe s.myPos (1024 + page / 4096)
    let pad := fun (b : List Byte) => zeroBytes (16 * (page % 16)) ++ b ++ zeroBytes (240 - 16 * (page % 16))
    s.parityOf 1 st (page % 4096 / 16) (pad old.bytes) (pad e.bytes)
  else
    let c := s.chunks.get ((page - 2 ^ 40) / 2 ^ 16)
    let sec := page % 2 ^ 16 / 16
    let at' := c.bases.getD (sec / 256) 0 + sec % 256
    s.writeSectors at' (overlay (s.sectors.getN (256 * at') 256) (16 * (page % 16)) e.bytes)

/-! ### What can be reconstructed (R468, R469) -/

/-- Whether bytes that this device cannot read can be had from its parity group. -/
inductive Recover where
  | impossible | later | possible
  deriving DecidableEq, Repr

/-- Frames of a stripe that are lost, and that are absent, at the positions of a list. -/
def State.notAvailable (s : State) (area stripe : Nat) : List Nat → Nat × Nat
  | [] => (0, 0)
  | p :: ps =>
    let (l, a) := s.notAvailable area stripe ps
    let k := frameOf p area stripe
    if s.memberState p = 2 then (l + 1, a)
    else if s.memberState p = 1 then (l, a + 1)
    else if s.dirty.get k || s.lostFrames.get k then (l + 1, a)
    else (l, a)

/-- The outcome of R469 for a stripe of which this device's own frame counts as lost where `own` is set. -/
def State.outcome (s : State) (area stripe : Nat) (own : Bool) : Recover :=
  if !s.grouped then .impossible
  else
    let (l, a) := s.notAvailable area stripe ((List.range s.gn).filter fun p => p ≠ s.myPos)
    let l := l + b2n own
    if l + a ≤ s.gm then .possible else if s.gm < l then .impossible else .later

/-- What can be had of a frame of this device that it cannot read. -/
def State.recoverState (s : State) (area stripe : Nat) : Recover := s.outcome area stripe true

/-- A page of a device that this one answers for without its data: reconstructed, or the status of R469. Which stripe it lies in the absent
device's own map tells, so the stripe is a free value. -/
def State.proxyPage (s : State) (key : Nat) : State × Except Status (List Byte) :=
  let st := s.free
  let s := s.tookFree
  match s.outcome 0 st false with
  | .possible => (s.bump Fld.protStatRecon, .ok ((Config.recoveredPage key ++ zeroBytes 4096).take 4096))
  | .later => (s.bump Fld.protStatRebuilding, .error .rebuilding)
  | .impossible => (s, .error .uncorrectable)

/-- `n` bytes of such a device, by an address in its own terms. -/
def State.proxyBytes (s : State) (addr n : Nat) : State × Except Status (List Byte) :=
  match s.proxyPage 0 with
  | (s, .error st) => (s, .error st)
  | (s, .ok _) => (s, .ok ((List.range n).map fun i => (Config.recoveredPage (2 ^ 200 + (addr + i) / 4096)).getD ((addr + i) % 4096) 0#8))

/-! ### Flash stripes at a data member (R465) -/

/-- A RECOVERY slot (R481). -/
def recoverySlot (sub flags subject other sys area d stripe : Nat) : List Byte :=
  slot16 (leBytes 1 sub ++ leBytes 1 flags ++ nameBytes subject sys ++ nameBytes other sys ++ leBytes 1 area ++ leBytes 1 d ++ leBytes 8 stripe)

/-- DEAD for this device's index of a flash stripe goes to the parity holders. -/
def State.sendDead (s : State) (stripe : Nat) : State :=
  if !s.grouped || !s.holdsData 2 stripe then s
  else
    let slot := recoverySlot 8 0 s.holdId s.dev s.sys 2 (s.dataIndex s.myPos 2 stripe) stripe
    let s := s.sendNotice 0x08 s.sys (s.memberId (s.posP 2 stripe)) slot
    if s.gm = 2 then s.sendNotice 0x08 s.sys (s.memberId (s.posQ 2 stripe)) slot else s

/-- The stripe of frame `fr` of a flash channel. -/
def flashStripe (ch fr : Nat) : Nat := 32 * fr + ch

end Sys2Proof.Machine
end

