-- ==== Sys2Proof/Machine/Units.lean ====
section
/-! DEFINITION. What a reply carries beside its result (R92, R93), and the event log's names of units. -/

namespace Sys2Proof.Machine

/-- The event log's subject kind of a unit class (spec/20, byte 13). -/
def unitKind (cls : Nat) : Nat :=
  match cls with
  | 0 => 2 | 1 => 3 | 2 => 4 | 3 => 5 | 4 => 6 | 5 => 7 | 7 => 8 | _ => 0

/-- The reply with LOAD, PACE and the DECAF bit as they are when it is formed (R85, R92, R93). -/
def State.hints (s : State) (c : Cmd) (r : Reply) : Reply :=
  { r with load := s.loadHint c.fn (Entry.op c.entry), pace := s.pace c.fn (Entry.blend c.entry),
           decaf := (s.pair c.fn (Entry.blend c.entry)).dec }

end Sys2Proof.Machine
end

