-- ==== Sys2Proof/Machine/Transport.lean ====
section
/-! DEFINITION. The meanings of the command-transport commands (spec/03). -/

namespace Sys2Proof.Machine

/-- A function exists and is not under reset: writes to its windows and its configuration space have effect (R374, R385 step 1). -/
def State.hostMay (s : State) (f : Nat) : Bool := (s.fn f).present && decide ((s.fn f).resetState = 0)

/-- The outcome of every meaning that goes on. -/
abbrev Out := Host.Outcome State Fault Refusal

/-- The command is of the fabric manager: it came through the privileged queue (R71). -/
def State.fmCmd (s : State) (c : Cmd) : Bool := decide (c.origin = none) && s.privSq c.sq

/-! ### Work for a device that this one answers for without its data (R469, R470, R476) -/

/-- `n` bytes read for such a device: the command ends with them, or with the status of R469. -/
def State.proxyRead (s : State) (t : Nat) (c : Cmd) (obj n : Nat) : State :=
  match s.proxyBytes obj n with
  | (s, .error st) => s.finish t (Res.moved st 0 n)
  | (s, .ok b) => (s.deliver c (Entry.hostBuf c.entry) b).finish t (Res.moved .ok n n)

/-- A PSCAN fragment over such a device's ranges: its records are those of pages that this device cannot name, so they are free (R476). -/
def State.proxyScan (s : State) (t k : Nat) : State :=
  match s.proxyBytes 0 (16 * (1 + s.free % (k + 1))) with
  | (s, .error st) => s.finish t { status := st, part := true }
  | (s, .ok b) => (s.modCmd t fun c => { c with recs := b }).finish t { r0 := b.length - 16 }

/-- REBUILDING is answered and counted (R470). -/
def State.turnAway (s : State) (t n : Nat) : State := (s.bump Fld.protStatRebuilding).finish t (Res.moved .rebuilding 0 n)

/-- The opcodes that write data or change leases of the device that OBJECT names (R470; SOPEN, SCLOSE and PFILL among them by their effect). -/
def opChanges (op : Nat) : Bool := op ∈ [0x05, 0x10, 0x11, 0x12, 0x14, 0x30, 0x31, 0x33, 0x34, 0x40]

/-- What becomes of a command for such a device; none where it is served as any other. -/
def State.proxyServe (s : State) (t : Nat) (c : Cmd) : Option State :=
  let e := c.entry
  let op := Entry.op e
  let n := Entry.length e
  let at' := fun (a : Nat) => decide (Addr.sys a = s.sys) && s.proxied (Addr.dev a)
  match c.proxy, c.part with
  | some _, some (obj, len, _) =>
    match op with
    | 0x20 => some (s.proxyRead t c obj len)
    | 0x32 => some (s.proxyRead t c obj len)
    | 0x21 => some (s.finish t (Res.moved .ok len len))
    | 0x42 => none
    | 0x44 => some (s.proxyScan t (Entry.spec e 52 2))
    | _ => some (s.turnAway t len)
  | p, none =>
    if opChanges op && at' (Entry.object e) then some (s.turnAway t n)
    else if decide (op = 0x41) && at' (Entry.spec e 40 8) then some (s.turnAway t n)
    else if decide (op / 16 = 8) && p.isSome then some ((s.bump Fld.wlkRtStatUnreach).finish t (Res.err .linkUnreachable))
    else if decide (op = 0x32) && at' (Entry.object e) then
      some (match s.proxyRefusal with
        | some st => s.tookFree.finish t (Res.err st)
        | none => s.tookFree.proxyRead t c (Entry.object e) n)
    else if p.isSome && decide (op = 0x20) then some (s.proxyRead t c (Entry.object e) n)
    else if p.isSome && decide (op = 0x21) then some (s.finish t (Res.moved .ok n n))
    else if p.isSome && decide (op = 0x22) then some (s.turnAway t n)
    else none
  | none, some _ => none

/-- A command's work: `work` runs where tag `t` names a command of opcode `op` that may go on; the checks of row 6 that every opcode
shares come first. -/
def State.serve (s : State) (t op : Nat) (work : Cmd → State → State) : Out :=
  match s.ready t op with
  | none => .next s
  | some c =>
    match rowSix c.entry with
    | some st => .next (s.finish t (Res.err st))
    | none => .next ((s.proxyServe t c).getD (work c s))

/-- The function's admin pair is created (R66, R68): SQ of 16 entries and CQ with SIZE + 1 entries, both of global id `f`. -/
def State.createAdmin (s : State) (f cfg : Nat) : State :=
  let priv := s.isPriv f
  let b := s.newBarista priv
  let sq : Sq := { state := .active, owner := f, loc := 0, size := 16, cq := f, barista := b.getD 0, orphan := b.isNone }
  let cq : Cq := { state := .active, owner := f, loc := 0, size := bits cfg 0 12 + 1, base := (s.rd .cmdAcqBase f 0),
                   vector := if bit cfg 18 then none else some (bits cfg 12 6) }
  let s := { s with sqs := s.sqs.put f sq, cqs := s.cqs.put f cq }
  let s := s.modFn f fun r => { r with ready := true }
  let s := s.wr .cmdAcqCfg f 0 (setBits cfg 31 1 1)
  let s := (s.setFld Fld.cmdFnStatusReady 1 f).setFld Fld.cmdFnStatusAcqErr 0 f
  if s.admittedNow f then s else s.log 0x0201 1 f (s.fn f).attach

/-- CMD_ACQ_ENABLE: the host writes `cfg` with ENABLE set to CMD_ACQ_CFG (R66, R67). -/
def execCmdAcqEnable (f cfg : Nat) (s : State) : Out :=
  let s := s.hostInput f (leBytes 8 cfg)
  let r := s.fn f
  if !r.present || r.ready || r.acqDeleting || decide (r.resetState ≠ 0) then .next s
  else if bits cfg 0 12 = 0 then
    let s := s.wr .cmdAcqCfg f 0 (setBits cfg 31 1 0)
    .next (s.setFld Fld.cmdFnStatusAcqErr 1 f)
  else .next (s.createAdmin f cfg)

/-- CMD_ACQ_DISABLE: the host writes `cfg` with ENABLE clear (R66). -/
def execCmdAcqDisable (f cfg : Nat) (s : State) : Out :=
  let s := s.hostInput f (leBytes 8 cfg)
  let r := s.fn f
  if !r.present || r.acqDeleting || decide (r.resetState ≠ 0) then .next s
  else if !r.ready then .next (s.wr .cmdAcqCfg f 0 (setBits cfg 31 1 0))
  else if decide (s.sqCount f ≠ 0) || decide (s.cqCount f ≠ 0) then .next s
  else
    let s := s.modSq f fun q => { q with state := .deleting, tail := q.head }
    let s := s.modFn f fun r => { r with acqDeleting := true }
    .next (s.reapAdmin f)

/-- Bytes of a posted BAR2 write that fall into one slot of one local SQ (R73, R75). -/
def State.landSlot (s : State) (f off : Nat) (bs : List Byte) : State :=
  match s.findSq f (off / 0x1000) with
  | none => s.bump Fld.cmdStatStray
  | some (q, r) =>
    let e := off % 0x1000 / 0x40
    if r.size ≤ e then s.bump Fld.cmdStatStray
    else
      let s := s.urnWrite (slotOff q e + off % 0x40) bs
      if decide (r.state = .active) && decide (ringCount r.size r.head e < ringCount r.size r.head r.tail) then
        s.sqError q e 1
      else s

/-- A posted write cut at slot boundaries. -/
def State.landWrite (s : State) (f off : Nat) (bs : List Byte) : Nat → State
  | 0 => s
  | n + 1 =>
    let k := 0x40 - off % 0x40
    if bs.isEmpty then s else (s.landSlot f off (bs.take k)).landWrite f (off + k) (bs.drop k) n

/-- SQ_ENTRY_WRITE: a posted write to the function's BAR2 window (R72, R73, R75). -/
def execSqEntryWrite (f off : Nat) (data : List Byte) (s : State) : Out :=
  let s := s.hostInput f data
  if 2 ^ 20 < off + data.length then .fault .noSuchAddress
  else if !s.hostMay f then .next s
  else .next (s.landWrite f off data (data.length + 1))

/-- A Cup write collision while the Barista moves the head: the doorbell stands, the Barista writes again, COLLIDE counts
(R80, R268, R269). Whether the two writes meet in one cycle is a free value. -/
def State.collide (s : State) (busy : Bool) : State :=
  if busy then
    let k := s.free % 2
    (s.tookFree).bump Fld.cmdStatCollide k
  else s

/-- SQ_TAIL_DOORBELL: tail `t` for local SQ `i` (R73, R74, R76), then acceptance (R78). -/
def execSqTailDoorbell (f i t : Nat) (s : State) : Out :=
  let s := s.hostInput f (leBytes 4 t)
  if !s.hostMay f then .next s
  else match s.findSq f i with
  | none => .next (s.bump Fld.cmdStatStray)
  | some (q, r) =>
    if r.state ≠ .active then .next s
    else if s.poisoned (0x400000 + 0x40 * q) then .next (s.sqError q t 2)
    else if decide (t < r.size) && decide (ringCount r.size r.head r.tail ≤ ringCount r.size r.head t) then
      if t = r.tail then .next s else
      let s := s.collide (decide (r.head ≠ r.tail))
      let s := s.modSq q fun r => { r with tail := t }
      .next (s.acceptEntries q 64)
    else .next (s.sqError q t 0)

/-- CQ_HEAD_DOORBELL: head `h` for local CQ `j` (R73, R89, R90). -/
def execCqHeadDoorbell (f j h : Nat) (s : State) : Out :=
  let s := s.hostInput f (leBytes 4 h)
  if !s.hostMay f then .next s
  else match s.findCq f j with
  | none => .next (s.bump Fld.cmdStatStray)
  | some (q, c) =>
    if c.state ≠ .active then .next s
    else if decide (h < c.size) && decide (ringCount c.size c.head h ≤ ringCount c.size c.head c.tail) then
      let s := s.modCq q fun c => { c with head := h }
      let s := s.flushHeld q c.held.length
      .next (s.acceptAll (s.boundSqs q))
    else
      let s := s.modCq q fun c => { c with state := .error }
      let s := s.wr .cmdCqErr f (j / 64) (s.rd .cmdCqErr f (j / 64) ||| 2 ^ (j % 64))
      .next (s.log 0x0204 13 q (h % 2 ^ 16))

/-- What an ADMIT or UPDATE gives, from its reply on: the target's admission record; a function newly admitted has pairs that nothing has
charged (R362, R381). -/
def State.admitAtReply (s : State) (c : Cmd) : State :=
  let e := c.entry
  if Entry.op e = 0x81 ∧ Entry.spec e 40 1 ≠ 1 ∧ c.reply.status = .ok then
    let f := Entry.spec e 42 1
    let d := if Entry.specBits e 44 7 1 = 1 then none else some (Entry.specBits e 44 0 6)
    let s := if Entry.spec e 40 1 = 0 then { s with pairs := s.pairs.drop fun k _ => decide (k / 64 = f) } else s
    s.modFn f fun r => { r with admitted := true, domain := d, blends := Entry.spec e 48 8 }
  else s

/-- Work-order bytes that a command completed (BLD_WIN_DONE): those of the groups that R360 charges, and of runs. -/
def workBytes (c : Cmd) : Nat :=
  let op := Entry.op c.entry
  if opMoves op && decide (op ≠ 0) then c.reply.result0 % 2 ^ 40 else 0

/-- Opcodes that change tables of the table area (R456). -/
def opTables (op : Nat) : Bool := op ∈ [0x05, 0x10, 0x11, 0x12, 0x22, 0x30, 0x31, 0x33, 0x34, 0x80, 0x84, 0x86]

/-- Opcodes whose work writes data or tables that parity covers. -/
def opStores (op : Nat) : Bool := opTables op || op ∈ [0x14, 0x40, 0x41, 0x62]

/-- A parity delta sent before the command's work ended has not been answered (R461). -/
def State.deltasOpen (s : State) (c : Cmd) : Bool := opStores (Entry.op c.entry) && s.deltas.any fun e => e.2.live && decide (e.1 < c.mark)

/-- The tables' change is written through to the table area, and its parity with it; where in the area, and what, is private (R456). -/
def State.storeTables (s : State) (tag : Nat) : State :=
  let st := s.metaStripe s.myPos (s.free % 1024)
  let bs := (Config.tableBytes s.freeCtr ++ zeroBytes 256).take 256
  let s := s.tookFree.parityOf 1 st (s.tookFree.free % 256) [] bs
  s.tookFree.modCmd tag fun c => { c with stored := true, mark := s.nextPart }

/-- One TRIGGER_SKIPPED event for each of `n` units that a trigger's staging left out. -/
def State.logUnstaged (s : State) (d e : Nat) : Nat → State
  | 0 => s
  | n + 1 => (s.logSkipped d e 1 3).logUnstaged d e n

/-- A trigger's staging has ended: the units that could not be staged are counted and logged; no reply is written (R206). -/
def State.endTrigStage (s : State) (c : Cmd) : State :=
  let n := if c.moved = 0 then libUnits c.entry else c.moved - 1
  (s.bump Fld.libStageStatSkipped n).logUnstaged (c.first / 1024) (c.first % 1024) n

/-- REPLY_WRITE: the reply of a command whose work has ended is written, or held (R85 to R91, R95). A command that was forwarded
here answers its origin instead (R127); the reply of a command accepted before a reset of its function is discarded (R387). A change of the
tables is first written through to the table area, and the reply waits for the parity holders (R456, R461). -/
def execReplyWrite (tag : Nat) (s : State) : Out :=
  let c := s.cmd tag
  if !c.live || decide (c.stage ≠ .done) then .next s
  else if s.grouped && opTables (Entry.op c.entry) && !c.reply.status.isError && !c.stored then .next (s.storeTables tag)
  else if s.deltasOpen c then .next s
  else
    let s := ({ s with cmds := s.cmds.put tag default }).admitAtReply c
    match c.origin with
    | some o => .next (((s.countDone (Entry.blend c.entry) (workBytes c)).sendReply o c).flushAcks)
    | none =>
      if c.epoch ≠ (s.fn c.fn).epoch then .next s
      else if 2 ^ 21 ≤ c.sq then .next (s.endTrigStage c)
      else if 2 ^ 20 ≤ c.sq then .next s
      else
      let q := (s.sqs.get c.sq).cq
      let r := s.hints c c.reply
      let s := s.tookFree
      let s := s.countDone (Entry.blend c.entry) (workBytes c)
      let s :=
        if s.canReply q && (s.cqs.get q).held.isEmpty then s.writeReply q r
        else s.modCq q fun k => { k with held := k.held ++ [r] }
      let s := s.reapAdmin c.fn
      .next (s.acceptEntries c.sq 64)

/-- COALESCE_TIME_EXPIRY: the age of a vector's unsignalled replies has reached TIME (R95). -/
def execCoalesceTimeExpiry (f v : Nat) (s : State) : Out :=
  let k := s.coal.get (coalKey f v)
  let t := s.fld Fld.cmdVecCoalTime f v
  if decide (k.count ≠ 0) && decide (t ≠ 0) && decide (k.since + t ≤ s.us) then .next (s.signalVector f v) else .next s

/-- MSIX_UNMASK: a vector becomes unmasked and enabled; its pending bit sends one message (R95, R384). -/
def execMsixUnmask (f v : Nat) (s : State) : Out :=
  let s := s.hostInput f []
  if !s.hostMay f then .next s
  else
  let s := s.modFn f fun r => { r with msixEnable := true, msixMaskAll := false, vecUnmasked := r.vecUnmasked ||| 2 ^ v }
  if bit (s.fn f).pba v && s.vectorOpen f v then
    .next ((s.emit (.msix f v)).modFn f fun r => { r with pba := r.pba ^^^ (r.pba &&& 2 ^ v) })
  else .next s

/-- BUS_MASTER_ENABLE_SET: held replies, acceptance and pending messages resume (R91, R384). -/
def execBusMasterEnableSet (f : Nat) (s : State) : Out :=
  let s := s.hostInput f []
  if !s.hostMay f then .next s
  else
    let s := s.modFn f fun r => { r with busMaster := true }
    let s := s.flushCqs (s.cqsOf f)
    let s := s.acceptAll (s.sqsOf f)
    .next (s.flushPending f 64)

/-- BUS_MASTER_ENABLE_CLEAR: no request goes out for the function from here on (R91). -/
def execBusMasterEnableClear (f : Nat) (s : State) : Out :=
  let s := s.hostInput f []
  if !s.hostMay f then .next s else .next (s.modFn f fun r => { r with busMaster := false })

end Sys2Proof.Machine
end

