-- ==== Sys2Proof/Machine/Blend.lean ====
section
/-! DEFINITION. The meanings of the blend events (spec/13): the µs step, the window end, commits and set switches, ageing. -/

namespace Sys2Proof.Machine

/-- Every pair is changed, by account and blend. -/
def State.mapPairs (s : State) (g : Nat → Nat → Pair → Pair) : State :=
  { s with pairs := s.pairs.map fun e => (e.1, g (e.1 / 64) (e.1 % 64) e.2) }

/-- The GUAR in force of every blend is added to its window's sum (R368). -/
def State.sumGuar (s : State) : Nat → State
  | 0 => s
  | n + 1 =>
    let s := s.sumGuar n
    if s.guarOf n = 0 then s else s.modRun n fun r => { r with guar := r.guar + s.guarOf n }

/-- BLEND_US_TICK: one µs passes: accrual and restoration of every pair (R362). Windows count from PLL lock on (R365). -/
def execBlendUsTick (s : State) : Out :=
  let s := { s with us := s.us + 1 }
  if !s.flag Fld.glbClkLock then .next s
  else
    let s := s.setFld Fld.glbCycleCycle (s.fld Fld.glbCycleCycle + s.cyclesPerMs / 1000)
    let s := s.mapPairs s.accrue
    .next (({ s with winUs := s.winUs + 1 }).sumGuar 64)

/-! ### The window end (R365) -/

/-- One blend's counters of the window are latched (step 1). -/
def State.latchBlend (s : State) (backlog : List Nat) (b : Nat) : State :=
  let r := s.blendRuns.get b
  let n := s.pairs.count fun k p => decide (k % 64 = b) && decide (0 < p.runReqs)
  let s := (s.setFld Fld.bldWinBytesBytes r.bytes b).setFld Fld.bldWinReqsCharges r.charges b
  let s := (s.setFld Fld.bldWinReqsReplies r.replies b).setFld Fld.bldWinDoneBytes r.done b
  let s := (s.setFld Fld.bldWinStateBacklogPm (min 1000 (backlog.getD b 0)) b).setFld Fld.bldWinStateActive (max 1 n) b
  s.setFld Fld.bldWinStateLatOver r.overs b

/-- One blend entry has failed its parity: FLAT (R22, R358). -/
def State.failBlend (s : State) (b : Nat) : State :=
  let s := s.setFld Fld.bldCheckFailFail (s.fld Fld.bldCheckFailFail ||| 2 ^ b)
  let s := if s.seam 2 then s
    else ((({ s with flatDone := 0, flatSets := s.fld Fld.bldActiveSet }).mapPairs fun _ _ p => { p with dec := false }).setFld Fld.bldStatusFlat 1).setSeam 2 true
  s.log 0x0802 11 b 0

/-- Blends below `n` whose parity fails. -/
def State.failBlends (s : State) (fails : Nat) : Nat → State
  | 0 => s
  | n + 1 => if bit fails n then (s.failBlends fails n).failBlend n else s.failBlends fails n

/-- A miss of a blend: counted, pending, logged, and the fabric manager's interrupt where a bit of PEND rises (R368). -/
def State.missBlend (s : State) (b kind done backlog : Nat) : State :=
  let s := if kind = 0 then s.bump Fld.bldMissRate 1 b else s.bump Fld.bldMissLat 1 b
  let s := s.tally Fld.bldMissTotal 1 b
  let pend := s.fld Fld.bldMissPendPend
  let s := (s.setFld Fld.bldMissPendPend (pend ||| 2 ^ b)).log 0x0801 11 b (kind + backlog * 2 ^ 16 + done * 2 ^ 64)
  if bit pend b || s.flag Fld.bldMissCtrlNovec then s
  else match s.privFn with
    | some f => s.sendVector f (s.fld Fld.bldMissCtrlVector)
    | none => s

/-- The guarantee-miss check of one blend (R368). -/
def State.checkMiss (s : State) (b : Nat) : State :=
  let r := s.blendRuns.get b
  let back := s.fld Fld.bldWinStateBacklogPm b
  let s := if decide (clamp 1 1000 (s.fld Fld.bldMissCtrlBacklogPm) ≤ back) && decide (r.done < r.guar) then s.missBlend b 0 r.done back else s
  if decide (1 ≤ r.overs) && decide (min 1000 (s.fld Fld.bldMissCtrlLatPm) * r.replies < 1000 * r.overs) then s.missBlend b 1 r.done back else s

/-- Something done for every blend in ascending order. -/
def State.eachBlend (s : State) (g : State → Nat → State) : State := (List.range 64).foldl g s

/-- (account, blend) pairs of the functions of attachment `h` that were charged in the window. -/
def State.chargedOn (s : State) (h : Nat) : Nat :=
  s.pairs.count fun k p => decide (k / 64 ≠ deviceAccount) && decide ((s.fn (k / 64)).attach = h) && decide (0 < p.runReqs)

/-- What the window fixes of the attachments below a number: the pairs charged on each and its limit (R361, R372). -/
def State.fixAttach (s : State) (att : List Nat) : Nat → SMap AttWindow
  | 0 => s.attPairs
  | h + 1 => (s.fixAttach att h).put h { pairs := att.getD h 0, limit := s.fld Fld.bldAttLimitMbps h }

/-- BLEND_WINDOW_END: the window in hand ends (R365 to R368). `utils`: the utilisation bytes of the arbiters; `backlog`: per mille of the window's
cycles in which GUARANTEED work of each blend waited; `fails`: the entries whose parity fails, by bit. -/
def execBlendWindowEnd (utils backlog : List Nat) (fails : Nat) (s : State) : Out :=
  if s.winUs < s.winLen then .next s
  else
    let s := s.eachBlend fun s b => s.latchBlend backlog b
    let att := (List.range 16).map s.chargedOn
    let s := s.failBlends fails 64
    let s := { s with loads := utils.map fun u => min 255 u }
    let s := if s.seam 2 then s else s.eachBlend State.checkMiss
    let s := { s with attPairs := s.fixAttach att 16 }
    let s := s.mapPairs fun _ _ p => { p with winBytes := p.runBytes, winReqs := p.runReqs, runBytes := 0, runReqs := 0 }
    let s := { s with blendRuns := [], winUs := 0, winLen := clamp 100 100000 (s.fld Fld.bldCtrlWindowUs) }
    .next (s.mapPairs s.clampPair)

/-! ### Commits and switches (R358, R359) -/

/-- The staged values may be committed (R358). -/
def State.stagedOk (s : State) : Bool :=
  let g0 := s.fld Fld.bldStageGuar0Mbps
  let g1 := s.fld Fld.bldStageGuar1Mbps
  decide (g0 ≠ noRate) && decide (g1 ≠ noRate) && decide (g0 ≤ s.fld Fld.bldStageLimit0Mbps) && decide (g1 ≤ s.fld Fld.bldStageLimit1Mbps) &&
    decide (s.fld Fld.bldStageCfgPolicy < 2)

/-- The staged values become entry `b` in one update. -/
def State.commitBlend (s : State) (b : Nat) : State :=
  let old := (s.guarOf b, s.limitOf b)
  let s := (s.setFld Fld.bldGuar0Mbps (s.fld Fld.bldStageGuar0Mbps) b).setFld Fld.bldLimit0Mbps (s.fld Fld.bldStageLimit0Mbps) b
  let s := (s.setFld Fld.bldGuar1Mbps (s.fld Fld.bldStageGuar1Mbps) b).setFld Fld.bldLimit1Mbps (s.fld Fld.bldStageLimit1Mbps) b
  let s := (s.setFld Fld.bldCfgLatNs (max 1 (s.fld Fld.bldStageCfgLatNs)) b).setFld Fld.bldCfgPolicy (s.fld Fld.bldStageCfgPolicy) b
  let fail := s.fld Fld.bldCheckFailFail
  let s := s.setFld Fld.bldCheckFailFail (setBits fail b 1 0)
  if (s.guarOf b, s.limitOf b) ≠ old then s.clampBlend b else s

/-- FLAT ends once every entry has been committed since it began: every credit is at its cap (R22, R358, R370). -/
def State.flatCommit (s : State) (b : Nat) : State :=
  if !s.seam 2 then s
  else
    let s := { s with flatDone := s.flatDone ||| 2 ^ b }
    if s.flatDone = 2 ^ 64 - 1 then ((s.setFld Fld.bldStatusFlat 0).setSeam 2 false).mapPairs s.atCaps else s

/-- BLD_COMMIT: entry `b` takes the staged values, or the commit is ignored and logged (R358). -/
def execBldCommit (b : Nat) (s : State) : Out :=
  let s := s.fmInput 0 8 b
  if s.stagedOk ∧ b < 64 then .next ((s.commitBlend b).flatCommit b) else .next (s.logIgnored 0x282028 0 b)

/-- The set of every blend is selected, and the credits of the blends that change are clamped; during FLAT only BLD_ACTIVE changes (R359). -/
def State.switchSets (s : State) (value : Nat) : State :=
  let old := s.fld Fld.bldActiveSet
  (s.setFld Fld.bldActiveSet value).eachBlend fun s b => if s.seam 2 || decide (bit old b = bit value b) then s else s.clampBlend b

/-- BLD_ACTIVE_WRITE (R359). -/
def execBldActiveWrite (value : Nat) (s : State) : Out :=
  let s := s.fmInput 0 8 value
  .next (s.switchSets (value % 2 ^ 64))

/-- BLEND_SET of a trigger: every blend of the mask takes set `set'`. -/
def State.blendSetAction (s : State) (mask set' : Nat) : State :=
  let old := s.fld Fld.bldActiveSet
  s.switchSets (if set' = 1 then old ||| mask % 2 ^ 64 else old - (old &&& mask))

/-! ### Ageing (R357) -/

/-- The `n`-th waiting flit of a virtual channel, if it is DECAF, competes as STANDARD. -/
def ageFlit (vc : Nat) : Nat → List TxFlit → List TxFlit
  | _, [] => []
  | n, w :: ws =>
    if decide (w.typ ≠ 3) && decide (w.vc = vc) then
      match n with
      | 0 => (if w.tier = 2 then { w with tier := 1 } else w) :: ws
      | n + 1 => w :: ageFlit vc n ws
    else w :: ageFlit vc n ws

/-- DECAF_AGE: the `order`-th work order waiting at arbiter `arb` has waited AGE cycles (R357). Arbiters are numbered in the order of R355's table; of
them the link transmitters, 145 + 4 × link + virtual channel, hold queues here. -/
def execDecafAge (arb order : Nat) (s : State) : Out :=
  if 145 ≤ arb ∧ arb < 401 then
    let k := (arb - 145) / 4
    .next ((s.modLink k fun l => { l with waiting := ageFlit ((arb - 145) % 4) order l.waiting }).flush k)
  else .next s

/-- A function's credits are at their caps, its dec bits clear and its window counts zero (R371). -/
def State.resetPairs (s : State) (f : Nat) : State :=
  s.mapPairs fun a b p => if a = f then { s.atCaps a b p with dec := false, runBytes := 0, runReqs := 0, winBytes := 0, winReqs := 0 } else p

end Sys2Proof.Machine
end

