-- ==== Sys2Proof/Machine/Aes.lean ====
section
/-! DEFINITION. The published ciphers that spec/06 names: AES-256 (R179, R180), its XTS mode of IEEE Std 1619 with a 256-byte data
unit (R179), and the key unwrap of RFC 3394 (R180, R123). Blocks are lists of 16 bytes. -/

namespace Sys2Proof.Machine

/-- Multiplication by x in GF(2^8) with AES's polynomial. -/
def gfDouble (a : Nat) : Nat := if a < 128 then 2 * a else (2 * a - 256) ^^^ 0x1B

/-- Product in GF(2^8): `b` taken bit by bit, `n` bits of it. -/
def gfMul (a b : Nat) : Nat → Nat
  | 0 => 0
  | n + 1 => (if b % 2 = 1 then a else 0) ^^^ gfMul (gfDouble a) (b / 2) n

/-- The inverse in GF(2^8): the 254th power; 0 for 0. -/
def gfInv (a : Nat) : Nat :=
  let m := fun x y => gfMul x y 8
  let a2 := m a a
  let a4 := m a2 a2
  let a8 := m a4 a4
  let a16 := m a8 a8
  let a32 := m a16 a16
  let a64 := m a32 a32
  let a128 := m a64 a64
  m a2 (m a4 (m a8 (m a16 (m a32 (m a64 a128)))))

/-- A byte rotated left by `k`. -/
def rotl8 (a k : Nat) : Nat := (a * 2 ^ k) % 256 + (a * 2 ^ k) / 256

/-- The S-box. -/
def sboxOf (a : Nat) : Nat :=
  let b := gfInv a
  b ^^^ rotl8 b 1 ^^^ rotl8 b 2 ^^^ rotl8 b 3 ^^^ rotl8 b 4 ^^^ 0x63

/-- The inverse S-box. -/
def invSboxOf (a : Nat) : Nat := gfInv (rotl8 a 1 ^^^ rotl8 a 3 ^^^ rotl8 a 6 ^^^ 0x05)

/-- A word of the key schedule: four bytes. -/
def xorBytes (a b : List Nat) : List Nat := List.zipWith (· ^^^ ·) a b

/-- The round constants of AES-256. -/
def aesRcon : List Nat := [0x01, 0x02, 0x04, 0x08, 0x10, 0x20, 0x40]

/-- The key schedule: words are held newest first; `i` is the number of the next word, `n` words remain. -/
def aesExpand : Nat → Nat → List (List Nat) → List (List Nat)
  | 0, _, ws => ws
  | n + 1, i, ws =>
    let t := ws.headD []
    let t :=
      if i % 8 = 0 then
        xorBytes ((t.drop 1 ++ t.take 1).map sboxOf) [aesRcon.getD (i / 8 - 1) 0, 0, 0, 0]
      else if i % 8 = 4 then t.map sboxOf
      else t
    aesExpand n (i + 1) (xorBytes (ws.getD 7 []) t :: ws)

/-- A list cut into pieces of `k`; `n` pieces. -/
def pieces (k : Nat) : Nat → List Nat → List (List Nat)
  | 0, _ => []
  | n + 1, l => l.take k :: pieces k n (l.drop k)

/-- The 15 round keys of a 32-byte key. -/
def aesKeys (key : List Nat) : List (List Nat) :=
  pieces 16 15 ((aesExpand 52 8 (pieces 4 8 key).reverse).reverse.flatten)

/-- ShiftRows on a block held column by column. -/
def shiftRows (b : List Nat) : List Nat := [0, 5, 10, 15, 4, 9, 14, 3, 8, 13, 2, 7, 12, 1, 6, 11].map (b.getD · 0)

/-- The inverse of ShiftRows. -/
def invShiftRows (b : List Nat) : List Nat := [0, 13, 10, 7, 4, 1, 14, 11, 8, 5, 2, 15, 12, 9, 6, 3].map (b.getD · 0)

/-- One column multiplied by the circulant matrix of a first row. -/
def mixColumn (row c : List Nat) : List Nat :=
  let g := fun i => (List.range 4).foldl (fun x j => x ^^^ gfMul (c.getD j 0) (row.getD ((j + 4 - i) % 4) 0) 8) 0
  (List.range 4).map g

/-- MixColumns by a first row. -/
def mixColumns (row b : List Nat) : List Nat := ((pieces 4 4 b).map (mixColumn row)).flatten

/-- Rounds 1 to 14 of the cipher; the last has no MixColumns. -/
def aesRounds : List (List Nat) → List Nat → List Nat
  | [], b => b
  | [k], b => xorBytes (shiftRows (b.map sboxOf)) k
  | k :: ks, b => aesRounds ks (xorBytes (mixColumns [2, 3, 1, 1] (shiftRows (b.map sboxOf))) k)

/-- AES-256 of one block. -/
def aesEnc (key b : List Nat) : List Nat :=
  match aesKeys key with
  | [] => b
  | k :: ks => aesRounds ks (xorBytes b k)

/-- Rounds of the inverse cipher under the reversed keys; the first has no inverse MixColumns after its key. -/
def aesInvRounds : List (List Nat) → List Nat → List Nat
  | [], b => b
  | [k], b => xorBytes ((invShiftRows b).map invSboxOf) k
  | k :: ks, b => aesInvRounds ks (mixColumns [14, 11, 13, 9] (xorBytes ((invShiftRows b).map invSboxOf) k))

/-- The inverse of AES-256 on one block. -/
def aesDec (key b : List Nat) : List Nat :=
  match (aesKeys key).reverse with
  | [] => b
  | k :: ks => aesInvRounds ks (xorBytes b k)

/-- The tweak multiplied by x in GF(2^128), bytes little-endian (IEEE Std 1619). -/
def xtsDouble (t : Nat) : Nat := if t < 2 ^ 127 then 2 * t else (2 * t - 2 ^ 128) ^^^ 0x87

/-- The 16 bytes of a block number as naturals. -/
def blockNats (n : Nat) : List Nat := (leBytes 16 n).map BitVec.toNat

/-- The little-endian number of a list of bytes held as naturals. -/
def natsLe : List Nat → Nat
  | [] => 0
  | b :: bs => b + 256 * natsLe bs

/-- XTS over `n` blocks: block function `f`, tweak `t` of the next block. -/
def xtsBlocks (f : List Nat → List Nat) : Nat → Nat → List Nat → List Nat
  | 0, _, _ => []
  | n + 1, t, bs =>
    let tw := blockNats t
    xorBytes (f (xorBytes (bs.take 16) tw)) tw ++ xtsBlocks f n (xtsDouble t) (bs.drop 16)

/-- A key of 32 bytes held as a number. -/
def keyNats (k : Nat) : List Nat := (leBytes 32 k).map BitVec.toNat

/-- One 256-byte sector encrypted with key pair `k1`, `k2` under tweak `t` (R179). -/
def xtsEnc (k1 k2 t : Nat) (sector : List Byte) : List Byte :=
  (xtsBlocks (aesEnc (keyNats k1)) 16 (natsLe (aesEnc (keyNats k2) (blockNats t))) (sector.map BitVec.toNat)).map (BitVec.ofNat 8)

/-- One 256-byte sector decrypted (R179). -/
def xtsDec (k1 k2 t : Nat) (sector : List Byte) : List Byte :=
  (xtsBlocks (aesDec (keyNats k1)) 16 (natsLe (aesEnc (keyNats k2) (blockNats t))) (sector.map BitVec.toNat)).map (BitVec.ofNat 8)

/-- A number of 64 bits as eight bytes, most significant first. -/
def be64 (n : Nat) : List Nat := ((leBytes 8 n).map BitVec.toNat).reverse

/-- One step of the RFC 3394 unwrap, `t` from 6n down to 1, on A and the registers R[1..n] (first register first). -/
def unwrapSteps (kek : List Nat) (n : Nat) : Nat → List Nat → List (List Nat) → List Nat × List (List Nat)
  | 0, a, rs => (a, rs)
  | t + 1, a, rs =>
    let i := t % n
    let b := aesDec kek (xorBytes a (be64 (t + 1)) ++ rs.getD i [])
    unwrapSteps kek n t (b.take 8) (rs.set i (b.drop 8))

/-- RFC 3394 unwrap of 72 bytes under the key-encryption key: the 64-byte key pair, or none where the integrity check fails. -/
def keyUnwrap (kek : Nat) (wrapped : List Byte) : Option (List Nat) :=
  let w := wrapped.map BitVec.toNat
  let r := unwrapSteps (keyNats kek) 8 48 (w.take 8) (pieces 8 8 (w.drop 8))
  if r.1 = List.replicate 8 0xA6 then some r.2.flatten else none

end Sys2Proof.Machine
end

