-- ==== Sys2Proof/Machine/DramMap.lean ====
section
/-! DEFINITION. Physical addresses of DRAM (spec/12, R329 to R333): mapping orders, the bank hash, where a burst lies. -/

namespace Sys2Proof.Machine

/-- The low fields of an address: subchannel, channel, bank group, bank, burst column. -/
inductive MapField where
  | sub | chan | group | bank | col
  deriving DecidableEq, Repr

/-- Fields of bits 6 to 22 under an order, lowest bit first, as runs (R330). -/
def orderRuns (order : Nat) : List (MapField × Nat) :=
  match order with
  | 0 => [(.sub, 1), (.chan, 4), (.group, 3), (.bank, 2), (.col, 7)]
  | 1 => [(.col, 3), (.sub, 1), (.chan, 4), (.group, 3), (.bank, 2), (.col, 4)]
  | 2 => [(.col, 6), (.sub, 1), (.chan, 4), (.group, 3), (.bank, 2), (.col, 1)]
  | _ => [(.col, 7), (.sub, 1), (.chan, 4), (.group, 3), (.bank, 2)]

/-- The fields of the bits from bit 6 on, one by one. -/
def orderBits (order : Nat) : List MapField := (orderRuns order).flatMap fun r => List.replicate r.2 r.1

/-- The address bits that an order gives a field, lowest first. -/
def fieldPlaces (order : Nat) (f : MapField) : List Nat :=
  (((List.range 17).zip (orderBits order)).filter fun x => decide (x.2 = f)).map (6 + ·.1)

/-- A field's value as the order places it. -/
def placed (order : Nat) (f : MapField) (a : Nat) : Nat :=
  (fieldPlaces order f).foldr (fun p n => b2n (bit a p) + 2 * n) 0

/-- Selector `j` of a hash register. -/
def selector (h j : Nat) : Nat := bits h (6 * j) 6

/-- The exclusive-or of the address bits that a hash register names (R332). -/
def hashBit (h a : Nat) : Bool := (List.range 8).foldl (fun x j => x != (decide (selector h j ≠ 0) && bit a (selector h j))) false

/-- Bank group and bank of an address with the hash registers in force (R332). -/
def State.bankBits (s : State) (a : Nat) : Nat × Nat :=
  let o := s.fld Fld.drcMapOrder
  let hx := fun (k : Nat) => b2n (hashBit (s.fld Fld.drcHashSel0Sel7 k) a)
  let g := placed o .group a ^^^ (hx 0 + 2 * hx 1 + 4 * hx 2)
  let k := placed o .bank a ^^^ (hx 3 + 2 * hx 4)
  (g, k)

/-- Bits of row, rank and DIMM of the installed population (R327, R329). -/
def State.popBits (s : State) : Nat × Nat × Nat :=
  (16 + s.fld Fld.drcStateDensity, s.fld Fld.drcStateRanks, if s.fld Fld.drcStateDimms = 2 then 1 else 0)

/-- Bits of the installed capacity. -/
def State.capBits (s : State) : Nat := 23 + s.popBits.1 + s.popBits.2.1 + s.popBits.2.2

/-- Where a burst lies: channel, rank-subchannel index, bank (group × 4 + bank), row. -/
structure Burst where
  chan : Nat
  rsub : Nat
  bank : Nat
  row : Nat
  deriving DecidableEq, Repr

/-- The place of a physical address (R329 to R332). -/
def State.burstAt (s : State) (a : Nat) : Burst :=
  let o := s.fld Fld.drcMapOrder
  let (r, k, d) := s.popBits
  let (g, b) := s.bankBits a
  { chan := placed o .chan a, rsub := 8 * placed o .sub a + 4 * bits a (23 + r + k) d + bits a (23 + r) k, bank := 4 * g + b, row := bits a 23 r }

/-- A physical address lies below the point that initialisation has reached (R347). -/
def State.initialised (s : State) (a : Nat) : Bool :=
  s.flag Fld.drcInitDone || decide (a < s.fld Fld.drcInitDoneGib * 2 ^ 30)

/-- A value of DRC_HASH_NEXT names only what R333 lets it name: bits 6 to 42 that the next order does not assign to G or K and that lie within
the capacity, none twice. -/
def State.hashOk (s : State) (v : Nat) : Bool :=
  let o := s.fld Fld.drcMapNextOrder
  let sel := ((List.range 8).map (selector v)).filter fun x => decide (x ≠ 0)
  let banks := fieldPlaces o .group ++ fieldPlaces o .bank
  (sel.all fun x => decide (6 ≤ x) && decide (x ≤ 42) && decide (x ∉ banks) && decide (x < s.capBits)) && decide sel.Nodup

end Sys2Proof.Machine
end

