-- ==== Sys2Proof/Machine/Pages.lean ====
section
/-! DEFINITION. Pages and sectors (spec/06; R153, R155, R156): the page map with its write-back log, allocation and freeing of
sectors, storing and reading one page, and ranges of pages. -/

namespace Sys2Proof.Machine

/-! ### The page map (R170, R176, R177) -/

/-- The map entry of a page: its newest unretired record, else the DRAM copy (R176). -/
def State.mapEntry (s : State) (key : Nat) : PageEntry :=
  match s.mapLog.reverse.find? (fun r => r.page = key) with
  | some r => r.entry
  | none => s.mapDram.get key

/-- A map lookup is counted as a hit or a miss of the map cache: which, the spec leaves to the cache's contents; in DIRECT every
lookup is a miss (R20). -/
def State.countLookup (s : State) : State :=
  if s.seam 1 then s.tally Fld.grdMapcMissMisses
  else if s.free % 2 = 0 then s.tookFree.tally Fld.grdMapcHitHits else s.tookFree.tally Fld.grdMapcMissMisses

/-- The log has room for `n` more records; in DIRECT no record is written (R20, R177). -/
def State.logRoom (s : State) (n : Nat) : Bool := s.seam 1 || decide (s.mapLog.length + n ≤ 16384)

/-- A map entry is updated: one record in the log, or the DRAM copy at once in DIRECT (R20, R176). -/
def State.setEntry (s : State) (key : Nat) (e : PageEntry) : State :=
  if s.seam 1 then s.putEntry key e
  else
    let s := { s with mapLog := s.mapLog ++ [LogRec.mk key e s.logSeq], logSeq := (s.logSeq + 1) % 2 ^ 32 }
    s.setFld Fld.grdLogFill s.mapLog.length

/-! ### Free sectors and the space level (R153, R155, R156) -/

/-- The level after a change: 0 NORMAL, 1 LOW, 2 CRITICAL (the computation of R156). -/
def spaceLevel (level free low crit h : Nat) : Nat :=
  let new := if free < crit then 2 else if free < low && level = 0 then 1 else level
  let new := if new = 2 && crit + h ≤ free then 1 else new
  if new = 1 && low + h ≤ free then 0 else new

/-- The level of R156 after an allocation or a free, with its flag and its one event. -/
def State.levelCheck (s : State) : State :=
  let total := s.fld Fld.poolSectorsTotalTotal
  let free := s.fld Fld.poolSectorsFreeFree
  let low := total * s.fld Fld.poolWmarkLow / 1000
  let crit := total * min (s.fld Fld.poolWmarkCrit) (s.fld Fld.poolWmarkLow) / 1000
  let new := spaceLevel (s.fld Fld.poolSpaceLevel) free low crit (total / 100)
  if new = s.fld Fld.poolSpaceLevel then s
  else
    let s := (s.setFld Fld.poolSpaceLevel new).setFld Fld.poolSpaceChanged 1
    s.log (if new = 2 then 0x0307 else if new = 1 then 0x0306 else 0x0308) 0 0 (free * 2 ^ 64)

/-- `n` sectors from `base` on are free, usable and within one frame (R155, R172) in which this device holds data (R457) and which no LOCK holds
(R473), rebuilt where a rebuild runs (R473), and initialised (R347). -/
def State.runFits (s : State) (base n : Nat) : Bool :=
  decide (base % 256 + n ≤ 256) && s.holdsData 0 (base / 256) && (s.locks.get (areaKey 0 (base / 256))).isNone && !s.awaiting 0 (base / 256) &&
    decide (base + n ≤ s.fld Fld.poolSectorsTotalTotal) && (List.range n).all (fun i => s.initialised (Config.sectorAddr (base + i))) && s.alloc.all fun e => !rangesMeet base n e.1 e.2

/-- Where a run of `n` sectors could next begin at or after `b` without crossing a frame. -/
def nextInFrame (b n : Nat) : Nat := if b % 256 + n ≤ 256 then b else (b / 256 + 1) * 256

/-- The lowest free run of `n` sectors. -/
def State.firstRun (s : State) (n : Nat) : Option Nat :=
  ((0 :: s.alloc.map fun e => e.1 + e.2).map (nextInFrame · n)).find? fun b => s.runFits b n

/-- Where the next `n` sectors go: the device's own placement where it is a free run, else the lowest free run; none where no frame
holds one (R155). -/
def State.pickRun (s : State) (n : Nat) : Option Nat :=
  let p := Config.placeSectors s.freeCtr
  if s.runFits p n then some p else s.firstRun n

/-- `n` sectors from `base` on are taken. -/
def State.takeRun (s : State) (base n : Nat) : State :=
  let s := { s with alloc := s.alloc.put base n, freeCtr := s.freeCtr + 1 }
  (s.setFld Fld.poolSectorsFreeFree (s.fld Fld.poolSectorsFreeFree - n)).levelCheck

/-- The run that begins at `base` is freed. -/
def State.freeRun (s : State) (base : Nat) : State :=
  let n := s.alloc.get base
  if n = 0 then s
  else
    let s := { s with alloc := s.alloc.put base 0 }
    (s.setFld Fld.poolSectorsFreeFree (s.fld Fld.poolSectorsFreeFree + n)).levelCheck

/-- The sectors of an entry wait to be freed under R19. -/
def State.retireRun (s : State) (e : PageEntry) : State :=
  if e.mapped && decide (e.codec ≠ 0) then
    { s with oldRuns := s.oldRuns ++ [OldRun.mk e.base (e.count + 1) ((s.logSeq + 2 ^ 32 - 1) % 2 ^ 32)] }
  else s

/-! ### One page -/

/-- The sectors of a page encrypted or decrypted one by one under tweak `addr + 256 * j` (R179). -/
def cryptSectors (f : Nat → List Byte → List Byte) (addr : Nat) : Nat → List Byte → List Byte
  | 0, _ => []
  | n + 1, bs => f addr (bs.take 256) ++ cryptSectors f (addr + 256) n (bs.drop 256)

/-- Where and how the pages of an object are kept: for each page its map key, its tweak address, and the hint, encryption and key
slot it was claimed with. An argument of the page operations, never a part of State. -/
structure PageSpace where
  keyOf : Nat → Nat
  addrOf : Nat → Nat
  hintOf : Nat → Nat
  encOf : Nat → Bool
  slotOf : Nat → Nat

/-- The counts of a page stored by a write (spec/06, Registers). -/
def State.countStored (s : State) (hint n : Nat) (c : Coded) : State :=
  let s := if c.mismatch then s.bump Fld.grdErrWverifyFail else s
  let s := (s.tally Fld.grdPagesCount 1 c.codec).tally Fld.grdBytesInBytes pageSize
  let s := (s.tally Fld.grdSectorsOutSectors n).tally Fld.grdHintInBytes pageSize hint
  s.tally Fld.grdHintOutSectors n hint

/-- A page is coded, its sectors written to a new run, and its map entry updated; the old sectors wait under R19 (R160, R173, R182).
NO_SPACE where no frame holds a run long enough (R155). -/
def State.storePage (s : State) (ps : PageSpace) (n : Nat) (page : List Byte) : Except Status State :=
  let c := codePage (ps.hintOf n) (s.flag Fld.grdCtrlWverify) page
  let k := c.bytes.length / 256
  let old := s.mapEntry (ps.keyOf n)
  let e : PageEntry := { codec := c.codec, check := crc32c page, mapped := true }
  if k = 0 then .ok (((s.countStored (ps.hintOf n) 0 c).setEntry (ps.keyOf n) e).retireRun old)
  else match s.pickRun k with
    | none => .error .noSpace
    | some b =>
      let ks := s.keys.get (ps.slotOf n)
      let bs := if ps.encOf n then cryptSectors (xtsEnc ks.key1 ks.key2) (ps.addrOf n) k c.bytes else c.bytes
      let s := s.takeRun b k
      let s := (s.writeSectors b bs).countStored (ps.hintOf n) k c
      let e := { e with base := b, count := k - 1, key := if ps.encOf n then ps.slotOf n else 0, enc := ps.encOf n }
      .ok ((s.setEntry (ps.keyOf n) e).retireRun old)

/-- The page that stored bytes decode to: a value, or how it failed (0 check value, 1 invalid container or stream). The top `q`
planes of a PLANE page are taken; a page limited in that way is not compared with its check value (R168, R208, R209). -/
def decodeStored (e : PageEntry) (q : Nat) (bs : List Byte) : Except Nat (List Byte) :=
  match e.codec with
  | 0 => .ok (zeroBytes pageSize)
  | 1 => if crc32c bs = e.check then .ok bs else .error 0
  | _ =>
    let c := Container.ofBytes bs
    if 5 ≤ e.codec || !c.valid e (bits (leNat (bs.take 8)) 16 16) then .error 1
    else match payloadDecode c.codec c.param q c.payload with
      | none => .error 1
      | some p =>
        if e.codec = 4 && decide (q < planeWidth c.param) then .ok p
        else if crc32c p = e.check then .ok p else .error 0

/-- The stored bytes of an entry, decrypted (R182). -/
def State.storedBytes (s : State) (e : PageEntry) (addr : Nat) : List Byte :=
  let bs := s.sectors.getN (256 * e.base) (256 * (e.count + 1))
  if e.enc then cryptSectors (xtsDec (s.keys.get e.key).key1 (s.keys.get e.key).key2) addr (e.count + 1) bs else bs

/-- An entry whose page cannot be recovered is set POISON, if it is still the page's current map entry (R168). -/
def State.poisonEntry (s : State) (key : Nat) (e : PageEntry) : State :=
  if s.mapEntry key = e then (s.setEntry key { e with poison := true }).bump Fld.grdErrPoisoned else s

/-- A page that failed to decode: counted, reconstructed from its parity set where that can be done, else UNCORRECTABLE with POISON,
or REBUILDING (R168). -/
def State.recoverPage (s : State) (key addr : Nat) (e : PageEntry) (how : Nat) : State × Except Status (List Byte) :=
  let s := if how = 0 then s.bump Fld.grdErrCheckFail else s.bump Fld.grdErrDecodeErr
  let ev := fun (s : State) (r : Nat) => s.log 0x0401 0 0 (e.codec + how * 2 ^ 8 + r * 2 ^ 16 + addr * 2 ^ 64)
  match s.recoverState 0 (e.base / 256) with
  | .later => ((ev s 2).bump Fld.protStatRebuilding, .error .rebuilding)
  | .possible =>
    let p := Config.recoveredPage key
    if p.length = pageSize ∧ crc32c p = e.check then ((ev s 0).bump Fld.protStatRecon, .ok p)
    else ((ev s 1).poisonEntry key e, .error .uncorrectable)
  | .impossible => ((ev s 1).poisonEntry key e, .error .uncorrectable)

/-- Page `n` of an object is read through entry `e` (R168, R169, R171, R182); a key from 2^68 on is a page of a device that this one answers for
without its data (R469). -/
def State.readEntry (s : State) (key addr q : Nat) (e : PageEntry) : State × Except Status (List Byte) :=
  if 2 ^ 68 ≤ key then s.proxyPage key
  else if e.poison then (s, .error .uncorrectable)
  else if !e.mapped then (s, .ok (zeroBytes pageSize))
  else match decodeStored e q (s.storedBytes e addr) with
    | .ok p => (s, .ok p)
    | .error how => s.recoverPage key addr e how

/-- Page `n` of an object is read at its current entry. -/
def State.readPage (s : State) (ps : PageSpace) (q n : Nat) : State × Except Status (List Byte) :=
  let s := s.countLookup
  s.readEntry (ps.keyOf n) (ps.addrOf n) q (s.mapEntry (ps.keyOf n))

/-! ### Ranges -/

/-- Bytes `off` to `off + len - 1` of an object read page by page, `fuel` pages at most: the bytes of the prefix read, and the
status that ended it. -/
def State.readRange (s : State) (ps : PageSpace) (q : Nat) : Nat → Nat → Nat → State × List Byte × Option Status
  | 0, _, _ => (s, [], none)
  | fuel + 1, off, len =>
    if len = 0 then (s, [], none)
    else
      let k := min len (pageSize - off % pageSize)
      match s.readPage ps q (off / pageSize) with
      | (s, .error st) => (s, [], some st)
      | (s, .ok p) =>
        let (s, rest, st) := s.readRange ps q fuel (off + k) (len - k)
        (s, (p.drop (off % pageSize)).take k ++ rest, st)

/-- Bytes written over an object from `off` on, page by page: a whole page is stored as it stands, a part is merged into the page
read (R175). The count of bytes written, and the status that ended it. -/
def State.writeRange (s : State) (ps : PageSpace) : Nat → Nat → List Byte → State × Nat × Option Status
  | 0, _, _ => (s, 0, none)
  | fuel + 1, off, bs =>
    if bs.isEmpty then (s, 0, none)
    else
      let k := min bs.length (pageSize - off % pageSize)
      let n := off / pageSize
      let merged : State × Except Status (List Byte) :=
        if k = pageSize then (s, .ok (bs.take k))
        else match s.readPage ps 8 n with
          | (s, .ok p) => (s, .ok (overlay p (off % pageSize) (bs.take k)))
          | (s, .error st) => (s, .error st)
      match merged with
      | (s, .error st) => (s, 0, some st)
      | (s, .ok page) =>
        match s.storePage ps n page with
        | .error st => (s, 0, some st)
        | .ok s =>
          let (s, m, st) := s.writeRange ps fuel (off + k) (bs.drop k)
          (s, k + m, st)

/-- Pages that a byte range touches. -/
def pageCount (off len : Nat) : Nat := if len = 0 then 0 else (off + len - 1) / pageSize - off / pageSize + 1

/-! ### Room for writes (R177, R347) -/

/-- The first stripe whose rebuild would give room for a page, where none of the frames rebuilt so far has any (R473). -/
def State.stripeWanted (s : State) : Option Nat :=
  if !s.rebuildOn || s.rebuildOver || (s.pickRun 16).isSome then none
  else (((s.setFld Fld.protRebuildArea 2).setFld Fld.protRebuildStripe (2 ^ 56 - 1)).firstRun 16).map (· / 256)

/-- Pages that may be written now: as many as the write-back log has room for; while DRAM is still being initialised or frames are being rebuilt
one at a time, and none where every run lies beyond the point reached. -/
def State.pageRoom (s : State) (n : Nat) : Nat :=
  let k := if s.seam 1 then n else min n (16384 - s.mapLog.length)
  if s.stripeWanted.isSome then 0
  else if s.flag Fld.drcInitDone then (if s.rebuildOn && !s.rebuildOver then min 1 k else k)
  else if (s.pickRun 16).isSome then min 1 k else 0

/-- A write that waits for room in the log is counted (R177); one that waits for a frame has its stripe rebuilt first (R473). -/
def State.countStall (s : State) : State :=
  let s := match s.stripeWanted with
    | some x => s.wantStripe 0 x
    | none => s
  if s.seam 1 || decide (s.mapLog.length < 16384) then s else s.bump Fld.grdLogStalls

end Sys2Proof.Machine
end

