-- ==== Sys2Proof/Machine/PoolOps.lean ====
section
/-! DEFINITION. Shared operations of the pool (spec/05): the page space of pool addresses, partitions, leases and their end, capacity. -/

namespace Sys2Proof.Machine

/-- The object address names this device, or one that it answers for (R35, R467). -/
def State.isHere (s : State) (a : Nat) : Bool := decide (Addr.sys a = s.sys) && (s.mine (Addr.dev a) || s.proxied (Addr.dev a))

/-- The page space of this device's pool: each page under the hint, key slot and encryption of its extent (spec/05, CLAIM). -/
def State.poolSpace (s : State) : PageSpace :=
  let ext := fun n => ((s.extentAt (n / 512)).map (·.2)).getD default
  { keyOf := id, addrOf := fun n => Addr.pool s.sys s.holdId (n * pageSize), hintOf := fun n => (ext n).hint,
    encOf := fun n => (ext n).enc, slotOf := fun n => (ext n).key }

/-- A key slot is loaded and assigned to `w`: KEY_LOAD names the owner by its index alone, or as the fabric manager, which TEN_FM names (R111,
R115, R180, R377). -/
def State.keyHeld (s : State) (w : Who) (slot : Nat) : Bool :=
  let k := s.keys.get slot
  let fm := s.flag Fld.tenFmValid && decide (s.fld Fld.tenFmDevid = w.dev) && decide (s.fld Fld.tenFmFunc = w.fn)
  k.loaded && (if k.fm then fm else decide (k.owner = w.fn))

/-- The command's deadline counts as missed now: it passed, and its domain is LIVE (R52, R54). -/
def State.lateNow (s : State) (c : Cmd) : Bool :=
  match c.deadline with
  | none => false
  | some dl => decide ((s.dom dl.domain).state = .live) && (c.missed || s.deadlineMissed dl)

/-- An ABANDON command whose deadline passed before its work began ends with DEADLINE_MISSED (R53). -/
def State.abandoned (s : State) (c : Cmd) : Bool := decide (Entry.dlMode c.entry = 3) && !c.started && s.lateNow c

/-- A command of function `f` on its home device was refused as a double or a foreign free: it is counted (R152). -/
def State.countFree (s : State) (w : Who) (st : Status) : State :=
  if w.dev ≠ s.dev then s
  else match st with
    | .alreadyFree => s.bump Fld.poolFnStatDouble 1 w.fn
    | .notOwner => s.bump Fld.poolFnStatForeign 1 w.fn
    | _ => s

/-- The lease length in s that is granted: the length asked for, 30 for 0, at most LEASE_MAX of the caller's home (R136). -/
def State.leaseOf (s : State) (w : Who) (asked : Nat) : Nat :=
  let l := if asked = 0 then 30 else asked
  if w.dev = s.dev then min l (clamp 1 3600 (s.fld Fld.poolFnLimitLeaseMax w.fn)) else min l 3600

/-! ### The lease index of a home device (R137) -/

/-- A lease enters the index of its holder's home device, when that is this one. -/
def State.addLease (s : State) (w : Who) (r : LeaseRef) : State :=
  if w.dev ≠ s.dev then s
  else
    let s := { s with lindex := s.lindex.upd w.fn fun l => l ++ [r] }
    let s := s.setFld Fld.poolTablesLindexFree (s.fld Fld.poolTablesLindexFree - 1)
    s.setFld Fld.poolFnUseLeases (s.fld Fld.poolFnUseLeases w.fn + 1) w.fn

/-- A lease leaves the index of its holder's home device; another device is told by a TABLE notice with no entry and change code 4 (R147). -/
def State.dropLease (s : State) (w : Who) (r : LeaseRef) : State :=
  if w.dev ≠ s.dev then
    s.sendNotice 0x06 (s.sysOf w.dev) (w.dev % 1024)
      (zeroBytes 80 ++ slot16 (leBytes 1 4 ++ leBytes 1 w.fn ++ leBytes 2 (w.name s.sys) ++ zeroBytes 4 ++ leBytes 8 r.addr))
  else if !(s.lindex.get w.fn).contains r then s
  else
    let s := { s with lindex := s.lindex.upd w.fn fun l => l.erase r }
    let s := s.setFld Fld.poolTablesLindexFree (s.fld Fld.poolTablesLindexFree + 1)
    s.setFld Fld.poolFnUseLeases (s.fld Fld.poolFnUseLeases w.fn - 1) w.fn

/-- The home device can take one more lease of the function (R137). -/
def State.leaseRoom (s : State) (w : Who) : Bool :=
  decide (w.dev ≠ s.dev) ||
    (decide (0 < s.fld Fld.poolTablesLindexFree) && decide (s.fld Fld.poolFnUseLeases w.fn < min 65536 (s.fld Fld.poolFnLimitExtents w.fn)))

/-! ### Partitions (R130 to R133) -/

/-- Ranges of one device that touch or overlap `r` are merged with it. -/
def mergeRange (r : PRange) : List PRange → List PRange
  | [] => [r]
  | x :: xs =>
    if x.dev = r.dev && decide (r.start ≤ x.start + x.len) && decide (x.start ≤ r.start + r.len) then
      let a := min x.start r.start
      let b := max (x.start + x.len) (r.start + r.len)
      mergeRange ⟨r.dev, a, b - a⟩ xs
    else x :: mergeRange r xs

/-- The ranges left of a record when `r` is taken away. -/
def cutRange (r : PRange) (l : List PRange) : List PRange :=
  l.flatMap fun x =>
    if x.dev = r.dev && rangesMeet x.start x.len r.start r.len then
      (if x.start < r.start then [PRange.mk x.dev x.start (r.start - x.start)] else []) ++
        (if r.start + r.len < x.start + x.len then [PRange.mk x.dev (r.start + r.len) (x.start + x.len - (r.start + r.len))] else [])
    else [x]

/-- A function's partition record is replaced, and the counts with it (POOL_RANGES, POOL_FN_USE.RANGES). -/
def State.setPart (s : State) (f : Nat) (l : List PRange) : State :=
  let n := (s.partitions.get f).length
  let s := { s with partitions := s.partitions.put f l }
  let s := s.setFld Fld.poolRangesFree (s.fld Fld.poolRangesFree + n - l.length)
  s.setFld Fld.poolFnUseRanges l.length f

/-- Granules `[g, g + n)` of this device get an owner, or lose it. -/
def State.ownGranules (s : State) (o : Option Who) (g : Nat) : Nat → State
  | 0 => s
  | n + 1 => { s.ownGranules o g n with owners := (s.ownGranules o g n).owners.put (g + n) o }

/-- The first owner of a granule of `[g, g + n)` other than `w`. -/
def State.foreignOwner (s : State) (w : Who) (g : Nat) : Nat → Option Who
  | 0 => none
  | n + 1 =>
    match s.foreignOwner w g n with
    | some x => some x
    | none => match s.owners.get (g + n) with
      | some x => if x = w then none else some x
      | none => none

/-! ### The end of a lease (R144 to R151) -/

/-- Functions that hold a grant, kept as former grantees (R112). -/
def granteesOf (gs : List Grant) : List Who := gs.map (·.who)

/-- The pool address of the extent that starts at granule `k` of this device. -/
def State.extentAddr (s : State) (k : Nat) : Nat := Addr.pool s.sys s.holdId (k * mib2)

/-- An extent's lease is revoked with no grace: ORPHANED at once, grants deleted; `why` 0 SEIZE, 1 partition removal (R125, R133,
R151). -/
def State.revokeExtent (s : State) (k why : Nat) : State :=
  let e := s.extents.get k
  if e.state ≠ .live ∧ e.state ≠ .expired then s
  else
    let s := { s with extents := s.extents.put k { e with state := .orphaned, former := e.former ++ granteesOf e.grants, grants := [] } }
    let s := if e.claimant.dev = s.dev then s.bump Fld.poolFnStatSeized 1 e.claimant.fn else s
    s.log 0x0304 1 e.claimant.fn (e.claimant.dev + why * 2 ^ 16 + s.extentAddr k * 2 ^ 64)

/-- A stream's lease is revoked with no grace (R233). -/
def State.revokeStream (s : State) (i : Nat) : State :=
  let r := s.streams.get i
  if r.state ≠ .opened ∧ r.state ≠ .expired then s
  else
    let s := { s with streams := s.streams.put i { r with state := .orphaned, former := r.former ++ granteesOf r.grants, grants := [] } }
    let s := if r.opener.dev = s.dev then s.bump Fld.poolFnStatSeized 1 r.opener.fn else s
    s.log 0x0304 1 r.opener.fn (r.opener.dev + Addr.seq s.sys s.holdId i r.gen 0 * 2 ^ 64)

/-- Every extent of a list is revoked. -/
def State.revokeExtents (s : State) (why : Nat) : List Nat → State
  | [] => s
  | k :: ks => (s.revokeExtent k why).revokeExtents why ks

/-- What a lease address names on this device: the extent that starts there, else the stream of that index and generation. -/
inductive LeaseObj where
  | extent (k : Nat)
  | stream (i : Nat)
  deriving DecidableEq, Repr

/-- The extent or stream that an object address of RENEW, GRANT or SEIZE names (the two forms share their bits; an extent that starts
there is taken first). -/
def State.leaseObj (s : State) (a : Nat) : Option LeaseObj :=
  let k := Addr.off a / mib2
  if decide (Addr.off a % mib2 = 0) && decide ((s.extents.get k).state ≠ .free) then some (.extent k)
  else if (s.streamOf a).isSome then some (.stream (Addr.stream a))
  else none

/-- The leases that a lease index names are revoked where they lie on this device: how many there were in force or in grace. -/
def State.revokeHere (s : State) : List LeaseRef → State × Nat
  | [] => (s, 0)
  | r :: rs =>
    let (s, n) : State × Nat :=
      if !s.mine r.dev then (s, 0)
      else match s.leaseObj r.addr with
        | some (.extent k) =>
          let hit := decide ((s.extents.get k).state = .live ∨ (s.extents.get k).state = .expired)
          (s.revokeExtent k 0, b2n hit)
        | some (.stream i) =>
          let hit := decide ((s.streams.get i).state = .opened ∨ (s.streams.get i).state = .expired)
          (s.revokeStream i, b2n hit)
        | none => (s, 0)
    let (s, m) := s.revokeHere rs
    (s, n + m)

/-! ### Capacity (R153, R154) -/

/-- Sectors of `dram` GiB that are left when the map of `logical` GiB and `stage` GiB of staging are taken out. -/
def sectorsLeft (dram logical stage : Nat) : Nat := (dram * 2 ^ 30 - logical * 2 ^ 22 - stage * 2 ^ 30) / 256

/-- Usable sectors once the recovery reserve, 1 % of them, is set aside. -/
def usableSectors (dram logical stage : Nat) : Nat := sectorsLeft dram logical stage - sectorsLeft dram logical stage / 100

/-- PROT_SIZE for the sizes in force: metadata frames F, the table area's 1024 and those of the map, and the sector frames S below the metadata
parity area (R455). -/
def State.sizeParity (s : State) : State :=
  let s := s.setFld Fld.protSizeF (1024 + 64 * s.fld Fld.poolLogicalGib)
  s.setFld Fld.protSizeS (s.allFrames - 1024 - s.gm * s.metaRegion)

/-- The sector counts of R153 for the sizes in force. -/
def State.countSectors (s : State) : State :=
  let n := sectorsLeft s.dramGib (s.fld Fld.poolLogicalGib) (s.fld Fld.libStageDramGib)
  let used := (s.alloc.map (·.2)).sum
  let s := s.setFld Fld.poolSectorsTotalTotal (n - n / 100)
  let s := s.setFld Fld.poolSectorsRsvRsv (n / 100)
  (s.setFld Fld.poolSectorsFreeFree (n - n / 100 - used)).sizeParity

/-- A write of POOL_LOGICAL.GIB; `src` 0 BAR0, 1 and 2 the bus pairs (R154). -/
def State.writeLogical (s : State) (src gib : Nat) : State :=
  if (s.owners.all fun e => decide (e.2 = none)) && decide (1 ≤ gib) && decide (gib ≤ 262144) &&
      decide (1 ≤ usableSectors s.dramGib gib (s.fld Fld.libStageDramGib)) then
    (s.setFld Fld.poolLogicalGib gib).countSectors
  else s.logIgnored 0x40008 src gib

/-- The map entries of keys `[k, k + n)` become unmapped ZERO pages, and their sectors wait under R19 (R145, R171). -/
def State.zeroPages (s : State) (k n : Nat) : State :=
  let inn := fun x => decide (k ≤ x) && decide (x < k + n)
  let olds := ((s.mapDram.filter fun e => inn e.1).map (·.1) ++ (s.mapLog.filter fun r => inn r.page).map (·.page)).eraseDups
  let s := olds.foldl (fun s x => s.retireRun (s.mapEntry x)) s
  let s := { s with mapLog := s.mapLog.filter fun r => !inn r.page }
  let s := olds.foldl (fun s x => s.putEntry x default) s
  s.setFld Fld.grdLogFill s.mapLog.length

end Sys2Proof.Machine
end

