-- ==== Sys2Proof/Machine/Pool.lean ====
section
/-! DEFINITION. The meanings of the pool, partition and lease commands (spec/04 groups 0x1_ and 0x8_, spec/05). -/

namespace Sys2Proof.Machine

/-- The command is marked as under way, holding the objects given. -/
def State.hold (s : State) (tag : Nat) (objs : List ObjRef) : State :=
  s.modCmd tag fun c => { c with stage := .running, started := true, objs := objs }

/-- A fabric-manager command: QSPEC 0 or this device is served here, any other target is forwarded (R83). In FROZEN it waits (R16). -/
def State.serveFm (s : State) (t op : Nat) (work : Cmd → State → State) : Out :=
  s.serve t op fun c s =>
    let q := Entry.qspec c.entry
    if s.seam 0 then s
    else if q = 0 ∨ q = s.dev + 1024 * s.sys ∨ c.origin.isSome then work c s else s.forward t c (q / 1024) (q % 1024)

/-! ### CLAIM, RELEASE, GRANT, RENEW -/

/-- An earlier CLAIM that overlaps has not been decided (R138). -/
def State.claimAhead (s : State) (c : Cmd) : Bool :=
  s.cmds.any fun e => e.2.live && decide (e.2.order < c.order) && decide (Entry.op e.2.entry = 0x10) && decide (e.2.stage ≠ .done) &&
    s.isHere (Entry.object e.2.entry) &&
    rangesMeet (Addr.off (Entry.object e.2.entry)) (Entry.length e.2.entry) (Addr.off (Entry.object c.entry)) (Entry.length c.entry)

/-- The field checks of CLAIM that need no table (R103, R111, R136). -/
def claimFields (e : Nat) : Option Status :=
  if decide (Entry.object e % 64 ≠ 0) || decide (Entry.length e % 64 ≠ 0) then some .badAlign
  else if decide (Addr.off (Entry.object e) % mib2 ≠ 0) || decide (Entry.length e = 0) || decide (Entry.length e % mib2 ≠ 0) ||
      decide (3600 < Entry.spec e 40 4) || decide (8 < Entry.spec e 44 1) ||
      (!bit (Entry.spec e 46 2) 15 && decide (Entry.specBits e 46 0 10 ≠ 0)) then some .badField
  else none

/-- Granules `[k, k + n)` lie wholly inside one extent that `w` holds a grant on, or held when its lease lapsed (R111, R128, R144). -/
def State.claimReach (s : State) (w : Who) (k n : Nat) : Bool :=
  match s.extentAt k with
  | none => false
  | some (b, e) =>
    rangeWithin k n b e.len && ((e.inForce s.ms && (grantOf e.grants w).isSome) || (e.lapsed s.ms && e.wasHeldBy w))

/-- CLAIM on its holding device (R111, R135 to R138). -/
def State.claimHere (s : State) (tag : Nat) (c : Cmd) : State :=
  let e := c.entry
  let k := Addr.off (Entry.object e) / mib2
  let n := Entry.length e / mib2
  let met := s.extents.filter fun x => decide (x.2.state ≠ .free) && rangesMeet k n x.1 x.2.len
  let enc := bit (Entry.spec e 46 2) 15
  let l := s.leaseOf c.caller (Entry.spec e 40 4)
  if s.claimAhead c then s
  else if !c.inPart && !s.claimReach c.caller k n then s.finish tag (Res.err .outOfPartition)
  else if met.any fun x => decide (x.2.state = .live ∨ x.2.state = .expired) then s.finish tag (Res.err .badField)
  else if enc && !s.keyHeld c.caller (Entry.specBits e 46 0 10) then s.finish tag (Res.err .notOwner)
  else if !met.isEmpty then s.modCmd tag fun c => { c with stage := .running }
  else if !s.leaseRoom c.caller || decide (s.fld Fld.poolTablesExtentFree = 0) then s.finish tag (Res.err .noSpace)
  else
    let x : Extent := { state := .live, len := n, claimant := c.caller, leaseMs := l * 1000, expiry := c.since / 1000 + l * 1000,
                        hint := Entry.spec e 44 1, key := Entry.specBits e 46 0 10, enc := enc }
    let s := { s with extents := s.extents.put k x }
    let s := s.setFld Fld.poolTablesExtentFree (s.fld Fld.poolTablesExtentFree - 1)
    (s.addLease c.caller ⟨s.holdId, s.extentAddr k⟩).finish tag { r0 := l * 1000 }

/-- CLAIM (R111, R135 to R138). -/
def execClaim (tag : Nat) (s : State) : Out :=
  s.serve tag 0x10 fun c s =>
    let a := Entry.object c.entry
    match claimFields c.entry with
    | some st => s.finish tag (Res.err st)
    | none =>
      if s.isHere a then s.claimHere tag c
      else if c.inPart && !s.leaseRoom c.caller then s.finish tag (Res.err .noSpace)
      else s.forward tag c (Addr.sys a) (Addr.dev a)

/-- A refusal of RELEASE or GRANT that R152 counts, and logs where it is foreign: by another than the claimant, `owner`. The claimant of an
extent in RELEASING gets NOT_OWNER by the table of lease states, uncounted. -/
def State.refuseFree (s : State) (tag : Nat) (c : Cmd) (st : Status) (owner : Who) : State :=
  if st = .notOwner ∧ owner = c.caller then s.finish tag (Res.err st)
  else
    let s := s.countFree c.caller st
    let s := if st = .notOwner then s.logForeign 0 c.caller.fn owner (Entry.object c.entry) else s
    s.finish tag (Res.err st)

/-- RELEASE on its holding device (R148, R152). A LIVE extent enters RELEASING; the reply waits for the commands accepted under it. -/
def State.releaseHere (s : State) (tag : Nat) (c : Cmd) : State :=
  let k := Addr.off (Entry.object c.entry) / mib2
  let x := s.extents.get k
  if c.stage = .running then
    (if s.objBusy (.extent s.dev k) tag then s else s.finish tag {})
  else if decide (Addr.off (Entry.object c.entry) % mib2 ≠ 0) || decide (x.state = .free) then s.refuseFree tag c .alreadyFree {}
  else if x.lapsed s.ms && x.wasHeldBy c.caller then s.finish tag (Res.err .leaseExpired)
  else if decide (x.claimant ≠ c.caller) || decide (x.state ≠ .live) then s.refuseFree tag c .notOwner x.claimant
  else
    let s := { s with extents := s.extents.put k { x with state := .releasing, former := granteesOf x.grants, grants := [] } }
    if s.objBusy (.extent s.dev k) tag then s.hold tag [] else s.finish tag {}

/-- RELEASE (R148, R152). -/
def execRelease (tag : Nat) (s : State) : Out :=
  s.serve tag 0x11 fun c s =>
    let a := Entry.object c.entry
    if a % 64 ≠ 0 then s.finish tag (Res.err .badAlign)
    else if s.isHere a then s.releaseHere tag c
    else s.forward tag c (Addr.sys a) (Addr.dev a)

/-- The grants of an object after GRANT by R142: the new list, or a refusal. -/
def changeGrant (gs : List Grant) (w : Who) (access : Nat) : Except Status (List Grant) :=
  if access = 0 then (if (grantOf gs w).isSome then .ok (gs.filter fun g => g.who ≠ w) else .error .alreadyFree)
  else if (grantOf gs w).isSome then .ok (gs.map fun g => if g.who = w then ⟨w, decide (access = 2)⟩ else g)
  else if 16 ≤ gs.length then .error .noSpace
  else .ok (gs ++ [⟨w, decide (access = 2)⟩])

/-- GRANT where the object lies (R103, R111, R142, R143, R152, R234). Where no extent starts and no stream stands, a revoke frees nothing, and a
grant gives nothing and names no claimant. -/
def State.grantHere (s : State) (tag : Nat) (c : Cmd) : State :=
  let e := c.entry
  let w : Who := ⟨Entry.specBits e 40 0 10, Entry.spec e 42 1⟩
  let acc := Entry.spec e 43 1
  if decide (2 < acc) || decide (w = c.caller) then s.finish tag (Res.err .badField)
  else match s.leaseObj (Entry.object e) with
    | none =>
      if Entry.object e % 64 ≠ 0 then s.finish tag (Res.err .badAlign)
      else if acc = 0 then s.refuseFree tag c .alreadyFree {}
      else s.finish tag (Res.err .notOwner)
    | some (.extent k) =>
      let x := s.extents.get k
      if x.lapsed s.ms && x.wasHeldBy c.caller then s.finish tag (Res.err .leaseExpired)
      else if decide (x.claimant ≠ c.caller) || decide (x.state ≠ .live) then s.refuseFree tag c .notOwner x.claimant
      else match changeGrant x.grants w acc with
        | .error st => s.refuseFree tag c st {}
        | .ok gs => ({ s with extents := s.extents.put k { x with grants := gs } }).finish tag { r1 := gs.length }
    | some (.stream i) =>
      let r := s.streams.get i
      if r.state = .closing then s.finish tag (Res.err .badField)
      else if r.lapsed s.ms && r.wasHeldBy c.caller then s.finish tag (Res.err .leaseExpired)
      else if !r.allows c.caller true then s.refuseFree tag c .notOwner r.opener
      else match changeGrant r.grants w acc with
        | .error st => s.refuseFree tag c st {}
        | .ok gs => ({ s with streams := s.streams.put i { r with grants := gs } }).finish tag { r1 := gs.length }

/-- GRANT (R111, R142). -/
def execGrant (tag : Nat) (s : State) : Out :=
  s.serve tag 0x12 fun c s =>
    let a := Entry.object c.entry
    if s.isHere a then s.grantHere tag c else s.forward tag c (Addr.sys a) (Addr.dev a)

/-- The new length in ms of a lease renewed with `asked` seconds (R140). -/
def State.renewMs (s : State) (w : Who) (asked present : Nat) : Nat := if asked = 0 then present else s.leaseOf w asked * 1000

/-- RENEW where the object lies, judged at the ms of its acceptance (R110, R139, R140). -/
def State.renewHere (s : State) (tag : Nat) (c : Cmd) : State :=
  let asked := Entry.spec c.entry 40 4
  let now := c.since / 1000
  if 3600 < asked then s.finish tag (Res.err .badField)
  else match s.leaseObj (Entry.object c.entry) with
  | none => s.finish tag (Res.err .notOwner)
  | some (.extent k) =>
    let x := s.extents.get k
    if x.lapsed now && x.wasHeldBy c.caller then s.finish tag (Res.err .leaseExpired)
    else if decide (x.claimant ≠ c.caller) || decide (x.state ≠ .live) then s.finish tag (Res.err .notOwner)
    else
      let m := s.renewMs c.caller asked x.leaseMs
      ({ s with extents := s.extents.put k { x with leaseMs := m, expiry := now + m } }).finish tag { r0 := m }
  | some (.stream i) =>
    let r := s.streams.get i
    if r.state = .closing then s.finish tag (Res.err .badField)
    else if r.lapsed now && r.wasHeldBy c.caller then s.finish tag (Res.err .leaseExpired)
    else if r.opener ≠ c.caller then s.finish tag (Res.err .notOwner)
    else
      let m := s.renewMs c.caller asked r.leaseMs
      ({ s with streams := s.streams.put i { r with leaseMs := m, expiry := now + m } }).finish tag { r0 := m }

/-- RENEW (R110, R139, R140). -/
def execRenew (tag : Nat) (s : State) : Out :=
  s.serve tag 0x05 fun c s =>
    let a := Entry.object c.entry
    if s.isHere a then s.renewHere tag c else s.forward tag c (Addr.sys a) (Addr.dev a)

/-! ### READ and WRITE -/

/-- The checks of a pool data command that precede its work: range rules, then what acceptance bound, then ABANDON (R53, R103, R111). -/
def State.dataChecks (s : State) (c : Cmd) : Option Status :=
  match rangeRules c.entry with
  | some st => some st
  | none => match c.refuse with
    | some st => some st
    | none => if s.abandoned c then some .deadlineMissed else none

/-- READ (R111, R164 to R169, R174). -/
def execRead (tag : Nat) (s : State) : Out :=
  s.serve tag 0x13 fun c s =>
    let a := Entry.object c.entry
    let n := Entry.length c.entry
    match s.dataChecks c with
    | some st => s.finish tag (Res.err st)
    | none =>
      if !s.isHere a then s.forward tag c (Addr.sys a) (Addr.dev a)
      else
        let (s, bs, st) := s.readRange s.poolSpace 8 (pageCount (s.poolOff a) n) (s.poolOff a) n
        let s := s.deliver c (Entry.hostBuf c.entry) bs
        s.finish tag (Res.moved (st.getD .ok) bs.length n)

/-- WRITE (R111, R155, R173 to R177). While the log is full the write waits, and goes on from the pages it has stored. -/
def execWrite (tag : Nat) (s : State) : Out :=
  s.serve tag 0x14 fun c s =>
    let a := Entry.object c.entry
    let n := Entry.length c.entry
    match s.dataChecks c with
    | some st => s.finish tag (Res.err st)
    | none =>
      if !s.isHere a then s.forward tag c (Addr.sys a) (Addr.dev a)
      else
        let off := Addr.off a + c.moved
        let pages := pageCount off (n - c.moved)
        let bs := s.source c (Entry.hostBuf c.entry + c.moved) (n - c.moved)
        let (s, m, st) := s.writeRange s.poolSpace (s.pageRoom pages) off bs
        let done := c.moved + m
        if st.isNone && decide (done < n) then
          s.countStall.modCmd tag fun c => { c with stage := .running, started := true, moved := done }
        else s.finish tag (Res.moved (st.getD .ok) done n)

/-! ### Partitions and SEIZE -/

/-- A PARTITION command of op `sub`; an op above 2 is refused by the ADD row (R123). -/
def State.servePartition (s : State) (t sub : Nat) (work : Cmd → State → State) : Out :=
  s.serveFm t 0x80 fun c s =>
    let op := Entry.spec c.entry 40 1
    if op = sub then work c s
    else if sub = 0 && decide (2 < op) then s.finish t (Res.err .badField)
    else s

/-- A table change of the device that OBJECT names is asked of it; `done` goes on once it has answered OK (R130). -/
def State.viaHolder (s : State) (tag : Nat) (c : Cmd) (done : State → State) : State :=
  let d := Addr.dev (Entry.object c.entry)
  if c.stage ≠ .running then
    if s.reach s.sys d then (s.sendTable tag c d 0 0).modCmd tag fun c => { c with stage := .running, started := true }
    else s.finish tag (Res.err .linkUnreachable)
  else if !s.asksDone tag then s
  else match s.askError tag with
    | some st => (s.dropAsks tag).finish tag (Res.err st)
    | none => done s

/-- The function whose partition a PARTITION command changes: homed here, or at the device that sent the TABLE notice. -/
def State.partWho (s : State) (c : Cmd) : Who :=
  ⟨if c.table.isSome then (c.origin.getD (s.dev, 0)).1 % 1024 else s.dev, Entry.spec c.entry 42 1⟩

/-- ADD on the holding device: the granules get their owner, or the overlap is refused and logged (R130, R131). -/
def State.addHere (s : State) (c : Cmd) (done : State → State) (no : State → State) : State :=
  let a := Entry.object c.entry
  let g := Addr.off a / gib
  let n := Entry.length c.entry / gib
  let w := s.partWho c
  if s.fld Fld.poolLogicalGib < g + n then no s
  else match s.foreignOwner w g n with
    | some x => no (s.log 0x0301 1 w.fn (x.fn + x.dev * 2 ^ 8 + a * 2 ^ 64))
    | none => done (s.ownGranules (some w) g n)

/-- PARTITION_ADD (R123, R130 to R132). -/
def execPartitionAdd (tag : Nat) (s : State) : Out :=
  s.servePartition tag 0 fun c s =>
    let a := Entry.object c.entry
    let f := Entry.spec c.entry 42 1
    let n := Entry.length c.entry
    let bad := fun (s : State) => s.finish tag (Res.err .badField)
    if c.table.isSome then s.addHere c (fun s => s.finish tag {}) bad
    else if decide (Addr.off a % gib ≠ 0) || decide (n % gib ≠ 0) || decide (n = 0) then bad s
    else
      let new := mergeRange ⟨Addr.dev a, Addr.off a / gib, n / gib⟩ (s.partitions.get f)
      let done := fun (s : State) => (s.setPart f new).finish tag { r0 := new.length }
      if s.fld Fld.poolRangesFree + (s.partitions.get f).length < new.length then s.finish tag (Res.err .noSpace)
      else if s.isHere a then s.addHere c done bad
      else s.viaHolder tag c fun s => done (s.dropAsks tag)

/-- Commands accepted before this one that name bytes of the range have not all ended (R14). -/
def State.rangeInUse (s : State) (c : Cmd) (dev off len : Nat) : Bool :=
  s.cmds.any fun e => e.2.live && decide (e.2.order < c.order) && decide (e.2.stage ≠ .done) &&
    (entryRanges e.2.entry).any fun r => decide (r.1 = 1) && decide (Addr.dev r.2.1 = dev) && rangesMeet (Addr.off r.2.1) r.2.2.1 off len

/-- The extents of this device that meet granules `[g, g + n)` of 1 GiB. -/
def State.extentsMeeting (s : State) (g n : Nat) : List Nat :=
  s.extents.sel fun k e => decide (e.state ≠ .free) && rangesMeet k e.len (512 * g) (512 * n)

/-- A removed range is idle and clean: its commands have ended and its revoked extents are zero-filled (R14, R133). -/
def State.removed (s : State) (tag : Nat) (c : Cmd) (f dev : Nat) (rs : List PRange) : State :=
  if rs.any fun r => s.rangeInUse c dev (r.start * gib) (r.len * gib) || !(s.extentsMeeting r.start r.len).isEmpty then
    s.modCmd tag fun c => { c with stage := .running, objs := rs.map fun r => .granules r.dev r.start r.len }
  else s.finish tag { r0 := (s.partitions.get f).length }

/-- The ranges that a running REMOVE or CLEAR has taken away. -/
def takenRanges (os : List ObjRef) : List PRange :=
  os.filterMap fun o => match o with
    | .granules d g n => some ⟨d, g, n⟩
    | _ => none

/-- Ranges of this device lose their owner, and the extents in them their leases (R130, R133). -/
def State.clearRanges (s : State) : List PRange → State
  | [] => s
  | r :: rs => ((s.ownGranules none r.start r.len).revokeExtents 1 (s.extentsMeeting r.start r.len)).clearRanges rs

/-- Ranges leave a function's partition record. -/
def State.cutRanges (s : State) (f : Nat) : List PRange → State
  | [] => s
  | r :: rs => (s.setPart f (cutRange r (s.partitions.get f))).cutRanges f rs

/-- REMOVE and CLEAR of ranges `rs` (R14, R130, R133): both records lose them; the reply waits until the range is idle and clean. -/
def State.takeAway (s : State) (tag : Nat) (c : Cmd) (f : Nat) (rs : List PRange) : State :=
  let a := Entry.object c.entry
  if c.table.isSome ∨ s.isHere a = true then
    if c.stage = .running then s.removed tag c f s.holdId (takenRanges c.objs)
    else
      let s := s.clearRanges rs
      let s := if c.table.isSome then s else s.cutRanges f rs
      s.removed tag c f s.holdId rs
  else s.viaHolder tag c fun s =>
    let s := s.cutRanges f rs
    if rs.any fun r => s.rangeInUse c r.dev (r.start * gib) (r.len * gib) then s
    else (s.dropAsks tag).finish tag { r0 := (s.partitions.get f).length }

/-- PARTITION_REMOVE (R123, R130, R133). -/
def execPartitionRemove (tag : Nat) (s : State) : Out :=
  s.servePartition tag 1 fun c s =>
    let a := Entry.object c.entry
    let f := Entry.spec c.entry 42 1
    let n := Entry.length c.entry
    let g := Addr.off a / gib
    if decide (c.stage ≠ .running) && c.table.isNone &&
        (decide (Addr.off a % gib ≠ 0) || decide (n % gib ≠ 0) || decide (n = 0) || !s.holdsGranules f (Addr.dev a) g (n / gib)) then
      s.finish tag (Res.err .badField)
    else s.takeAway tag c f [⟨Addr.dev a, g, n / gib⟩]

/-- The ranges of this device that function `w` owns, one granule each. -/
def State.ownedRanges (s : State) (w : Who) : List PRange :=
  (s.owners.filter fun e => e.2 = some w).map fun e => ⟨s.holdId, e.1, 1⟩

/-- PARTITION_CLEAR (R123, R130, R133). -/
def execPartitionClear (tag : Nat) (s : State) : Out :=
  s.servePartition tag 2 fun c s =>
    let a := Entry.object c.entry
    let f := Entry.spec c.entry 42 1
    if decide (c.stage ≠ .running) && (decide (Addr.off a ≠ 0) || decide (Entry.length c.entry ≠ 0)) then s.finish tag (Res.err .badField)
    else s.takeAway tag c f
      (if c.table.isSome then s.ownedRanges (s.partWho c) else (s.partitions.get f).filter fun r => r.dev = Addr.dev a)

/-- The holding devices of a list of leases that are not this one. -/
def State.remoteHolders (s : State) (rs : List LeaseRef) : List LeaseRef := rs.filter fun r => !s.mine r.dev

/-- SEIZE (R125, R149 to R151): routes are checked first; leases held here are revoked at once, the others by REVOKE slots whose
acknowledgements the reply waits for. -/
def execSeize (tag : Nat) (s : State) : Out :=
  s.serveFm tag 0x84 fun c s =>
    let f := Entry.spec c.entry 42 1
    let a := Entry.object c.entry
    let rs := (s.lindex.get f).filter fun r => decide (a = 0) || decide (r.addr = a)
    let far := s.remoteHolders rs
    if c.stage = .running then
      let open' := (s.asksOf tag).filter fun e => e.2.status.isNone && s.reach (s.sysOf e.2.dev) (e.2.dev % 1024)
      if open'.isEmpty then
        let n := c.moved + ((s.asksOf tag).map fun e => e.2.count).sum
        (s.dropAsks tag).finish tag { r0 := n }
      else s
    else if far.any fun r => !s.reach (s.sysOf r.dev) (r.dev % 1024) then s.finish tag (Res.err .linkUnreachable)
    else
      let (s, n) := s.revokeHere rs
      if far.isEmpty then s.finish tag { r0 := n }
      else (s.sendRevokes tag f far).modCmd tag fun c => { c with stage := .running, started := true, moved := n }

/-! ### Time on leases and reclaim -/

/-- A RENEW of the object, accepted before ms `at`, has not been decided yet. -/
def State.renewPending (s : State) (o : LeaseObj) (expiry : Nat) : Bool :=
  s.cmds.any fun e => e.2.live && decide (Entry.op e.2.entry = 0x05) && decide (e.2.stage ≠ .done) && decide (e.2.since / 1000 < expiry) &&
    s.isHere (Entry.object e.2.entry) && decide (s.leaseObj (Entry.object e.2.entry) = some o)

/-- LEASE_EXPIRY: a lease has reached its expiry (R139, R112). `key`: first granule of an extent, or a stream index. -/
def execLeaseExpiry (stream : Bool) (key : Nat) (s : State) : Out :=
  if stream then
    let r := s.streams.get key
    if r.state = .opened ∧ r.expiry ≤ s.ms ∧ s.renewPending (.stream key) r.expiry = false then
      let s := { s with streams := s.streams.put key { r with state := .expired, former := granteesOf r.grants } }
      .next (if r.opener.dev = s.dev then s.bump Fld.poolFnStatExpired 1 r.opener.fn else s)
    else .next s
  else
    let e := s.extents.get key
    if e.state = .live ∧ e.expiry ≤ s.ms ∧ s.renewPending (.extent key) e.expiry = false then
      let s := { s with extents := s.extents.put key { e with state := .expired, former := granteesOf e.grants } }
      .next (if e.claimant.dev = s.dev then s.bump Fld.poolFnStatExpired 1 e.claimant.fn else s)
    else .next s

/-- GRACE_END: two seconds after expiry the extent or stream becomes ORPHANED and its grants go (R144, the expiry sequence). -/
def execGraceEnd (stream : Bool) (key : Nat) (s : State) : Out :=
  if stream then
    let r := s.streams.get key
    if r.state = .expired ∧ r.expiry + 2000 ≤ s.ms then
      .next { s with streams := s.streams.put key { r with state := .orphaned, grants := [] } }
    else .next s
  else
    let e := s.extents.get key
    if e.state = .expired ∧ e.expiry + 2000 ≤ s.ms then
      let s := { s with extents := s.extents.put key { e with state := .orphaned, grants := [] } }
      .next (s.log 0x0302 1 e.claimant.fn (e.claimant.dev + s.extentAddr key * 2 ^ 64))
    else .next s

/-- ZERO_FILL_DONE: the zero-fill ends; every page is a ZERO page, the granules are free, the lease entry goes (R145 to R147, R171). -/
def execZeroFillDone (key : Nat) (s : State) : Out :=
  let e := s.extents.get key
  if e.filling && decide (e.state ≠ .free) then
    let s := s.zeroPages (key * 512) (e.len * 512)
    let s := { s with extents := s.extents.put key default }
    let s := s.setFld Fld.poolTablesExtentFree (s.fld Fld.poolTablesExtentFree + 1)
    let s := s.dropLease e.claimant ⟨s.holdId, s.extentAddr key⟩
    .next (s.log 0x0303 1 e.claimant.fn (e.claimant.dev + s.extentAddr key * 2 ^ 64))
  else .next s

/-- POOL_LOGICAL_WRITE: a write of POOL_LOGICAL.GIB (R154). -/
def execPoolLogicalWrite (src gib : Nat) (s : State) : Out :=
  let s := s.fmInput src 8 gib
  .next (s.writeLogical src gib)

/-- LOG_RETIRE: the oldest record is applied to the DRAM copy of the map (R176). -/
def execLogRetire (s : State) : Out :=
  match s.mapLog with
  | [] => .next s
  | r :: rs =>
    let s := ({ s with mapLog := rs }).putEntry r.page r.entry
    .next (s.setFld Fld.grdLogFill rs.length)

/-- A scan in hand reads pages from the run that begins at `base` (R250). -/
def State.runPinned (s : State) (base : Nat) : Bool :=
  s.frags.any fun f => f.2.live && f.2.pinned.any fun p => p.2.mapped && decide (p.2.codec ≠ 0) && decide (p.2.base = base)

/-- OLD_SECTORS_FREE: the sectors of a relocated page are freed, the new entry being durable and no planned transfer left (R19). -/
def execOldSectorsFree (base : Nat) (s : State) : Out :=
  match s.oldRuns.find? fun r => r.base = base with
  | none => .next s
  | some r =>
    if s.runPinned base then .next s
    else .next (({ s with oldRuns := s.oldRuns.erase r }).freeRun base)

/-- MAP_DIRECT_EXIT: the map cache region has passed self-test and is reloaded (R20). -/
def execMapDirectExit (s : State) : Out := .next (s.setSeam 1 false)

end Sys2Proof.Machine
end

