-- ==== Sys2Proof/Machine/LibOps.lean ====
section
/-! DEFINITION. Shared operations of the library tier (spec/07): where a stripe unit lies, frames and their recovery, reading and
programming a unit, staging. -/

namespace Sys2Proof.Machine

/-! ### Keys and places -/

/-- The key of stripe unit `u` of a volume. -/
def unitKeyOf (vol u : Nat) : Nat := vol * 2 ^ 24 + u
/-- The key of a frame of a flash channel. -/
def frameKey (ch fr : Nat) : Nat := ch * 2 ^ 28 + fr
/-- The key of a staged copy: unit and tier. -/
def stagedKey (vol u tier : Nat) : Nat := unitKeyOf vol u * 2 + tier

/-- The device and the flash channel of stripe unit `u` (R195). -/
def Volume.place (v : Volume) (u : Nat) : Nat × Nat :=
  let w := max 1 v.stripe.length
  (v.stripe.getD (u % w) 0, (u / w + v.start) % 32)

/-- LUN `l` of target `t` of a channel has failed, or the channel is out of service (R212, R214). -/
def State.lunFailed (s : State) (ch t l : Nat) : Bool :=
  bit (s.fld Fld.libChStateFailed ch) (4 * t + l) || decide (s.unitState 7 ch = 0)

/-- The frame's LUN has failed. -/
def State.frameLost (s : State) (ch fr : Nat) : Bool :=
  let f := s.frames.get (frameKey ch fr)
  s.lunFailed ch f.target f.lun

/-! ### Reading a unit -/

/-- Why a unit could not be read. -/
abbrev UnitBytes := Except Status (List Byte)

/-- Page `i` of a unit is set POISON, if its record still names the frame that was read (R168). -/
def State.poisonUnitPage (s : State) (vol u fr i : Nat) : State :=
  let r := s.unitRecs.get (unitKeyOf vol u)
  if r.present && decide (r.frame = fr) then
    ({ s with unitRecs := s.unitRecs.put (unitKeyOf vol u) { r with pages := r.pages.set i { r.pages.getD i default with poison := true } } }).bump
      Fld.grdErrPoisoned
  else s

/-- Page `i` of a unit read from its frame, the top `q` planes of a PLANE page: directly, or by reconstruction where its die has failed (R168, R169,
R188, R213). -/
def State.readUnitPage (s : State) (ch fr vol u q i : Nat) (e : PageEntry) : State × Except Status (List Byte) :=
  let base := frameKey ch fr * 65536 + 256 * e.base
  let addr := s.sys * 2 ^ 58 + vol * 2 ^ 40 + u * 65536 + i * pageSize
  let set := s.recoverState 2 (flashStripe ch fr)
  if e.poison then (s, .error .uncorrectable)
  else if !e.mapped || decide (e.codec = 0) then (s, .ok (zeroBytes pageSize))
  else if s.frameLost ch fr && decide (set = .impossible) then (s.poisonUnitPage vol u fr i, .error .uncorrectable)
  else if s.frameLost ch fr && decide (set = .later) then (s.bump Fld.protStatRebuilding, .error .rebuilding)
  else match decodeStored e q (s.flash.getN base (256 * (e.count + 1))) with
    | .ok p => (s, .ok p)
    | .error how =>
      let s := if how = 0 then s.bump Fld.grdErrCheckFail else s.bump Fld.grdErrDecodeErr
      let ev := fun (s : State) (x : Nat) => s.log 0x0401 0 0 (e.codec + how * 2 ^ 8 + x * 2 ^ 16 + addr * 2 ^ 64)
      match set with
      | .later => ((ev s 2).bump Fld.protStatRebuilding, .error .rebuilding)
      | .possible =>
        let p := Config.recoveredPage (2 ^ 60 + addr)
        if p.length = pageSize ∧ crc32c p = e.check then (((ev s 0).bump Fld.libErrRecon).bump Fld.protStatRecon, .ok p)
        else ((ev s 1).poisonUnitPage vol u fr i, .error .uncorrectable)
      | .impossible => ((ev s 1).poisonUnitPage vol u fr i, .error .uncorrectable)

/-- Pages of a unit from page `i` on, read one after another: the bytes of the prefix read, and the status that ended it. -/
def State.readPages (s : State) (ch fr vol u q : Nat) : Nat → List PageEntry → State × List Byte × Option Status
  | _, [] => (s, [], none)
  | i, e :: es =>
    match s.readUnitPage ch fr vol u q i e with
    | (s, .error st) => (s, [], some st)
    | (s, .ok p) =>
      let (s, ps, st) := s.readPages ch fr vol u q (i + 1) es
      (s, p ++ ps, st)

/-- Pages `[i, i + n)` of a unit read from its flash frame; a frame of a failed die is reconstructed where its set can be read (R188, R213). -/
def State.readFlash (s : State) (vol u q i n : Nat) : State × List Byte × Option Status :=
  let ch := ((s.volumes.get vol).place u).2
  let r := s.unitRecs.get (unitKeyOf vol u)
  if !r.present then (s, zeroBytes (n * pageSize), none)
  else
    let s := if s.frameLost ch r.frame && decide (s.recoverState 2 (flashStripe ch r.frame) = .possible) then
      (s.bump Fld.libErrRecon).bump Fld.protStatRecon else s
    s.readPages ch r.frame vol u q i ((r.pages.drop i).take n)

/-- A whole unit read from its flash frame. -/
def State.readFlashUnit (s : State) (vol u q : Nat) : State × UnitBytes :=
  match s.readFlash vol u q 0 16 with
  | (s, b, none) => (s, .ok b)
  | (s, _, some st) => (s, .error st)

/-- Bytes `[a, a + n)` of a unit read from the pages of flash that they touch, the top `q` planes of PLANE pages: the bytes of the prefix read, and
the status that ended it (R101). -/
def State.readBytes (s : State) (vol u q a n : Nat) : State × List Byte × Option Status :=
  let (s, b, st) := s.readFlash vol u q (a / pageSize) ((a + n - 1) / pageSize - a / pageSize + 1)
  (s, (b.drop (a % pageSize)).take n, st)

/-- The bytes of the Urn tier's slot. -/
def State.urnSlot (s : State) (slot : Nat) : Nat := s.fld Fld.urnLayoutStageBase * 2 ^ 20 + slot * 65536

/-- The 64-byte blocks `[a, a + n)` of a unit as a mask. -/
def blockMask (a n : Nat) : Nat := (2 ^ n - 1) * 2 ^ a

/-- Bytes `[a, a + n)` of a unit read from the fastest place that holds it: Urn tier, DRAM tier, flash (R201); they count as read from a staged
copy (R204). A poisoned staged copy is dropped and the unit read again from flash (R279). -/
def State.readUnit (s : State) (vol u a n : Nat) : State × List Byte × Option Status :=
  let mark := fun (s : State) (k : Nat) =>
    ({ s with staged := s.staged.upd k fun x => { x with readMask := x.readMask ||| blockMask (a / 64) (n / 64), lastRead := s.nextTag } }).tally
      Fld.libStageStatHits
  let ku := stagedKey vol u 1
  let kd := stagedKey vol u 0
  let cu := s.staged.get ku
  if cu.present then
    if (List.range 1024).any fun i => s.poisoned (s.urnSlot cu.slot + 64 * i) then
      (({ s with staged := s.staged.put ku default }).setFld Fld.libStageFillUrn (s.fld Fld.libStageFillUrn - 1)).readBytes vol u 8 a n
    else (mark s ku, ((s.urnRead (s.urnSlot cu.slot) 65536).drop a).take n, none)
  else if (s.staged.get kd).present then (mark s kd).readBytes vol u 8 a n
  else s.readBytes vol u 8 a n

/-! ### Frames (R190, R196) -/

/-- Frames of a channel that LLOAD may not use: one in 32 (R190). -/
def State.reserveFrames (s : State) : Nat := s.chFrames / 32

/-- The lowest frame of a channel that is not in use, below `n`, and in which this device holds data (R459). -/
def State.freeFrame (s : State) (ch n : Nat) : Option Nat :=
  (List.range n).find? fun i => s.holdsData 2 (flashStripe ch i) && (s.locks.get (areaKey 2 (flashStripe ch i))).isNone && !(s.frames.get (frameKey ch i)).used && !(s.frames.get (frameKey ch i)).stale

/-- The usable LUN on which a new frame lies: the device's own placement where it is usable, else the lowest one (R187). -/
def State.pickLun (s : State) (ch : Nat) : Nat × Nat :=
  let ok := fun t l => bit (s.fld Fld.libChStatePresent ch) t && !s.lunFailed ch t l
  let t := s.free % 8
  let l := s.free / 8 % 4
  if ok t l then (t, l)
  else (((List.range 32).find? fun i => ok (i / 4) (i % 4)).map fun i => (i / 4, i % 4)).getD (0, 0)

/-- Frame `fr` of a channel is programmed with `bytes`, whose full content goes to the parity holders (R461, R462). -/
def State.programFrame (s : State) (ch fr : Nat) (bytes : List Byte) (reserve : Bool) : State :=
  let (t, l) := s.pickLun ch
  let s := { s.tookFree with frames := s.frames.put (frameKey ch fr) { used := true, target := t, lun := l },
                             flash := s.flash.putN (frameKey ch fr * 65536) (bytes ++ zeroBytes (65536 - bytes.length)) }
  let s := s.parityOf 2 (flashStripe ch fr) 0 [] (bytes ++ zeroBytes (65536 - bytes.length))
  if reserve then s.setFld Fld.libFlashReserve (s.fld Fld.libFlashReserve - 1) else s.setFld Fld.libFlashFree (s.fld Fld.libFlashFree - 1)

/-- A frame is freed; media management erases it later (R194, R197), and the parity holders are told (R465). -/
def State.dropFrame (s : State) (ch fr : Nat) : State :=
  let s := { s with frames := s.frames.upd (frameKey ch fr) fun f => { f with used := false, stale := true } }
  (s.setFld Fld.libFlashFree (s.fld Fld.libFlashFree + 1)).sendDead (flashStripe ch fr)

/-- The pages of a unit coded and packed from sector `sec` on: the stored bytes, their map entries, and the counts (R196, R198). -/
def State.codeUnit (s : State) (hint : Nat) : Nat → Nat → List Byte → State × List Byte × List PageEntry
  | 0, _, _ => (s, [], [])
  | n + 1, sec, bs =>
    let page := bs.take pageSize
    if page.isEmpty then (s, [], [])
    else
      let page := page ++ zeroBytes (pageSize - page.length)
      let c := codePage hint (s.flag Fld.grdCtrlWverify) page
      let k := c.bytes.length / 256
      let e : PageEntry := { base := if k = 0 then 0 else sec, count := k - 1, codec := c.codec, check := crc32c page, mapped := true }
      let (s, b, es) := (s.countStored hint k c).codeUnit hint n (sec + k) (bs.drop pageSize)
      (s, c.bytes ++ b, e :: es)

/-- The staged copies of a unit are dropped, and the tiers' counts with them (R204). -/
def State.dropStaged (s : State) (vol u : Nat) : State :=
  let gone := fun (s : State) (t : Nat) (f : Fld) =>
    if (s.staged.get (stagedKey vol u t)).present then
      ({ s with staged := s.staged.put (stagedKey vol u t) default }).setFld f (s.fld f - 1)
    else s
  gone (gone s 0 Fld.libStageFillDram) 1 Fld.libStageFillUrn

/-- A unit of this device is written whole to a new frame and its record replaced; the old frame is freed (R197, R198). -/
def State.storeUnit (s : State) (vol u hint : Nat) (bytes : List Byte) : Except Status State :=
  let v := s.volumes.get vol
  let ch := (v.place u).2
  let old := s.unitRecs.get (unitKeyOf vol u)
  if s.unitState 7 ch = 0 then .error .mediaError
  else if s.fld Fld.libFlashFree = 0 then .error .noSpace
  else match s.freeFrame ch (s.chFrames - s.reserveFrames) with
    | none => .error .noSpace
    | some fr =>
      let (s, b, es) := s.codeUnit hint 16 0 bytes
      let s := s.programFrame ch fr b false
      let s := { s with unitRecs := s.unitRecs.put (unitKeyOf vol u) ⟨true, fr, es⟩ }
      let s := s.dropStaged vol u
      .ok (if old.present then s.dropFrame ch old.frame else s)

/-! ### Staging (R203 to R205) -/

/-- Units that a tier holds at most: 15/16 of the DRAM tier, the whole Urn tier. -/
def State.tierRoom (s : State) (tier : Nat) : Nat :=
  if tier = 0 then s.fld Fld.libStageDramGib * 2 ^ 14 * 15 / 16 else s.fld Fld.libStageUrnMib * 16

/-- The count field of a tier. -/
def tierFill (tier : Nat) : Fld := if tier = 0 then Fld.libStageFillDram else Fld.libStageFillUrn

/-- A staged copy may be evicted (R204). -/
def Staged.evictable (x : Staged) : Bool :=
  x.present && (!x.hold || decide (x.readMask &&& (2 ^ 1024 - 1) = 2 ^ 1024 - 1))

/-- The evictable copy of a tier read least recently. -/
def State.victim (s : State) (tier : Nat) : Option Nat :=
  let cs := s.staged.filter fun e => decide (e.1 % 2 = tier) && e.2.evictable
  match cs with
  | [] => none
  | c :: cs => some (cs.foldl (fun b e => if e.2.lastRead < b.2.lastRead then e else b) c).1

/-- The lowest slot of the Urn tier that no staged copy holds. -/
def State.freeSlot (s : State) : Nat :=
  ((List.range (s.tierRoom 1 + 1)).find? fun i => !s.staged.any fun e => decide (e.1 % 2 = 1) && decide (e.2.slot = i)).getD 0

/-- One unit is staged in a tier; none where the tier is full of protected copies. The outcome says whether the unit could be read. -/
def State.stageUnit (s : State) (vol u tier : Nat) : Option (State × Option Status) :=
  let k := stagedKey vol u tier
  if (s.staged.get k).present then some (s, none)
  else
    let room : Option State :=
      if s.fld (tierFill tier) < s.tierRoom tier then some s
      else (s.victim tier).map fun x => ({ s with staged := s.staged.put x default }).setFld (tierFill tier) (s.fld (tierFill tier) - 1)
    match room with
    | none => none
    | some s =>
      match s.readFlashUnit vol u 8 with
      | (s, .error st) => some (s, some st)
      | (s, .ok bytes) =>
        let slot := if tier = 1 then s.freeSlot else 0
        let s := if tier = 1 then s.urnWrite (s.urnSlot slot) bytes else s
        let s := { s with staged := s.staged.put k { present := true, since := s.us, hold := true, lastRead := s.nextTag, slot := slot } }
        some (s.setFld (tierFill tier) (s.fld (tierFill tier) + 1), none)

end Sys2Proof.Machine
end

