-- ==== Sys2Proof/Machine/UrnOps.lean ====
section
/-! DEFINITION. The Urn's layout and buffers (spec/10): bases (R265, R267), allocation (R274), circular windows (R272, R273), region checks
and faults (R270). -/

namespace Sys2Proof.Machine

/-! ### Layout (R265, R267) -/

/-- The Press scratch base in MiB for a staging tier and a scratch of those sizes, where it is not below 0. -/
def scratchBase (stage scratch : Nat) : Nat := 512 - stage - scratch

/-- A layout keeps the buffer area base and every live buffer below the Press scratch base (R267). -/
def State.layoutFits (s : State) (stage scratch : Nat) : Bool :=
  decide (56 + stage + scratch ≤ 512) &&
    s.bufs.all fun e => !e.2.held || decide (e.2.page + e.2.pages ≤ 256 * scratchBase stage scratch)

/-- The bases of URN_LAYOUT for the sizes in force. -/
def State.setLayout (s : State) : State :=
  let st := s.fld Fld.libStageUrnMib
  let s := s.setFld Fld.urnLayoutStageBase (512 - st)
  s.setFld Fld.urnLayoutScratchBase (scratchBase st (s.fld Fld.prsScratchMib))

/-! ### Buffers (R274, R277) -/

/-- A run of `n` pages from page `p` on is free and in the buffer area. -/
def State.pagesFree (s : State) (p n : Nat) : Bool :=
  decide (256 * s.fld Fld.urnLayoutBufBase ≤ p) && decide (p + n ≤ 256 * s.fld Fld.urnLayoutScratchBase) &&
    s.bufs.all fun e => !e.2.held || !rangesMeet p n e.2.page e.2.pages

/-- The lowest free run of `n` pages (R274). -/
def State.firstFit (s : State) (n : Nat) : Option Nat :=
  let ends := (256 * s.fld Fld.urnLayoutBufBase) :: (s.bufs.filter fun e => e.2.held).map fun e => e.2.page + e.2.pages
  (ends.filter fun p => s.pagesFree p n).min?

/-- The lowest buffer index that is not held. -/
def State.freeBuf (s : State) : Option Nat := SMap.lowest (fun b => !b.held) s.bufs 0 65536

/-- Buffers held, and the pages that a function holds. -/
def State.bufCount (s : State) : Nat := s.bufs.count fun _ b => b.held

/-- The handle of a buffer: index and generation (R107). -/
def bufHandle (idx gen : Nat) : Nat := idx % 2 ^ 16 + gen % 2 ^ 8 * 2 ^ 16

/-- The counts of URN_FN_USE and URN_BUFFERS after a change of `n` pages held by function `f`. -/
def State.countBufs (s : State) (f : Nat) : State :=
  let mine := s.bufs.filter fun e => e.2.held && decide (e.2.owner = f)
  let s := s.setFld Fld.urnFnUsePages ((mine.map fun e => e.2.pages).sum) f
  let s := s.setFld Fld.urnFnUsePoisoned (b2n (mine.any fun e => e.2.poisoned)) f
  s.setFld Fld.urnBuffersLive s.bufCount

/-- A buffer's pages and index are free again; its generation stays. -/
def State.dropBuf (s : State) (idx : Nat) : State :=
  let b := s.bufs.get idx
  ({ s with bufs := s.bufs.put idx { gen := b.gen, resetBy := b.resetBy } }).countBufs b.owner

/-! ### Windows (R272, R273) -/

/-- Ring bytes of a window. -/
def State.winSize (s : State) (w : Nat) : Nat := clamp 64 (2 ^ 23) (64 * s.fld Fld.urnWinSizeSize w)

/-- Where an Urn address leads: its offset, and the window that it wraps in, if any; none where it can reach nothing (R272, R273). `who`
is the function that the master acts for, `fm` the fabric manager. -/
def State.urnAddr (s : State) (who : Nat) (fm : Bool) (a : Nat) : Option (Nat × Option Nat) :=
  if a < 2 ^ 29 then some (a, none)
  else
    let w := bits a 23 6
    let x := a % 2 ^ 23
    let o := 64 * s.fld Fld.urnWinBaseBase w + x % s.winSize w
    let mine := if s.flag Fld.urnWinCtrlFm w then fm else decide (s.fld Fld.urnWinCtrlOwner w = who)
    if s.flag Fld.urnWinCtrlEnable w && mine && decide (o < 2 ^ 29) then some (o, some w) else none

/-- An access through a window whose place lies at or beyond SIZE counts a wrap (R273). -/
def State.countWrap (s : State) (a : Nat) : State :=
  let w := bits a 23 6
  if 2 ^ 29 ≤ a ∧ s.winSize w ≤ a % 2 ^ 23 then s.bump Fld.urnWinStatWraps 1 w else s

/-- One page of the Urn lies in a valid region of master `m` that grants the direction (R270). -/
def State.regionGrants (s : State) (m off : Nat) (write : Bool) : Bool :=
  (List.range 8).any fun r =>
    s.flag Fld.urnRegionValid m r && decide (s.fld Fld.urnRegionBase m r ≤ off / 4096) && decide (off / 4096 ≤ s.fld Fld.urnRegionLimit m r) &&
      (if write then s.flag Fld.urnRegionWr m r else s.flag Fld.urnRegionRd m r)

/-- A region fault is counted and latched (R270). `a`: the address as issued. -/
def State.regionFault (s : State) (m a : Nat) (write : Bool) : State :=
  let mirror := decide (2 ^ 29 ≤ a)
  let s := s.bump Fld.urnFaultStatCount
  if s.flag Fld.urnFaultValid then s
  else
    let s := (s.setFld Fld.urnFaultOffset (a % 2 ^ 29)).setFld Fld.urnFaultMaster m
    ((s.setFld Fld.urnFaultWrite (b2n write)).setFld Fld.urnFaultAlias (b2n mirror)).setFld Fld.urnFaultValid 1

/-- REGION_FAULT, where the master's class has it logged (R270). -/
def State.logRegion (s : State) (m a : Nat) (write : Bool) : State :=
  s.log 0x0404 14 m (a % 2 ^ 30 + b2n write * 2 ^ 32 + b2n (decide (2 ^ 29 ≤ a)) * 2 ^ 40)

/-- One region of a master is loaded. -/
def State.loadRegion (s : State) (m r first last : Nat) (rd wr : Bool) : State :=
  let s := (s.setFld Fld.urnRegionBase first m r).setFld Fld.urnRegionLimit last m r
  ((s.setFld Fld.urnRegionRd (b2n rd) m r).setFld Fld.urnRegionWr (b2n wr) m r).setFld Fld.urnRegionValid 1 m r

/-- Every region of a master is cleared. -/
def State.clearRegions (s : State) (m : Nat) : State :=
  (List.range 8).foldl (fun s r => s.wr .urnRegion m r 0) s

end Sys2Proof.Machine
end

