-- ==== Sys2Proof/Machine/Library.lean ====
section
/-! DEFINITION. The meanings of the library commands (spec/07): LREAD, LSTAGE, LLOAD, VOLUME, and the events of flash and staging. -/

namespace Sys2Proof.Machine

/-! ### Shares of a library range -/

/-- The stripe units that bytes `[o, o + n)` of a volume touch: unit, first byte in the unit, length, offset in the range. -/
def unitShares : Nat → Nat → Nat → Nat → List (Nat × Nat × Nat × Nat)
  | 0, _, _, _ => []
  | fuel + 1, o, n, at' =>
    if n = 0 then []
    else
      let k := min n (65536 - o % 65536)
      (o / 65536, o % 65536, k, at') :: unitShares fuel (o + k) (n - k) (at' + k)

/-- A share switches to its cheaper path: under DEGRADE with its domain LIVE, the deadline has passed, or the completion that the
device predicts lies beyond it; the prediction is a free value, and with rate 0 only a passed deadline switches (R207). -/
def State.switches (s : State) (c : Cmd) : Bool :=
  decide (Entry.dlMode c.entry = 1) &&
    (match c.deadline with
     | none => false
     | some dl => decide ((s.dom dl.domain).state = .live) &&
         (s.lateNow c || (decide ((s.dom dl.domain).rate ≠ 0) && decide (s.free % 2 = 1))))

/-- A count of planes held to 1 to 8 (LIB_CTRL.DEG_PLANES, SEQ_CTRL.DEG_PLANES). -/
def degPlanes (n : Nat) : Nat := clamp 1 8 n

/-- Pages `i` on of a unit record, `n` of them, that keeping `q` planes limits (R208). -/
def State.limitedPages (s : State) (ch fr q : Nat) (es : List PageEntry) : Bool :=
  es.any fun e => decide (e.codec = 4) && e.mapped &&
    decide (q < planeWidth (Container.ofBytes (s.flash.getN (frameKey ch fr * 65536 + 256 * e.base) (256 * (e.count + 1)))).param)

/-- What a share of an LREAD gives: the bytes of its prefix and the status that ended it, and the degrade kind and planes. -/
abbrev ShareRead := (List Byte × Option Status) × Nat × Nat

/-- Bytes `[a, a + n)` of unit `u` of a volume for an LREAD (R201, R207 to R210). -/
def State.readShare (s : State) (c : Cmd) (vol u a n : Nat) : State × ShareRead :=
  let v := s.volumes.get vol
  let whole := fun (s : State) =>
    let (s, b, st) := s.readUnit vol u a n
    (s, ((b, st), 0, 0))
  let sw := s.switches c
  let s := s.tookFree
  if !sw then whole s
  else match v.shadow with
    | some w =>
      if (s.volumes.get w).length < u * 65536 + a + n then whole s
      else match s.readUnit w u a n with
        | (s, b, none) => (s.bump Fld.libDegShadow, ((b, none), 1, 0))
        | (s, _, some _) => whole s
    | none =>
      let q := degPlanes (s.fld Fld.libCtrlDegPlanes)
      let ch := (v.place u).2
      let r := s.unitRecs.get (unitKeyOf vol u)
      let es := (r.pages.drop (a / pageSize)).take ((a + n - 1) / pageSize - a / pageSize + 1)
      if !s.limitedPages ch r.frame q es then whole s
      else match s.readBytes vol u q a n with
        | (s, b, none) => (s.bump Fld.libDegPlanes, ((b, none), 2, q))
        | (s, _, some _) => whole s

/-- The record that tells the planning device how a share was degraded: kind and planes in the form of R117. -/
def degRecord (kind q : Nat) : List Byte := if kind = 0 then [] else leBytes 8 kind ++ leBytes 4 q ++ zeroBytes 4

/-! ### Planning and joining shares -/

/-- Shares of a command still to be planned: those after the ones that have a part. -/
def State.unplanned (s : State) (tag : Nat) (shares : List (Nat × Nat × Nat × Nat)) : List (Nat × Nat × Nat × Nat) :=
  shares.drop (s.partsOf tag).length

/-- Bytes of the prefix of a list of ended parts that came whole, and what ended it. -/
def prefixOf : List (Nat × Part) → Nat × List Byte × Option Status
  | [] => (0, [], none)
  | (_, p) :: ps =>
    if p.status.isError || decide (p.moved < p.len) then
      (p.moved, p.data.take p.moved, if p.status.isError then some p.status else none)
    else
      let (m, d, st) := prefixOf ps
      (p.len + m, p.data ++ d, st)

/-- Degrade kinds and planes that the parts of a command report. -/
def partRecs (ps : List (Nat × Part)) : List (Nat × Nat) :=
  (ps.filter fun e => decide (e.2.recs.length = 16)).map fun e => (leNat (e.2.recs.take 8), leNat ((e.2.recs.drop 8).take 4))

/-- Result1 of an LREAD: kind 2 where a page was plane-limited, else 1 where the shadow served, and the least plane count (R209). -/
def degResult (rs : List (Nat × Nat)) : Nat :=
  let qs := (rs.filter fun r => r.1 = 2).map (·.2)
  match qs with
  | [] => if rs.isEmpty then 0 else 1
  | q :: qs => 2 + 16 * qs.foldl min q

/-- A library command that ends after its deadline is counted (R211). -/
def State.countLateCmd (s : State) (c : Cmd) : State := if s.lateNow c then s.bump Fld.libCauseLateLateCmds else s

/-- A part's work has ended here: its data goes to the origin, its answer is due. -/
def State.endShare (s : State) (tag : Nat) (c : Cmd) (st : Status) (moved len : Nat) (data recs : List Byte) : State :=
  let s := s.deliver c (Entry.hostBuf c.entry) data
  (s.modCmd tag fun c => { c with recs := recs }).finish tag (Res.moved st moved len)

/-- LREAD of one share, here or by the device that holds the unit. -/
def State.planRead (s : State) (tag : Nat) (c : Cmd) (vol : Nat) : List (Nat × Nat × Nat × Nat) → State
  | [] => s
  | (u, a, n, o) :: rest =>
    let d := ((s.volumes.get vol).place u).1
    let obj := Entry.object c.entry + o
    let s :=
      if !s.mine d then s.sendWork tag c d obj n o []
      else
        let (s, (b, st), k, q) := s.readShare c vol u a n
        s.localPart tag obj n o (st.getD .ok) b.length b (degRecord k q)
    s.planRead tag c vol rest

/-- LREAD ends: the prefix of its shares goes to the host (R101, R209). -/
def State.joinRead (s : State) (tag : Nat) (c : Cmd) : State :=
  let ps := s.partsOf tag
  let (m, data, st) := prefixOf ps
  let rs := partRecs ps
  let r1 := degResult rs
  let s := (s.deliver c (Entry.hostBuf c.entry) data).countLateCmd c
  let st := st.getD (if r1 = 0 then .ok else .okPartial)
  (s.dropParts tag).finish tag (Res.moved st m (Entry.length c.entry) r1)

/-- The checks of a library data command on its planning device, and forwarding to it (R35, R113, R199). -/
def State.planned (s : State) (tag : Nat) (c : Cmd) (work : State → State) : State :=
  let v := s.volumes.get (Addr.vol (Entry.object c.entry))
  match rangeRules c.entry with
  | some st => s.finish tag (Res.err st)
  | none =>
    if decide (Addr.sys (Entry.object c.entry) ≠ s.sys) then
      s.forward tag c (Addr.sys (Entry.object c.entry)) (Addr.vol (Entry.object c.entry) % 1024)
    else if !v.present then s.finish tag (Res.err .badField)
    else match s.planner v with
      | none => s.finish tag (Res.err .linkUnreachable)
      | some d =>
        if !s.mine d then s.forward tag c s.sys d
        else match c.refuse with
          | some st => s.finish tag (Res.err st)
          | none => if s.abandoned c then s.finish tag (Res.err .deadlineMissed) else work s

/-- LREAD (R199 to R201, R207 to R210). -/
def execLread (tag : Nat) (s : State) : Out :=
  s.serve tag 0x20 fun c s =>
    let vol := Addr.vol (Entry.object c.entry)
    match c.part with
    | some (obj, n, _) =>
      let (s, (b, st), k, q) := s.readShare c vol (Addr.libOff obj / 65536) (Addr.libOff obj % 65536) n
      s.endShare tag c (st.getD .ok) b.length n b (degRecord k q)
    | none => s.planned tag c fun s =>
      let shares := unitShares (libUnits c.entry) (Addr.libOff (Entry.object c.entry)) (Entry.length c.entry) 0
      let s := (s.planRead tag c vol (s.unplanned tag shares)).modCmd tag fun c => { c with stage := .running, started := true }
      if s.partsDone tag then s.joinRead tag c else s

/-! ### LSTAGE (R202 to R205) -/

/-- LSTAGE of shares in order: each is staged here or by its holding device; a full tier stops the planning. -/
def State.planStage (s : State) (tag : Nat) (c : Cmd) (vol tier : Nat) : List (Nat × Nat × Nat × Nat) → State × Bool
  | [] => (s, false)
  | (u, a, n, o) :: rest =>
    let d := ((s.volumes.get vol).place u).1
    let obj := Entry.object c.entry + o
    if !s.mine d then (s.sendWork tag c d obj n o []).planStage tag c vol tier rest
    else match s.stageUnit vol u tier with
      | none => (s, true)
      | some (s, none) => (s.localPart tag obj n o .ok n [] []).planStage tag c vol tier rest
      | some (s, some st) => (s.localPart tag obj n o st (0 * a) [] []).planStage tag c vol tier rest

/-- LSTAGE ends with the prefix staged. -/
def State.joinStage (s : State) (tag : Nat) (c : Cmd) (st : Status) : State :=
  let (m, _, e) := prefixOf (s.partsOf tag)
  let bad := libUnits c.entry - ((s.partsOf tag).filter fun p => p.2.done && decide (p.2.status = .ok)).length
  let s := if 2 ^ 21 ≤ c.sq then s.modCmd tag fun c => { c with moved := bad + 1 } else s
  ((s.dropParts tag).countLateCmd c).finish tag (Res.moved (e.getD st) m (Entry.length c.entry))

/-- A tier is full of protected copies: ABANDON ends with NO_SPACE, the other modes wait (R205). -/
def State.tierFull (s : State) (tag : Nat) (c : Cmd) (ended : State → State) : State :=
  if Entry.dlMode c.entry = 3 then ended s
  else s.modCmd tag fun c => { c with stage := .running, started := true, waitSince := some (c.waitSince.getD s.us) }

/-- LSTAGE (R202 to R205). -/
def execLstage (tag : Nat) (s : State) : Out :=
  s.serve tag 0x21 fun c s =>
    let vol := Addr.vol (Entry.object c.entry)
    let tier := Entry.spec c.entry 40 1
    match c.part with
    | some (obj, n, _) =>
      (match s.stageUnit vol (Addr.libOff obj / 65536) tier with
       | none => s.tierFull tag c fun s => s.endShare tag c .noSpace 0 n [] []
       | some (s, none) => s.endShare tag c .ok n n [] []
       | some (s, some st) => s.endShare tag c st 0 n [] [])
    | none =>
      if 1 < tier then s.finish tag (Res.err .badField)
      else s.planned tag c fun s =>
        let shares := unitShares (libUnits c.entry) (Addr.libOff (Entry.object c.entry)) (Entry.length c.entry) 0
        let (s, full) := s.planStage tag c vol tier (s.unplanned tag shares)
        if full then s.tierFull tag c fun s => s.joinStage tag c .noSpace
        else
          let s := s.modCmd tag fun c => { c with stage := .running, started := true, waitSince := none }
          if s.partsDone tag then s.joinStage tag c .ok else s

/-- STAGE_WAIT_EXPIRY: a wait for tier room has lasted LIB_STAGE_WAIT.US (R205). -/
def execStageWaitExpiry (tag : Nat) (s : State) : Out :=
  let c := s.cmd tag
  match c.waitSince with
  | none => .next s
  | some t =>
    if !c.live || decide (Entry.op c.entry ≠ 0x21) || decide (c.stage = .done) || decide (s.us < t + s.fld Fld.libStageWaitUs) then .next s
    else match c.part with
      | some (_, n, _) => .next (s.endShare tag c .noSpace 0 n [] [])
      | none => .next (s.joinStage tag c .noSpace)

/-- STAGE_HOLD_EXPIRY: LIB_STAGE_HOLD.MS have passed since a copy was staged (R204). -/
def execStageHoldExpiry (vol unit tier : Nat) (s : State) : Out :=
  let k := stagedKey vol unit tier
  let x := s.staged.get k
  if x.present && decide (x.since + 1000 * s.fld Fld.libStageHoldMs ≤ s.us) then
    .next { s with staged := s.staged.put k { x with hold := false } }
  else .next s

/-! ### LLOAD (R197, R198) -/

/-- The bytes of a unit with new ones written over it from `a` on. -/
def State.mergeUnit (s : State) (vol u a : Nat) (new : List Byte) : State × UnitBytes :=
  if a = 0 then (s, .ok new)
  else match s.readFlashUnit vol u 8 with
    | (s, .ok b) => (s, .ok (b.take a ++ new))
    | (s, .error st) => (s, .error st)

/-- A share of an LLOAD is stored here. -/
def State.loadShare (s : State) (vol u a hint : Nat) (new : List Byte) : State × Option Status :=
  match s.mergeUnit vol u a new with
  | (s, .error st) => (s, some st)
  | (s, .ok b) =>
    match s.storeUnit vol u hint b with
    | .error st => (s, some st)
    | .ok s => (s, none)

/-- LLOAD of shares in order: each unit goes to its holding device with its data. -/
def State.planLoad (s : State) (tag : Nat) (c : Cmd) (vol : Nat) : List (Nat × Nat × Nat × Nat) → State
  | [] => s
  | (u, a, n, o) :: rest =>
    let d := ((s.volumes.get vol).place u).1
    let obj := Entry.object c.entry + o
    let data := s.source c (Entry.hostBuf c.entry + o) n
    let s :=
      if !s.mine d then s.sendWork tag c d obj n o data
      else match s.loadShare vol u a (Entry.spec c.entry 41 1) data with
        | (s, none) => s.localPart tag obj n o .ok n [] []
        | (s, some st) => s.localPart tag obj n o st 0 [] []
    s.planLoad tag c vol rest

/-- Units of this device beyond a volume's length are freed (R198). -/
def State.freeBeyond (s : State) (vol len : Nat) : State :=
  let us := (s.unitRecs.sel fun k r => decide (k / 2 ^ 24 = vol) && r.present && decide (len ≤ k % 2 ^ 24 * 65536)).map (· % 2 ^ 24)
  us.foldl (fun s u =>
    let r := s.unitRecs.get (unitKeyOf vol u)
    (({ s with unitRecs := s.unitRecs.put (unitKeyOf vol u) default }).dropStaged vol u).dropFrame (((s.volumes.get vol).place u).2) r.frame) s

/-- A volume's new length, and SEALED where asked, in this device's table (R198). -/
def State.setLength (s : State) (vol len : Nat) (shut : Bool) : State :=
  let s := { s with volumes := s.volumes.upd vol fun v => { v with length := len, sealed := v.sealed || shut } }
  s.freeBeyond vol len

/-- The other devices of a volume's stripe list. -/
def State.otherDevs (s : State) (v : Volume) : List Nat := v.stripe.filter fun d => !s.mine d

/-- A table change goes to every device of a list. -/
def State.sendTables (s : State) (tag : Nat) (c : Cmd) (code len : Nat) : List Nat → State
  | [] => s
  | d :: ds => (s.sendTable tag c d code len).sendTables tag c code len ds

/-- LLOAD ends with its reply: MOVED, and the length after the load (R114, R198). -/
def State.endLoad (s : State) (tag : Nat) (c : Cmd) (st : Status) (m : Nat) : State :=
  let vol := Addr.vol (Entry.object c.entry)
  let n := Entry.length c.entry
  let s := { s with volumes := s.volumes.upd vol fun v => { v with planned := v.planned - (n - m) } }
  ((s.dropParts tag).dropAsks tag).finish tag (Res.moved st m n ((s.volumes.get vol).length))

/-- Every unit of a load has been stored or refused: the new length goes to every listed device (R198 steps 4 and 5). -/
def State.joinLoad (s : State) (tag : Nat) (c : Cmd) : State :=
  let vol := Addr.vol (Entry.object c.entry)
  let n := Entry.length c.entry
  let (m, _, e) := prefixOf (s.partsOf tag)
  let st := e.getD (if m < n then .noSpace else .ok)
  if (s.asksOf tag).isEmpty && decide (c.moved = 0) then
    let len := Addr.libOff (Entry.object c.entry) + m
    let shut := bit (Entry.spec c.entry 40 1) 0 && decide (m = n)
    let s := s.setLength vol len shut
    let s := s.sendTables tag c (if shut then 3 else 2) len (s.otherDevs (s.volumes.get vol))
    let s := s.modCmd tag fun c => { c with moved := m }
    if s.asksDone tag then s.endLoad tag c st m else s
  else if s.asksDone tag then s.endLoad tag c st m
  else s

/-- LLOAD (R114, R197, R198). -/
def execLload (tag : Nat) (s : State) : Out :=
  s.serve tag 0x22 fun c s =>
    let vol := Addr.vol (Entry.object c.entry)
    let o := Addr.libOff (Entry.object c.entry)
    match c.part with
    | some (obj, n, _) =>
      (match s.loadShare vol (Addr.libOff obj / 65536) (Addr.libOff obj % 65536) (Entry.spec c.entry 41 1) (c.inData.take n) with
       | (s, none) => s.endShare tag c .ok n n [] []
       | (s, some st) => s.endShare tag c st 0 n [] [])
    | none =>
      if 8 < Entry.spec c.entry 41 1 then
        (if c.objs = [] ∨ c.refuse.isSome = true then s.finish tag (Res.err .badField) else (s.endLoad tag c .badField 0).finish tag (Res.err .badField))
      else s.planned tag c fun s =>
        let v := s.volumes.get vol
        if c.stage = .running then (if s.partsDone tag then s.joinLoad tag c else s)
        else if (s.cmds.any fun e => e.2.live && decide (e.2.order < c.order) && decide (Entry.op e.2.entry = 0x22) &&
            decide (e.2.stage ≠ .done) && e.2.objs.contains (.volume vol)) then s
        else if o ≠ v.length ∨ v.sealed = true then s.endLoad tag c .badField 0
        else
          let n := min (Entry.length c.entry) (2 ^ 40 - o)
          let s := s.planLoad tag c vol (unitShares (libUnits c.entry) o n 0)
          let s := s.modCmd tag fun c => { c with stage := .running, started := true }
          if s.partsDone tag then s.joinLoad tag c else s

/-! ### VOLUME (R123, R126, R191, R192, R194) -/

/-- The function that a VOLUME command names, on the device that QSPEC names. -/
def State.volWho (s : State) (c : Cmd) : Who :=
  ⟨if c.table.isSome then (c.origin.getD (s.dev, 0)).1 % 1024 else s.dev, Entry.spec c.entry 42 1⟩

/-- The stripe list that a command carries in its host buffer: the device ids, and whether every reserved bit is zero. -/
def State.stripeList (s : State) (c : Cmd) (home : Nat) : List Nat × Bool :=
  let n := Entry.length c.entry
  if n = 0 then ([home], true)
  else
    let bs := s.source c (Entry.hostBuf c.entry) n
    let ws := (List.range (n / 2)).map fun i => leNat ((bs.drop (2 * i)).take 2)
    (ws.map (· % 1024), ws.all (· < 1024))

/-- A stripe list is well formed: 1 to 64 entries of 2 bytes, no device twice. -/
def stripeOk (n : Nat) (l : List Nat) : Bool :=
  decide (n % 2 = 0) && decide (1 ≤ l.length) && decide (l.length ≤ 64) && decide (l.eraseDups.length = l.length)

/-- The shadow volume that CREATE names. -/
def shadowOf (e : Nat) : Option Nat :=
  let x := Entry.spec e 44 4
  if bit x 31 then some (x % 2 ^ 18) else none

/-- A VOLUME change made in this device's table: the new table, or the refusal (R191, R192). -/
def State.volChange (s : State) (c : Cmd) (stripe : List Nat) : Except Status State :=
  let id := Addr.vol (Entry.object c.entry)
  let v := s.volumes.get id
  let w := s.volWho c
  let put := fun (x : Volume) => { s with volumes := s.volumes.put id x, volPrev := s.volPrev.put id v }
  match Entry.spec c.entry 40 1 with
  | 0 =>
    if v.present then .error .badField
    else if (List.range 32).any fun ch => s.flag Fld.libChStateAbsent ch then .error .badField
    else if 16384 ≤ s.fld Fld.libVolumesCount then .error .noSpace
    else
      let x : Volume := { present := true, writer := w, stripe := stripe, start := id % 32 }
      let s' := fun (x : Volume) => (put x).setFld Fld.libVolumesCount (s.fld Fld.libVolumesCount + 1)
      match shadowOf c.entry with
      | none => .ok (s' x)
      | some sh =>
        let y := s.volumes.get sh
        if !y.present || y.deleting || y.shadow.isSome || decide (y.stripe ≠ stripe) then .error .badField
        else .ok (s' { x with shadow := some sh, start := (y.start + 16) % 32 })
  | 1 =>
    if !v.present || v.deleting || (s.volumes.any fun e => decide (e.2.shadow = some id)) then .error .badField
    else .ok (put { v with deleting := true })
  | 2 =>
    if !v.present || v.deleting then .error .badField
    else if v.readers.contains w then .ok (put v)
    else if 64 ≤ v.readers.length then .error .noSpace
    else .ok (put { v with readers := v.readers ++ [w] })
  | 3 => if !v.present || v.deleting then .error .badField else .ok (put { v with readers := v.readers.filter (· ≠ w) })
  | 4 => if !v.present || v.deleting then .error .badField else .ok (put { v with writer := w })
  | _ => .error .badField

/-- The last table change of a volume is undone (R126). -/
def State.volUndo (s : State) (id : Nat) : State :=
  let old := s.volPrev.get id
  let s := if (s.volumes.get id).present && !old.present then s.setFld Fld.libVolumesCount (s.fld Fld.libVolumesCount - 1) else s
  { s with volumes := s.volumes.put id old, volPrev := s.volPrev.put id default }

/-- A deleted volume's copies, frames, records and entry leave this device (R192, R194). -/
def State.volErase (s : State) (id : Nat) : State :=
  let s := s.freeBeyond id 0
  let s := { s with volumes := s.volumes.put id default }
  s.setFld Fld.libVolumesCount (s.fld Fld.libVolumesCount - 1)

/-- The field checks of VOLUME that its table does not decide (R123, R192, R564). -/
def volFields (e : Nat) : Option Status :=
  let op := Entry.spec e 40 1
  if decide (4 < op) || decide (Addr.libOff (Entry.object e) ≠ 0) then some .badField
  else if decide (op ≠ 0) && (decide (Entry.spec e 44 4 ≠ 0) || decide (Entry.length e ≠ 0)) then some .badField
  else none

/-- VOLUME on a listed device, by a TABLE notice; DELETE waits for the commands accepted under the volume. -/
def State.volHere (s : State) (tag : Nat) (c : Cmd) : State :=
  let id := Addr.vol (Entry.object c.entry)
  if c.stage = .running then (if s.objBusy (.volume id) tag then s else (s.volErase id).finish tag {})
  else match s.volChange c (s.stripeList c ((c.origin.getD (0, 0)).1 % 1024)).1 with
    | .error st => s.finish tag (Res.err st)
    | .ok s => if Entry.spec c.entry 40 1 = 1 then s.modCmd tag fun c => { c with stage := .running } else s.finish tag {}

/-- Data of a stripe list for the TABLE notices of CREATE, sent under their tags. -/
def State.sendLists (s : State) (c : Cmd) (bs : List Byte) : List (Nat × Ask) → State
  | [] => s
  | (k, a) :: r => (s.sendData (s.headFor c 0x03 s.sys a.dev (partTag k)) (bs.length / 4096 + 1) bs).sendLists c bs r

/-- VOLUME on the device that carries it out: every listed device changes, or none (R126, R194). -/
def State.serveVolume (s : State) (tag sub : Nat) (c : Cmd) : State :=
  let e := c.entry
  let id := Addr.vol (Entry.object e)
  if c.table.isSome then s.volHere tag c
  else if c.stage ≠ .running then
    match volFields e with
    | some st => s.finish tag (Res.err st)
    | none =>
      let (l, clean) := if sub = 0 then s.stripeList c s.dev else ((s.volumes.get id).stripe, true)
      let far := l.filter fun d => !s.mine d
      if sub = 0 && (!clean || !stripeOk (if Entry.length e = 0 then 2 else Entry.length e) l) then s.finish tag (Res.err .badField)
      else if far.any fun d => !s.reach s.sys d then s.finish tag (Res.err .linkUnreachable)
      else if sub = 0 && !l.any s.mine then
        let s := s.sendTables tag c 0 0 far
        (s.sendLists c (s.source c (Entry.hostBuf e) (Entry.length e)) (s.asksOf tag)).modCmd tag fun c => { c with stage := .running, started := true }
      else match s.volChange c l with
        | .error st => s.finish tag (Res.err st)
        | .ok s =>
          let s := s.sendTables tag c 0 0 far
          let s := if sub = 0 then s.sendLists c (s.source c (Entry.hostBuf e) (Entry.length e)) (s.asksOf tag) else s
          if far.isEmpty ∧ sub ≠ 1 then s.finish tag {} else s.modCmd tag fun c => { c with stage := .running, started := true }
  else if !s.asksDone tag then s
  else match s.askError tag with
    | some st =>
      let ok := ((s.asksOf tag).filter fun a => a.2.code = 0 && a.2.status = some .ok).map fun a => a.2.dev
      if c.abort then (s.dropAsks tag).finish tag (Res.err st)
      else
        let s := if (s.volumes.get id).present then s.volUndo id else s
        (s.sendTables tag c 1 0 ok).modCmd tag fun c => { c with abort := true }
    | none =>
      if sub = 1 ∧ s.objBusy (.volume id) tag = true then s
      else (if sub = 1 then s.volErase id else s).dropAsks tag |>.finish tag {}

/-- A VOLUME command of op `sub`; an op above 4 is refused by the CREATE row. -/
def State.volumeOp (s : State) (t sub : Nat) : Out :=
  s.serveFm t 0x86 fun c s =>
    let op := Entry.spec c.entry 40 1
    if op = sub then s.serveVolume t sub c
    else if sub = 0 && decide (4 < op) then s.finish t (Res.err .badField)
    else s

/-- VOLUME_CREATE (R123, R126, R191, R192). -/
def execVolumeCreate (tag : Nat) (s : State) : Out := s.volumeOp tag 0
/-- VOLUME_DELETE (R192, R194). -/
def execVolumeDelete (tag : Nat) (s : State) : Out := s.volumeOp tag 1
/-- GRANT_READ (R192). -/
def execGrantRead (tag : Nat) (s : State) : Out := s.volumeOp tag 2
/-- REVOKE_READ (R192). -/
def execRevokeRead (tag : Nat) (s : State) : Out := s.volumeOp tag 3
/-- SET_WRITER (R192). -/
def execSetWriter (tag : Nat) (s : State) : Out := s.volumeOp tag 4

/-! ### Flash events (R188 to R190, R212, R213) -/

/-- The unit whose record names frame `fr` of a channel: volume and unit. -/
def State.unitOfFrame (s : State) (ch fr : Nat) : Option (Nat × Nat) :=
  (s.unitRecs.find? fun e => e.2.present && decide (e.2.frame = fr) &&
    decide (((s.volumes.get (e.1 / 2 ^ 24)).place (e.1 % 2 ^ 24)).2 = ch)).map fun e => (e.1 / 2 ^ 24, e.1 % 2 ^ 24)

/-- The unit in frame `fr` moves to a free frame of its channel, reserve frames included; its record follows and the old frame is
freed (R188, R190, R213). None where the channel is out of service or holds no free frame. -/
def State.moveFrame (s : State) (ch fr : Nat) : Option State :=
  match s.unitOfFrame ch fr with
  | none => none
  | some (v, u) =>
    if s.unitState 7 ch = 0 ∨ s.fld Fld.libFlashReserve = 0 then none
    else (s.freeFrame ch s.chFrames).map fun new =>
      let s := s.programFrame ch new (s.flash.getN (frameKey ch fr * 65536) 65536) true
      let s := { s with unitRecs := s.unitRecs.upd (unitKeyOf v u) fun r => { r with frame := new },
                        frames := s.frames.upd (frameKey ch fr) fun f => { f with used := false, stale := true } }
      (s.setFld Fld.libFlashReserve (s.fld Fld.libFlashReserve + 1)).sendDead (flashStripe ch fr)

/-- Reconstruction of a frame failed: its sectors are lost, and the pages that need them are set POISON, unless their set cannot be read now (R168,
R188). -/
def State.spoilFrame (s : State) (ch fr : Nat) : State :=
  match s.unitOfFrame ch fr with
  | none => s
  | some (v, u) =>
    if s.recoverState 2 (flashStripe ch fr) = .later then s
    else (List.range 16).foldl (fun s i =>
      let e := (s.unitRecs.get (unitKeyOf v u)).pages.getD i default
      if e.mapped && !e.poison && decide (e.codec ≠ 0) then s.poisonUnitPage v u fr i else s) s

/-- A frame read ended at a step of R188: 1 hard decode, 2 retry, 3 soft decode, 4 reconstruction, 5 failed; `corrected` is the largest
count of corrected bits in a codeword. -/
def State.frameRead (s : State) (ch fr step corrected : Nat) : State :=
  let s := s.capture 2 ch (s.flash.getN ((ch * 2 ^ 28 + fr) * 65536) 4097)
  let s := if 2 ≤ step then s.bump Fld.libErrRetry else s
  let s := if 3 ≤ step then s.bump Fld.libErrSoft else s
  let s := if step = 4 then s.bump Fld.libErrRecon else s
  if step = 4 ∨ (step = 3 ∧ s.fld Fld.libCtrlRefreshBits < corrected) then
    match s.moveFrame ch fr with
    | some s => s.bump Fld.libErrRewrite
    | none => s
  else if step = 5 then s.spoilFrame ch fr
  else s

/-- FLASH_FRAME_READ (R188). -/
def execFlashFrameRead (ch frame step corrected : Nat) (s : State) : Out := .next (s.frameRead ch frame step corrected)

/-- LIB_PATROL: a frame is read by the patrol, under the housekeeping blend (R189). -/
def execLibPatrol (ch frame step corrected : Nat) (s : State) : Out :=
  let (s, _) := s.chargeWork deviceAccount (s.fld Fld.libCtrlHouseBlend) 65536
  .next (s.frameRead ch frame step corrected)

/-- A LUN's failed mark comes from an order on its channel, or from its own failure, which an order's end does not lift (R214). -/
def State.markLun (s : State) (ch t l why : Nat) : State :=
  let marks := (s.svc.get (unitKey 7 ch)).marks
  if decide (why = 2) = bit marks (4 * t + l) then s
  else s.modUnit 7 ch fun u => { u with marks := setBits marks (4 * t + l) 1 (b2n (decide (why = 2))) }

/-- A LUN is declared failed (R212); `why` 0 blocks, 1 no status, 2 ordered. -/
def State.failLun (s : State) (ch t l why : Nat) : State :=
  if bit (s.fld Fld.libChStateFailed ch) (4 * t + l) then (if why = 2 then s else s.markLun ch t l why)
  else
    let s := s.markLun ch t l why
    let s := s.setFld Fld.libChStateFailed (s.fld Fld.libChStateFailed ch ||| 2 ^ (4 * t + l)) ch
    s.log 0x040B 8 ch (t + l * 2 ^ 8 + why * 2 ^ 16)

/-- LUN_STATUS_TIMEOUT: a LUN has not answered READ STATUS ENHANCED for 10 ms (R212). -/
def execLunStatusTimeout (ch target lun : Nat) (s : State) : Out := .next (s.failLun ch target lun 1)

/-- The key of a LUN's failed-block count. -/
def lunKey (ch t l : Nat) : Nat := ch * 32 + 4 * t + l

/-- FLASH_PROGRAM_DONE: a program or erase of a block of a LUN ended; more failed blocks than DIE_FAIL_BLOCKS fail the LUN (R212). -/
def execFlashProgramDone (ch target lun : Nat) (erase failed : Bool) (s : State) : Out :=
  if !failed then
    let ks := s.frames.sel fun k f => decide (k / 2 ^ 28 = ch) && decide (f.target = target) && decide (f.lun = lun)
    .next (if erase then { s with frames := SMap.updAll (fun f => { f with stale := false }) ks s.frames } else s)
  else
    let n := s.lunFails.get (lunKey ch target lun) + 1
    let s := { s with lunFails := s.lunFails.put (lunKey ch target lun) n }
    .next (if s.fld Fld.libCtrlDieFailBlocks < n then s.failLun ch target lun 0 else s)

/-- DIE_REBUILD_UNIT: one stripe unit of a failed die is rebuilt into a reserve frame of its channel (R213). -/
def execDieRebuildUnit (vol unit frame : Nat) (s : State) : Out :=
  let ch := ((s.volumes.get vol).place unit).2
  let r := s.unitRecs.get (unitKeyOf vol unit)
  if !r.present || decide (r.frame ≠ frame) || !s.frameLost ch frame || decide (s.unitState 7 ch = 0) || decide (s.recoverState 2 (flashStripe ch frame) ≠ .possible) then .next s
  else if s.fld Fld.libFlashReserve = 0 ∨ (s.freeFrame ch s.chFrames).isNone = true then .next (s.log 0x040C 8 ch 0)
  else .next (((s.moveFrame ch frame).getD s).bump Fld.libErrRecon)

/-! ### Staging sizes (R215) -/

/-- LIB_STAGE_DRAM_WRITE: a write of LIB_STAGE_DRAM.GIB; `src` 0 BAR0, 1 and 2 the bus pairs. -/
def execLibStageDramWrite (src gib : Nat) (s : State) : Out :=
  let s := s.fmInput src 8 gib
  if (s.owners.all fun e => decide (e.2 = none)) && decide (16 ≤ gib) && decide (gib ≤ 4096) &&
      decide (1 ≤ usableSectors s.dramGib (s.fld Fld.poolLogicalGib) gib) then
    .next ((s.setFld Fld.libStageDramGib gib).countSectors)
  else .next (s.logIgnored 0xA0008 src gib)

/-- LIB_STAGE_URN_WRITE: a write of LIB_STAGE_URN.MIB; `src` as above (R215, R267). -/
def execLibStageUrnWrite (src mib : Nat) (s : State) : Out :=
  let s := s.fmInput src 8 mib
  if decide (s.fld Fld.libStageFillUrn = 0) && decide (mib ≤ 256) && s.layoutFits mib (s.fld Fld.prsScratchMib) then
    .next ((s.setFld Fld.libStageUrnMib mib).setLayout)
  else .next (s.logIgnored 0xA0010 src mib)

end Sys2Proof.Machine
end

