-- ==== Sys2Proof/Machine/PourOps.lean ====
section
/-! DEFINITION. Pour domains (spec/02): applying an update (R42, R43, R47), flooding (R46), synchronisation (R48), interpolation
(R50), the deadlines that pass (R54), and the trigger entries that fall due or expire (R59 to R61). -/

namespace Sys2Proof.Machine

/-! ### One update -/

/-- An update: the position, rate and brim it carries (the 16-byte message of spec/02). -/
structure Update where
  epoch : Nat
  layer : Nat
  tick : Nat
  rate : Option Nat
  brim : Option Nat
  deriving DecidableEq, Repr

/-- The position rules refuse the update as a regress (R42). -/
def Dom.regress (d : Dom) (u : Update) : Bool :=
  decide (u.epoch < d.epoch) ||
    (decide (u.epoch = d.epoch) && decide (packPos u.epoch u.layer u.tick < packPos d.lastEpoch d.lastLayer d.lastTick) &&
      decide (d.lastEpoch = d.epoch))

/-- The update is clamped to the interpolated position (R43). -/
def Dom.ahead (d : Dom) (u : Update) : Bool :=
  decide (u.epoch = d.epoch) && decide (packPos u.epoch u.layer u.tick < d.pos)

/-- The domain after an update that is not a regress, applied at µs `now` (R42, R43, R50). -/
def Dom.applied (d : Dom) (u : Update) (now : Nat) : Dom :=
  let hold := d.ahead u
  let moved := !hold && decide (packPos u.epoch u.layer u.tick ≠ d.pos)
  let brim := match u.brim with
    | some b => b
    | none => if decide (u.epoch ≠ d.epoch) || decide (d.layer < u.layer) then 0xFFFF else d.brim
  let tick := if hold then d.tick else u.tick
  { d with
    state := .live
    epoch := if hold then d.epoch else u.epoch
    layer := if hold then d.layer else u.layer
    tick := tick
    frac := if moved then 0 else d.frac
    rate := u.rate.getD d.rate
    brim := brim
    brimHeld := d.brimHeld && !moved && decide (tick = brim)
    lastEpoch := u.epoch, lastLayer := u.layer, lastTick := u.tick
    heard := now }

/-- The domain at 0:0:0, rate 0, brim 0xFFFF and STALE (R39), synchronised as given. -/
def Dom.cleared (d : Dom) : Dom :=
  { d with state := .stale, epoch := 0, layer := 0, tick := 0, frac := 0, rate := 0, brim := 0xFFFF, brimHeld := false, lastEpoch := 0,
           lastLayer := 0, lastTick := 0 }

/-! ### Triggers that fall due, expire or are lost -/

/-- Action rank of R61. -/
def actionRank (a : Nat) : Nat :=
  match a with
  | 0x05 => 0 | 0x04 => 1 | 0x03 => 2 | 0x01 => 3 | 0x02 => 4 | _ => 5

/-- The entry waits in the batch that is firing or in the next one. -/
def State.isDue (s : State) (e : Nat) : Bool := s.batch.any (·.entry = e) || s.dueNext.any (·.entry = e)

/-- The crossing that makes an entry due at its domain's position, if it is due there (R59, R60). -/
def Trig.dueAt (t : Trig) (d : Dom) : Option (Nat × Nat × Nat) :=
  if !t.eachLayer then
    if decide (d.epoch = t.epoch) && decide (packPos t.epoch t.layer t.tick ≤ d.pos) then some (t.epoch, t.layer, t.tick) else none
  else if (decide (t.epoch < d.epoch) || (decide (d.epoch = t.epoch) && decide (t.layer ≤ d.layer))) && decide (t.tick ≤ d.tick)
      && decide (t.fired ≠ some (d.epoch, d.layer)) then some (d.epoch, d.layer, t.tick)
  else none

/-- The entry is judged at its LIVE domain's position: it joins the next batch, expires, or stays (R59 to R61). -/
def State.judgeTrig (s : State) (e : Nat) : State :=
  let t := s.trigs.get e
  let d := s.dom t.domain
  if !t.valid || decide (d.state ≠ .live) || s.isDue e then s
  else if !t.eachLayer && decide (t.epoch < d.epoch) then
    ({ s with trigs := s.trigs.put e default }).bump Fld.pourTrigStatExpired
  else match t.dueAt d with
    | none => s
    | some (ep, l, tk) =>
      let s := if t.eachLayer then s.modTrig e fun t => { t with fired := some (d.epoch, d.layer) } else s
      { s with dueNext := s.dueNext ++ [⟨e, ep, l, tk⟩] }

/-- Every entry of a list is judged. -/
def State.judgeTrigs (s : State) : List Nat → State
  | [] => s
  | e :: es => (s.judgeTrig e).judgeTrigs es

/-- The entries of a domain. -/
def State.trigsOf (s : State) (d : Nat) : List Nat := s.trigs.sel fun _ t => t.valid && decide (t.domain = d)

/-- An EACH_LAYER entry whose tick was never reached in the layer that the position leaves is lost for that layer (R60). -/
def Trig.lostIn (t : Trig) (old : Dom) : Bool :=
  t.valid && t.eachLayer && (decide (t.epoch < old.epoch) || (decide (old.epoch = t.epoch) && decide (t.layer ≤ old.layer)))
    && decide (old.tick < t.tick) && decide (t.fired ≠ some (old.epoch, old.layer))

/-- The firings lost as the domain's position leaves a layer, counted (R60). -/
def State.countLost (s : State) (d : Nat) (old : Dom) : State :=
  let new := s.dom d
  if decide (old.epoch = new.epoch) && decide (old.layer = new.layer) then s
  else s.bump Fld.pourTrigStatSkipped (s.trigs.count fun _ t => decide (t.domain = d) && t.lostIn old)

/-- Every entry of the domain expires unfired (R40, R41). -/
def State.expireTrigs (s : State) (d : Nat) : State :=
  let n := (s.trigsOf d).length
  let gone := s.trigsOf d
  let s := { s with trigs := s.trigs.drop fun _ t => decide (t.domain = d),
                    batch := s.batch.filter fun x => !gone.contains x.entry,
                    dueNext := s.dueNext.filter fun x => !gone.contains x.entry }
  s.bump Fld.pourTrigStatExpired n

/-! ### Deadlines that pass (R54, R211) -/

/-- A library command that is held on the full path when its deadline passes counts each of its units once, under the cause that
holds them: 6 for units awaited from other devices, 5 staging full, else 0 channel busy (R211). -/
def State.countLate (s : State) (tag : Nat) (c : Cmd) : State :=
  let op := Entry.op c.entry
  let ps := s.partsOf tag
  if decide (op ∈ [0x20, 0x21]) && decide (Entry.dlMode c.entry ≠ 3) && c.part.isNone then
    let far := (ps.filter fun e => !e.2.done).length
    let s := s.bump Fld.libCauseCount far 6
    if op = 0x20 ∧ Entry.dlMode c.entry = 1 then s
    else s.bump Fld.libCauseCount (libUnits c.entry - ps.length) (if c.waitSince.isSome then 5 else 0)
  else s

/-- The commands in flight whose deadline has now passed are marked, and counted where R211 counts them. -/
def State.markMissed (s : State) : List Nat → State
  | [] => s
  | t :: ts =>
    let c := s.cmd t
    let s := match c.deadline with
      | some dl =>
        if s.deadlineMissed dl && !c.missed && decide (c.stage ≠ Stage.done) then
          (s.countLate t c).modCmd t fun c => { c with missed := true }
        else s
      | none => s
    s.markMissed ts

/-- What follows a change of domain `d`, whose record was `old`: lost layer firings, entries that fall due or expire, deadlines. -/
def State.posChanged (s : State) (d : Nat) (old : Dom) : State :=
  let s := s.countLost d old
  let s := s.judgeTrigs (s.trigsOf d)
  s.markMissed (s.cmds.sel fun _ c => c.live)

/-- POUR_STALE: domain, entered or left, position (R51). -/
def State.logStale (s : State) (d : Nat) (entered : Bool) : State :=
  s.log 0x0209 10 d (b2n entered + (s.dom d).pos * 2 ^ 64)

/-- Update `u` is applied to domain `d`, or counted as a regress and dropped (R42, R43, R47). The domain becomes LIVE, but with `live` clear: the reply of a
partner whose domain is not LIVE leaves it as it is (R48 step 3). -/
def State.applyUpdate (s : State) (d : Nat) (u : Update) (live : Bool := true) : State :=
  let old := s.dom d
  if old.regress u then s.bump Fld.pourDomStatRegress 1 d
  else
    let s := if old.ahead u then s.bump Fld.pourDomStatAhead 1 d else s
    let s := s.modDom d fun r => { r.applied u s.us with state := if live then .live else r.state }
    let s := if live && decide (old.state = .stale) then s.logStale d false else s
    s.posChanged d old

/-- A STALE domain becomes LIVE where a partner's LIVE domain has answered, its position kept (R48 step 3). -/
def State.liveAgain (s : State) (d : Nat) : State :=
  let old := s.dom d
  if old.state ≠ .stale then s
  else ((s.modDom d fun r => { r with state := .live }).logStale d false).posChanged d old

/-! ### Flooding and synchronisation (R46, R48) -/

/-- The 16-byte message of an update: position, domain, flags, rate, brim, sequence. -/
def updateSlot (pos d flags rgen rate brim seq : Nat) (peerLive : Bool) : List Byte :=
  leBytes 6 pos ++ leBytes 1 (d % 64 + 64 * b2n peerLive) ++ leBytes 1 (flags % 16 + 16 * (rgen % 16)) ++ leBytes 4 rate ++
    leBytes 2 brim ++ leBytes 2 seq

/-- The slot that floods the domain's latest update: `u` with the domain's generation and sequence. -/
def State.floodUpdate (s : State) (d : Nat) (u : Update) (reset : Bool) : State :=
  let r := s.dom d
  let flags := b2n u.rate.isSome + 2 * b2n u.brim.isSome + 4 * b2n reset
  let body := updateSlot (packPos u.epoch u.layer u.tick) d flags r.rgen (u.rate.getD 0) (u.brim.getD 0) r.seq false
  s.flood 0x01 body (List.range 62)

/-- Synchronisation of a domain begins, for the sake of `w`; with no usable link it is over at once (R48). -/
def State.startSync (s : State) (d : Nat) (w : SyncFor) : State :=
  let links := s.usableLinks (fun _ => true) 62
  if links.isEmpty then s
  else
    let body := leBytes 1 d ++ zeroBytes 1 ++ leBytes 2 (s.dev + 1024 * s.sys) ++ zeroBytes 12
    (s.modDom d fun r => { r with sync := some w }).sendSlots 0x0B body links

/-- The domain becomes synchronised with generation 0 and sequence 0 of its own (R48 steps 4 and 5). -/
def State.selfSync (s : State) (d : Nat) : State :=
  s.modDom d fun r => { r with synced := true, rgen := 0, seq := 0, sync := none }

/-- The reset of R40 at its origin: generation advanced, sequence 0, the update flooded and applied here. -/
def State.originReset (s : State) (d : Nat) : State :=
  let u : Update := ⟨0, 0, 0, some 0, some 0xFFFF⟩
  let s := s.expireTrigs d
  let s := s.modDom d fun r => { r.cleared with rgen := (r.rgen + 1) % 16, seq := 0, synced := true, sync := none }
  let s := s.floodUpdate d u true
  let old := s.dom d
  let s := s.modDom d fun r => r.applied u s.us
  let s := s.logStale d false
  s.posChanged d old

/-- The update that a POUR entry carries. -/
def pourUpdate (e : Nat) : Update :=
  let p := bits (Entry.object e) 0 48
  let o := Entry.spec e 46 1
  ⟨bits p 32 16, bits p 16 16, bits p 0 16, if bit o 0 then some (Entry.spec e 40 4) else none,
    if bit o 1 then some (Entry.spec e 44 2) else none⟩

/-- An accepted POUR is originated: next sequence, applied here, flooded, and answered with the position (R42, R45, R46). -/
def State.originUpdate (s : State) (d tag : Nat) : State :=
  let c := s.cmd tag
  let u := pourUpdate c.entry
  let ahead := (s.dom d).ahead u
  if (s.dom d).regress u then (s.bump Fld.pourDomStatRegress 1 d).finish tag (Res.err .pourRegress) else
  let s := s.modDom d fun r => { r with seq := (r.seq + 1) % 65536 }
  let s := s.applyUpdate d u
  let s := s.floodUpdate d u false
  s.finish tag { r0 := (s.dom d).pos, r1 := b2n ahead }

/-- What was waiting for the domain's synchronisation goes on (R40, R46, R48). -/
def State.afterSync (s : State) (d : Nat) (w : Option SyncFor) : State :=
  match w with
  | some .reset => s.originReset d
  | some (.update t) => if (s.cmd t).live && decide ((s.cmd t).stage ≠ Stage.done) then s.originUpdate d t else s
  | _ => s

/-- A received update of generation `g` and sequence `q` is handled by the first row of R47 that matches. -/
def State.receiveUpdate (s : State) (d : Nat) (u : Update) (g q : Nat) (reset sync peerLive : Bool) : State :=
  let r := s.dom d
  let w := r.sync
  let dg := (g + 16 - r.rgen % 16) % 16
  let ds := (q + 65536 - r.seq % 65536) % 65536
  if r.state = .off then s
  else if sync && r.synced then s
  else if !r.synced then
    let s := if reset then (s.expireTrigs d).modDom d Dom.cleared else s
    let s := s.applyUpdate d u (!sync || peerLive)
    let s := s.modDom d fun x => { x with synced := true, rgen := g, seq := q, sync := none, heard := s.us }
    (if sync && peerLive then s.liveAgain d else s).afterSync d w
  else if decide (dg = 0) && reset then s
  else if decide (dg = 0) && decide (1 ≤ ds) && decide (ds ≤ 32767) then
    (s.applyUpdate d u).modDom d fun x => { x with seq := q }
  else if dg = 0 then s
  else if decide (1 ≤ dg) && decide (dg ≤ 7) then
    let s := (s.expireTrigs d).modDom d Dom.cleared
    (s.applyUpdate d u).modDom d fun x => { x with rgen := g, seq := q }
  else s

/-- Domain `d` is enabled: position 0:0:0, STALE, unsynchronised, and synchronisation starts (R39, R48). -/
def State.enableDom (s : State) (d : Nat) : State :=
  let s := { s with doms := s.doms.put d { state := .stale } }
  s.startSync d .nothing

/-- The reset that POUR_DOM_CTRL.RESET asks for (R40): after synchronisation where the domain is unsynchronised. -/
def State.resetDom (s : State) (d : Nat) : State :=
  let r := s.dom d
  if r.state = .off then s
  else if r.synced then s.originReset d
  else
    let t := s.startSync d .reset
    if (t.dom d).sync.isSome then t else (t.selfSync d).originReset d

/-! ### Interpolation (R50) -/

/-- The per-cycle increment of a rate: floor(rate * 2^16 / C). -/
def incOf (rate cycles : Nat) : Nat := rate * 65536 / cycles

/-- One cycle of R50 at increment `inc`. -/
def Dom.cycle (d : Dom) (inc : Nat) : Dom :=
  let f := d.frac + inc
  if f < 2 ^ 32 then { d with frac := f }
  else if d.tick < d.brim then { d with frac := f - 2 ^ 32, tick := d.tick + 1 }
  else { d with frac := 0, brimHeld := true }

/-- Cycles until the accumulator overflows, at an increment above 0. -/
def Dom.cyclesToTick (d : Dom) (inc : Nat) : Nat := ceilDiv (2 ^ 32 - d.frac) inc

/-- The domain after the cycles that lead to the next overflow: all but the last only add to the accumulator. -/
def Dom.nextTick (d : Dom) (inc : Nat) : Dom :=
  ({ d with frac := d.frac + (d.cyclesToTick inc - 1) * inc }).cycle inc

end Sys2Proof.Machine
end

