-- ==== Sys2Proof/Machine/DmaOps.lean ====
section
/-! DEFINITION. Shared operations of the DMA engines (spec/11): channel registers, ending runs, regions, fetching, transfers and reshuffling. -/

namespace Sys2Proof.Machine

/-! ### Channels -/

/-- The state with one channel's record changed. -/
def State.modChan (s : State) (ch : Nat) (g : Chan → Chan) : State := { s with chans := s.chans.upd ch g }
/-- A channel's record. -/
def State.chan (s : State) (ch : Nat) : Chan := s.chans.get ch
/-- Engine and place of a channel. -/
def engOf (ch : Nat) : Nat := ch / 8
/-- Master id of a channel's engine (R34). -/
def masterOf (ch : Nat) : Nat := 0xC0 + engOf ch
/-- DMA_CH_STATE.STATE of a channel: 0 FREE, 1 IDLE, 2 ARMED, 3 QUEUED, 4 RUNNING, 5 WAITING, 6 HALTED. -/
def State.chState (s : State) (ch : Nat) : Nat := s.fld Fld.dmaChStateState (engOf ch) (ch % 8)
/-- Its owner. -/
def State.chOwner (s : State) (ch : Nat) : Nat := s.fld Fld.dmaChStateOwner (engOf ch) (ch % 8)
/-- It is owned by the fabric manager. -/
def State.chFm (s : State) (ch : Nat) : Bool := s.flag Fld.dmaChStateFm (engOf ch) (ch % 8)
/-- Its generation. -/
def State.chGen (s : State) (ch : Nat) : Nat := s.fld Fld.dmaChStateGen (engOf ch) (ch % 8)
/-- The function in whose name it acts. -/
def State.chWho (s : State) (ch : Nat) : Nat := if s.chFm ch then s.privFn.getD (s.chOwner ch) else s.chOwner ch
/-- A field of a channel register is written. -/
def State.setCh (s : State) (f : Fld) (v ch : Nat) : State := s.setFld f v (engOf ch) (ch % 8)
/-- A field of a channel register. -/
def State.chFld (s : State) (f : Fld) (ch : Nat) : Nat := s.fld f (engOf ch) (ch % 8)

/-- A channel of engine `e` that holds it, if any (R284). -/
def State.engHolder (s : State) (e : Nat) : Option Nat :=
  ((List.range 8).map (8 * e + ·)).find? fun ch => decide (s.chState ch = 4 ∨ s.chState ch = 5)

/-- A channel enters a state; the engine's BUSY and CHANNEL follow. -/
def State.setChState (s : State) (ch st : Nat) : State :=
  let s := (s.setCh Fld.dmaChStateState st ch).setFld Fld.dmaTenChState st ch
  let e := engOf ch
  let h := s.engHolder e
  (s.setFld Fld.dmaEngStateBusy (b2n h.isSome) e).setFld Fld.dmaEngStateChannel (h.getD 0 % 8) e

/-- Count of a signal. -/
def State.signal (s : State) (n : Nat) : Nat := bits (s.chFld Fld.dmaChSigCount (n / 4)) (16 * (n % 4)) 16

/-- A signal's count is replaced. -/
def State.setSignal (s : State) (n v : Nat) : State :=
  s.setCh Fld.dmaChSigCount (setBits (s.chFld Fld.dmaChSigCount (n / 4)) (16 * (n % 4)) 16 v) (n / 4)

/-- The counts of a channel's signals are zero. -/
def State.zeroSignals (s : State) (ch : Nat) : State := s.setCh Fld.dmaChSigCount 0 ch

/-- Bytes moved by the run in hand, or the last. -/
def State.chMoved (s : State) (ch : Nat) : Nat := s.chFld Fld.dmaChMovedMoved ch

/-! ### The handle (R121, R288) -/

/-- A channel's handle. -/
def State.chHandle (s : State) (ch : Nat) : Nat := ch + 256 * s.chGen ch

/-- The channel that a handle of a command names, or its refusal (R121, R288). `fm`: the caller is the fabric manager. -/
def State.chanOf (s : State) (f h : Nat) (fm : Bool) : Except Status Nat :=
  let ch := h % 256
  let g := bits h 8 8
  if 2 ^ 16 ≤ h ∨ 248 ≤ ch then .error .badField
  else if decide (s.chState ch = 0) && decide ((s.chan ch).resetBy = some (f, g)) then .error .tenantReset
  else if decide (s.chState ch = 0) || decide (s.chGen ch ≠ g) then .error .alreadyFree
  else if (if s.chFm ch then fm else decide (s.chOwner ch = f)) then .ok ch
  else .error .notOwner

/-! ### Ending runs (R313, R315, R321) -/

/-- The internal command of a run is given up: its parts are cancelled and it is forgotten. -/
def State.dropSub (s : State) (ch : Nat) : State :=
  match (s.chan ch).sub with
  | none => s
  | some t =>
    let s := (s.cancelParts (s.cmd t) (s.partsOf t)).dropParts t
    ({ s with cmds := s.cmds.put t default }).modChan ch fun k => { k with sub := none }

/-- What a run keeps once it has ended. -/
def Chan.idle (k : Chan) : Chan := { resetBy := k.resetBy }

/-- The reply of a run that answers a command is due. -/
def State.answerRun (s : State) (ch : Nat) (r : Res) : State :=
  match (s.chan ch).tag with
  | none => s
  | some t => if (s.cmd t).live && decide ((s.cmd t).stage ≠ .done) then s.finish t r else s

/-- Fault and cause are recorded. -/
def State.setFault (s : State) (ch fault cause : Nat) : State :=
  let s := (s.setCh Fld.dmaChErrFault fault ch).setCh Fld.dmaChErrCause cause ch
  (s.setFld Fld.dmaTenChFault fault ch).setFld Fld.dmaTenChCause cause ch

/-- A run stops for good: REGION, WAIT_CYCLE, WAIT_LIMIT, STOPPED; the channel becomes IDLE (R315). -/
def State.stopRun (s : State) (ch fault cause : Nat) (st : Status) : State :=
  let moved := if s.chState ch = 3 then 0 else s.chMoved ch
  let s := (s.setCh Fld.dmaChMovedMoved moved ch).dropSub ch
  let s := (s.setFault ch fault cause).answerRun ch { status := st, r0 := moved % 2 ^ 40, r1 := fault, part := true }
  (s.modChan ch Chan.idle).setChState ch 1

/-- A run in hand ends with STOPPED; a queued one too; a halted or armed one is discarded (R321, R323). -/
def State.haltNow (s : State) (ch : Nat) : State :=
  let st := s.chState ch
  if st = 3 ∨ st = 4 ∨ st = 5 then s.stopRun ch 5 0 .aborted
  else if st = 2 ∨ st = 6 then (s.modChan ch Chan.idle).setChState ch 1
  else s

/-- A run halts: the failing access is latched, the engine is left, the reply is due (R313). -/
def State.haltRun (s : State) (ch : Nat) (e : DmaErr) : State :=
  let s := (s.setFault ch e.fault e.cause).setCh Fld.dmaChErrWrite (b2n e.write) ch
  let s := (s.setCh Fld.dmaChErrSpace e.space ch).setCh Fld.dmaChErrAddrAddr e.addr ch
  let s := (s.setFld Fld.dmaTenErrAddr e.addr ch).dropSub ch
  let s := s.answerRun ch { status := .aborted, r0 := s.chMoved ch % 2 ^ 40, r1 := e.fault, part := true }
  (s.modChan ch fun k => { k with tag := none, todo := none, after := none, retryAt := none, word := none }).setChState ch 6

/-- A fault of a run: a bus error is retried or halts it, anything else stops it (R312, R313, R315). -/
def State.raise (s : State) (ch : Nat) (e : DmaErr) : State :=
  let g := engOf ch
  let k := s.chan ch
  match e.fault with
  | 1 =>
    let s := s.bump Fld.dmaEngStatBusErr 1 g
    if k.retry && decide (e.cause ≠ 9) && decide (s.chFld Fld.dmaChErrRetries ch < k.retries) then
      s.modChan ch fun k => { k with retryAt := some (s.us + clamp 1 255 (s.fld Fld.dmaCtrlRetryUs)), after := none,
                                     todo := if e.write then k.todo else none }
    else s.haltRun ch e
  | 4 => (s.bump Fld.dmaEngStatRegion 1 g).stopRun ch 4 e.cause .aborted
  | 2 => (s.bump Fld.dmaEngStatWaitCycle 1 g).stopRun ch 2 0 .aborted
  | 3 => (s.bump Fld.dmaEngStatWaitLimit 1 g).stopRun ch 3 0 .aborted
  | f => s.stopRun ch f e.cause (if f = 0 then .internal else .aborted)

/-- A FORMAT bus error at an address. -/
def DmaErr.format (addr : Nat) : DmaErr := { fault := 1, cause := 9, addr := addr }
/-- A REGION fault with cause RESOURCE. -/
def DmaErr.resource (addr : Nat) : DmaErr := { fault := 4, cause := 12, addr := addr }
/-- The fault that a status of a pool access is (R312); fault 0 stands for INTERNAL, which ends the command (R279). -/
def DmaErr.ofStatus (st : Status) (write : Bool) (addr : Nat) : DmaErr :=
  match st with
  | .uncorrectable => { fault := 1, cause := 5, write := write, space := 1, addr := addr }
  | .rebuilding => { fault := 1, cause := 6, write := write, space := 1, addr := addr }
  | .noSpace => { fault := 1, cause := 7, write := write, space := 1, addr := addr }
  | .notOwner => { fault := 4, cause := 11, write := write, space := 1, addr := addr }
  | .outOfPartition => { fault := 4, cause := 11, write := write, space := 1, addr := addr }
  | .leaseExpired => { fault := 4, cause := 11, write := write, space := 1, addr := addr }
  | .internal => { fault := 0, cause := 0, write := write, space := 1, addr := addr }
  | _ => { fault := 1, cause := 8, write := write, space := 1, addr := addr }

/-! ### Interrupts (R311) -/

/-- An interrupt of a run: the owner's vector, outside coalescing; for the fabric manager an event (`what` 1 half, 2 full, 3 SIGNAL). -/
def State.dmaInterrupt (s : State) (ch what : Nat) (v : Option Nat) : State :=
  match v with
  | none => s
  | some v => if s.chFm ch then s.log 0x0208 0 0 (what + ch * 2 ^ 16) else s.sendVector (s.chOwner ch) v

/-! ### Regions (R294) -/

/-- The Urn pages that a region for an address of the owner covers: its buffer, or its window's ring; none where there is no such. -/
def State.regionFor (s : State) (ch a : Nat) : Option (Nat × Nat) :=
  if a < 2 ^ 29 then
    (s.bufs.find? fun e => e.2.held && e.2.named && decide (e.2.owner = s.chWho ch) && decide (4096 * e.2.page ≤ a) &&
      decide (a < 4096 * (e.2.page + e.2.pages))).map fun e => (e.2.page, e.2.page + e.2.pages - 1)
  else
    match s.urnAddr (s.chWho ch) (s.chFm ch) a with
    | some (_, some w) =>
      let b := 64 * s.fld Fld.urnWinBaseBase w
      some (b / 4096, (b + s.winSize w - 1) / 4096)
    | _ => none

/-- Region `r` of a channel's engine is loaded for an address, or left invalid. -/
def State.setRegion (s : State) (ch r a : Nat) : State :=
  match (if a < 2 ^ 30 then s.regionFor ch a else none) with
  | some (x, y) => s.loadRegion (masterOf ch) r x y true true
  | none => s.wr .urnRegion (masterOf ch) r 0

/-! ### The Urn as an engine reaches it (R270, R272, R292) -/

/-- The Urn bytes of an access at address `a` of `n` bytes, where the regions grant it. -/
def State.urnBytes (s : State) (ch a n : Nat) (write : Bool) : Option (List Nat) :=
  (List.range n).mapM fun i =>
    match s.urnAddr (s.chWho ch) (s.chFm ch) (a + i) with
    | some (o, _) => if s.regionGrants (masterOf ch) o write then some o else none
    | none => none

/-- The fault of an access outside the regions. -/
def DmaErr.urn (write : Bool) (a : Nat) : DmaErr := { fault := 4, cause := 10, write := write, space := 0, addr := a }

/-- One Urn access that reads. -/
def State.urnGet (s : State) (ch a n : Nat) : State × Except DmaErr (List Byte) :=
  match s.urnBytes ch a n false with
  | none => (s.regionFault (masterOf ch) a false, .error (.urn false a))
  | some os =>
    if os.any fun o => s.poisoned o then
      ((s.bump Fld.urnEccUncorr).log 0x0403 14 (masterOf ch) (os.headD 0), .error { fault := 0, cause := 0, addr := a })
    else (s.countWrap a, .ok (os.map fun o => s.urn.get o))

/-- One Urn access that writes. -/
def State.urnPut (s : State) (ch a : Nat) (bs : List Byte) : State × Option DmaErr :=
  match s.urnBytes ch a bs.length true with
  | none => (s.regionFault (masterOf ch) a true, some (.urn true a))
  | some os => (({ s with urn := (os.zip bs).foldl (fun (m : SMap Byte) (x : Nat × Byte) => m.put x.1 x.2) s.urn }).countWrap a, none)

/-- Beats of 64 bytes read from the Urn, `fuel` of them at most. -/
def State.urnGather (s : State) (ch : Nat) : Nat → Nat → Nat → State × List Byte × Option DmaErr
  | 0, _, _ => (s, [], none)
  | fuel + 1, a, n =>
    if n = 0 then (s, [], none)
    else match s.urnGet ch a (min 64 n) with
      | (s, .error e) => (s, [], some e)
      | (s, .ok b) =>
        let (s, bs, e) := s.urnGather ch fuel (a + 64) (n - 64)
        (s, b ++ bs, e)

/-- Beats of 64 bytes written to the Urn: how many bytes, and the fault that ended it. -/
def State.urnScatter (s : State) (ch : Nat) : Nat → Nat → List Byte → State × Nat × Option DmaErr
  | 0, _, _ => (s, 0, none)
  | fuel + 1, a, bs =>
    if bs.isEmpty then (s, 0, none)
    else match s.urnPut ch a (bs.take 64) with
      | (s, some e) => (s, 0, some e)
      | (s, none) =>
        let (s, n, e) := s.urnScatter ch fuel (a + 64) (bs.drop 64)
        (s, min 64 bs.length + n, e)

/-- A plain copy within the Urn, beat by beat (R304). -/
def State.urnCopy (s : State) (ch : Nat) : Nat → Nat → Nat → Nat → State × Nat × Option DmaErr
  | 0, _, _, _ => (s, 0, none)
  | fuel + 1, a, b, n =>
    if n = 0 then (s, 0, none)
    else match s.urnGet ch a (min 64 n) with
      | (s, .error e) => (s, 0, some e)
      | (s, .ok x) =>
        match s.urnPut ch b x with
        | (s, some e) => (s, 0, some e)
        | (s, none) =>
          let (s, m, e) := s.urnCopy ch fuel (a + 64) (b + 64) (n - 64)
          (s, min 64 n + m, e)

/-! ### The pool as an engine reaches it (R292, R293) -/

/-- The entry of an internal READ or WRITE that a run sends to another device. -/
def subEntry (op blend addr len : Nat) : Nat := op + blend * 2 ^ 32 + addr * 2 ^ 128 + len * 2 ^ 256

/-- An internal command goes to the device that holds a pool range. -/
def State.sendSub (s : State) (ch op addr len : Nat) (data : List Byte) : State :=
  let t := s.nextTag
  let f := s.chWho ch
  let c : Cmd := { live := true, fn := f, sq := 2 ^ 20, order := t, entry := subEntry op (s.chFld Fld.dmaChStateBlend ch) addr len,
                   epoch := (s.fn f).epoch, stage := .running, started := true, caller := ⟨s.dev, f⟩, since := s.us }
  let s := { s with nextTag := t + 1, cmds := s.cmds.put t c }
  (s.modChan ch fun k => { k with sub := some t }).sendShare t c 0x03 (Addr.sys addr) (Addr.dev addr) addr len 0 data false

/-- What the internal command of a run has answered: data, bytes moved, status; none while it has not. -/
def State.subDone (s : State) (t : Nat) : Option (List Byte × Nat × Status) :=
  if s.partsDone t then (s.partsOf t).head?.map fun p => (p.2.data, p.2.moved, p.2.status) else none

/-- The check of a pool range of this device for a channel's owner (R128, R293). -/
def State.dmaCheck (s : State) (ch addr len : Nat) (write : Bool) : Option Status :=
  let f := s.chWho ch
  if s.proxied (Addr.dev addr) then s.proxyRefusal
  else s.poolCheck ⟨s.dev, f⟩ (s.inPartition f s.holdId (Addr.off addr) len) write (Addr.off addr) len

/-! ### Fetching (R295) -/

/-- A buffer is still the one that a handle named: held, with its generation, or freed since and not yet given up (R278). -/
def Buf.still (b : Buf) (h : Nat) : Bool :=
  let g := bits h 16 8
  b.held && (if b.named then decide (b.gen = g) else decide (b.gen = (g + 1) % 256))


/-- The 64-byte word at address `a` of a run's list or program: none while another device has not answered. -/
def State.fetchWord (s : State) (ch a : Nat) : State × Option (Except DmaErr (List Byte)) :=
  let k := s.chan ch
  let keep := fun (s : State) (b : List Byte) => s.modChan ch fun k => { k with word := some (a, b) }
  match k.word with
  | some (x, b) => if x = a then (s, some (.ok b)) else load s k keep
  | none => load s k keep
where
  load (s : State) (k : Chan) (keep : State → List Byte → State) : State × Option (Except DmaErr (List Byte)) :=
    let bad := fun (s : State) (e : DmaErr) => (s, some (Except.error e : Except DmaErr (List Byte)))
    if s.chFld Fld.dmaChStateLoc ch = 0 then
      match k.buf with
      | none => bad s (.format a)
      | some i =>
        let b := s.bufs.get i
        if !b.still k.handle || decide (4096 * b.pages < a + 64) then bad s (.format a)
        else if s.poisoned (4096 * b.page + a) then
          bad ((s.bump Fld.urnEccUncorr).log 0x0403 14 (masterOf ch) (4096 * b.page + a)) { fault := 0, cause := 0, addr := a }
        else
          let w := s.urnRead (4096 * b.page + a) 64
          (keep s w, some (.ok w))
    else if s.isHere a then
      match s.dmaCheck ch a 64 false with
      | some _ => bad s (.format a)
      | none =>
        match s.readRange s.poolSpace 8 2 (s.poolOff a) 64 with
        | (s, _, some st) => bad s (.ofStatus st false a)
        | (s, w, none) => (keep s w, some (.ok w))
    else
      match k.sub with
      | none => (s.sendSub ch 0x13 a 64 [], none)
      | some t =>
        match s.subDone t with
        | none => (s, none)
        | some (w, _, st) =>
          let s := s.dropSub ch
          if st.isError then
            let e := DmaErr.ofStatus st false a
            bad s (if e.fault = 4 then .format a else e)
          else (keep s w, some (.ok w))

/-- `n` bytes at the PC (16 for an instruction, 32 for a descriptor), as a number. -/
def State.fetch (s : State) (ch n : Nat) : State × Option (Except DmaErr Nat) :=
  let pc := s.chFld Fld.dmaChPcPc ch
  match s.fetchWord ch (pc / 64 * 64) with
  | (s, none) => (s, none)
  | (s, some (.error e)) => (s, some (.error e))
  | (s, some (.ok w)) => (s, some (.ok (leNat ((w.drop (pc % 64)).take n))))

/-! ### Transfers (R292 to R296, R304 to R307) -/

/-- A transfer: operands, spaces and options of a descriptor or a MOVE. -/
structure Xfer where
  src : Int
  dst : Int
  len : Nat
  ssp : Nat
  dsp : Nat
  rt : Bool
  half : Bool
  full : Bool
  shuf : Nat
  sw : Nat
  ways : Nat
  deriving DecidableEq, Repr

/-- An operand of a space: within the space's range, and aligned with the length (R292). -/
def operandOk (sp : Nat) (a : Int) (len : Nat) : Bool :=
  match sp with
  | 0 => decide (0 ≤ a) && decide (a < 2 ^ 30)
  | 1 => decide (0 ≤ a) && decide (a < 2 ^ 64) && decide (a % 64 = 0) && decide (len % 64 = 0)
  | 2 => decide (0 ≤ a) && decide (a < 2 ^ 64) && decide (a % 4 = 0) && decide (len % 4 = 0)
  | _ => false

/-- The transfer is well formed (R292, R296, R304, R305). -/
def Xfer.ok (x : Xfer) : Bool :=
  decide (1 ≤ x.len) && decide (x.len ≤ 2 ^ 30) && operandOk x.ssp x.src x.len && operandOk x.dsp x.dst x.len &&
    (match x.shuf with
     | 0 => decide (x.sw = 0) && decide (x.ways = 0)
     | 1 => decide (x.len % ((x.ways + 1) * (x.sw + 1)) = 0)
     | 2 => decide (x.len % ((x.ways + 1) * (x.sw + 1)) = 0)
     | 3 => decide (x.sw = 0) && decide (x.len % (x.ways + 1) = 0)
     | 4 => decide (x.sw = 0) && decide (x.len % (x.ways + 1) = 0)
     | _ => false) &&
    (x.shuf = 0 || x.ssp ≠ x.dsp || !rangesMeet x.src.toNat x.len x.dst.toNat x.len)

/-- The source byte that destination byte `j` of an interleave or a deinterleave takes (R306). -/
def interByte (inter : Bool) (w sz len j : Nat) : Nat :=
  let n := len / (w * sz)
  let b := j % sz
  let q := j / sz
  if inter then ((q % w) * n + q / w) * sz + b else ((q % n) * w + q / n) * sz + b

/-- The source bit that destination bit `t` of a transpose or an untranspose takes (R307). -/
def transBit (forth : Bool) (p len t : Nat) : Nat :=
  let n := 8 * len / p
  if forth then p * (t % n) + (p - 1 - t / n) else (p - 1 - t % p) * n + t / p

/-- The destination bytes of a transfer from its source bytes (R305 to R307). -/
def Xfer.shuffle (x : Xfer) (bs : List Byte) : List Byte :=
  match x.shuf with
  | 0 => bs
  | 1 => (List.range x.len).map fun j => bs.getD (interByte true (x.ways + 1) (x.sw + 1) x.len j) 0#8
  | 2 => (List.range x.len).map fun j => bs.getD (interByte false (x.ways + 1) (x.sw + 1) x.len j) 0#8
  | m =>
    let bit' := fun t => let b := transBit (decide (m = 3)) (x.ways + 1) x.len t; (bs.getD (b / 8) 0#8).getLsbD (b % 8)
    (List.range x.len).map fun j => BitVec.ofNat 8 ((List.range 8).map fun i => b2n (bit' (8 * j + i)) * 2 ^ i).sum

/-- Destination bytes that can be formed where only the first `n` source bytes came: whole beats, or whole groups of 64 (R304, R321). -/
def Xfer.reachable (x : Xfer) (n : Nat) : Nat :=
  if x.len ≤ n then x.len
  else
    let needs := fun j => match x.shuf with
      | 0 => [j]
      | 1 => [interByte true (x.ways + 1) (x.sw + 1) x.len j]
      | 2 => [interByte false (x.ways + 1) (x.sw + 1) x.len j]
      | m => (List.range 8).map fun i => transBit (decide (m = 3)) (x.ways + 1) x.len (8 * j + i) / 8
    (((List.range x.len).takeWhile fun j => (needs j).all fun b => decide (b < n)).length) / 64 * 64

/-- A plain copy whose destination overlaps its source from above reads beats that earlier beats have written (R304). -/
def Xfer.overlapped (x : Xfer) (bs : List Byte) : List Byte :=
  let d := (x.dst - x.src).toNat
  if x.shuf = 0 ∧ x.ssp = x.dsp ∧ x.src < x.dst ∧ d < x.len then
    (bs.foldl (fun (out, i) b =>
      (out ++ [if d ≤ i ∧ i - d < 64 * (i / 64) then out.getD (i - d) b else b], i + 1)) (([] : List Byte), 0)).1
  else bs

/-- The real-time port of the DRAM controllers that hold a range is used; how often it panics, and for how long, is a matter of its timing
(R340, R341; free values). -/
def State.rtPort (s : State) (ps : PageSpace) (n k : Nat) : State :=
  ((List.range k).map fun i => (s.burstAt (Config.sectorAddr (s.mapEntry (ps.keyOf (n + i))).base)).chan).eraseDups.foldl
    (fun s c =>
      let x := s.free
      let y := s.tookFree.free
      ((s.tookFree.tookFree).bump Fld.drcRtStatEntries x c).tally Fld.drcRtPanicCycCycles y c) s

/-- The source bytes of a transfer: those that came, and the fault that ended them; none while another device has not answered. -/
def State.xferSource (s : State) (ch : Nat) (x : Xfer) : State × Option (List Byte × Option DmaErr) :=
  let a := x.src.toNat
  match x.ssp with
  | 0 =>
    let (s, bs, e) := s.urnGather ch (x.len / 64 + 1) a x.len
    (s, some (bs, e))
  | 2 =>
    if !(s.fn (s.chWho ch)).busMaster then (s, some ([], some { fault := 1, cause := 4, space := 2, addr := a }))
    else (s, some (s.hostRead (s.chWho ch) a x.len, none))
  | _ =>
    if s.isHere a then
      let s := if x.rt then s.rtPort s.poolSpace (Addr.off a / pageSize) (pageCount (Addr.off a) x.len) else s
      let (s, bs, st) := s.readRange s.poolSpace 8 (pageCount (s.poolOff a) x.len) (s.poolOff a) x.len
      (s, some (bs, st.map fun st => DmaErr.ofStatus st false (a + bs.length)))
    else match (s.chan ch).sub with
      | none => (s.sendSub ch 0x13 a x.len [], none)
      | some t =>
        match s.subDone t with
        | none => (s, none)
        | some (bs, m, st) =>
          (s.dropSub ch, some (bs.take m, if st.isError then some (DmaErr.ofStatus st false (a + m)) else none))

/-- Bytes of a transfer written from destination offset `at'` on: how many went, and the fault that ended them; none while another device has
not answered. -/
def State.xferDest (s : State) (ch : Nat) (x : Xfer) (at' : Nat) (bs : List Byte) : State × Option (Nat × Option DmaErr) :=
  let a := x.dst.toNat + at'
  match x.dsp with
  | 0 =>
    let (s, n, e) := s.urnScatter ch (bs.length / 64 + 1) a bs
    (s, some (n, e))
  | 2 =>
    if !(s.fn (s.chWho ch)).busMaster then (s, some (0, some { fault := 1, cause := 4, write := true, space := 2, addr := a }))
    else (s.hostWrite (s.chWho ch) a bs, some (bs.length, none))
  | _ =>
    if s.proxied (Addr.dev a) then (s.bump Fld.protStatRebuilding, some (0, some (DmaErr.ofStatus .rebuilding true a)))
    else if s.isHere a then
      let pages := pageCount (Addr.off a) bs.length
      let (s, n, st) := s.writeRange s.poolSpace (s.pageRoom pages) (Addr.off a) bs
      let s := if st.isNone && decide (n < bs.length) then s.countStall else s
      (s, some (n, st.map fun st => DmaErr.ofStatus st true (a + n)))
    else match (s.chan ch).sub with
      | none => (s.sendSub ch 0x14 a bs.length bs, none)
      | some t =>
        match s.subDone t with
        | none => (s, none)
        | some (_, m, st) => (s.dropSub ch, some (m, if st.isError then some (DmaErr.ofStatus st true (a + m)) else none))

/-- Bytes of a transfer have left the engine: counts, and the HALF interrupt where its half is reached (R311, R315). -/
def State.xferWrote (s : State) (ch : Nat) (x : Xfer) (n : Nat) : State :=
  let k := s.chan ch
  let done := k.moved + n
  let s := (s.setCh Fld.dmaChMovedMoved (s.chMoved ch + n) ch).tally Fld.dmaEngBytesBytes n (engOf ch)
  let half := x.half && !k.halfSent && decide (ceilDiv x.len 2 ≤ done)
  let s := s.modChan ch fun k => { k with moved := done, halfSent := k.halfSent || half }
  if half then (s.bump Fld.dmaTenChHalf 1 ch).dmaInterrupt ch 1 k.vector else s

/-- The rights of a transfer's pool operands on this device, as it begins (R293). -/
def State.xferRights (s : State) (ch : Nat) (x : Xfer) : Option DmaErr :=
  let one := fun (sp : Nat) (a : Nat) (w : Bool) =>
    if sp = 1 ∧ s.isHere a = true then (s.dmaCheck ch a x.len w).map fun _ => ({ fault := 4, cause := 11, write := w, space := 1, addr := a } : DmaErr)
    else none
  (one x.ssp x.src.toNat false).or (one x.dsp x.dst.toNat true)

/-- What is left of a transfer is written; true where the transfer has ended well. -/
def State.xferWrite (s : State) (ch : Nat) (x : Xfer) : State × Bool :=
  let k := s.chan ch
  let bs := k.todo.getD []
  let fin := fun (s : State) =>
    match (s.chan ch).after with
    | some e => (s.raise ch e, false)
    | none =>
      let s := if x.full then (s.bump Fld.dmaTenChFull 1 ch).dmaInterrupt ch 2 k.vector else s
      let s := s.setCh Fld.dmaChErrRetries 0 ch
      (s.modChan ch fun k => { k with charged := false, moved := 0, todo := none, halfSent := false }, true)
  if bs.isEmpty then fin s
  else match s.xferDest ch x k.moved bs with
    | (s, none) => (s, false)
    | (s, some (n, e)) =>
      let s := (s.xferWrote ch x n).modChan ch fun k => { k with todo := some (bs.drop n) }
      match e with
      | some e => (s.raise ch e, false)
      | none => if n < bs.length then (s, false) else fin s

/-- A transfer begins or goes on; true where it has ended well. It is charged to its owner once, as it begins (R293, R304, R360). -/
def State.runXfer (s : State) (ch : Nat) (x : Xfer) : State × Bool :=
  let k := s.chan ch
  if k.retryAt.isSome then (s, false)
  else if !x.ok then (s.raise ch (.format x.src.toNat), false)
  else match (if k.charged then none else s.xferRights ch x) with
    | some e => (s.raise ch e, false)
    | none =>
      let s := if k.charged then s else
        ((s.chargeWork (s.chWho ch) (s.chFld Fld.dmaChStateBlend ch) x.len).1).modChan ch fun k => { k with charged := true }
      if k.todo.isSome then s.xferWrite ch x
      else if x.ssp = 0 ∧ x.dsp = 0 ∧ x.shuf = 0 then
        let at' := k.moved
        let (s, n, e) := s.urnCopy ch (x.len / 64 + 1) (x.src.toNat + at') (x.dst.toNat + at') (x.len - at')
        let s := s.xferWrote ch x n
        (s.modChan ch fun k => { k with todo := some [], after := e }).xferWrite ch x
      else match s.xferSource ch x with
        | (s, none) => (s, false)
        | (s, some (bs, e)) =>
          let out := (x.overlapped (x.shuffle bs)).take (if e.isSome then x.reachable bs.length else x.len)
          (s.modChan ch fun k => { k with todo := some (out.drop k.moved), after := e }).xferWrite ch x

/-! ### Starting runs (R285, R289, R291) -/

/-- A channel joins its engine's queue. -/
def State.enqueueRun (s : State) (ch : Nat) : State :=
  let s := { s with nextRun := s.nextRun + 1 }
  (s.modChan ch fun k => { k with order := s.nextRun }).setChState ch 3

/-- A DMA_START trigger starts an armed channel of an engine in service; false where the channel is busy (R291). -/
def State.triggerRun (s : State) (ch : Nat) : State × Bool :=
  if s.chState ch = 2 ∧ s.unitIn 4 (engOf ch) = true then (s.enqueueRun ch, true) else (s, false)

/-- A channel is freed: its run ends, its generation advances, its signals are zero (R288). -/
def State.freeChan (s : State) (ch : Nat) (resetBy : Option (Nat × Nat)) : State :=
  let s := s.haltNow ch
  let g := s.chGen ch
  let s := (s.zeroSignals ch).setChState ch 0
  let s := s.setCh Fld.dmaChStateGen ((g + 1) % 256) ch
  let s := (s.setFld Fld.dmaTenChGen ((g + 1) % 256) ch)
  let s := (s.setCh Fld.dmaChStateOwner 0 ch).setCh Fld.dmaChStateFm 0 ch
  s.modChan ch fun _ => { resetBy := resetBy }

/-- Every channel of an engine stops as it leaves service (R323). -/
def State.stopEngine (s : State) (e : Nat) : State :=
  (List.range 8).foldl (fun s n => s.haltNow (8 * e + n)) s

/-- A buffer is named by a run in hand: it holds the program or a region of its engine lies in it (R278). -/
def State.dmaUses (s : State) (idx : Nat) : Bool :=
  let b := s.bufs.get idx
  s.chans.any fun e =>
    let st := s.chState e.1
    decide (3 ≤ st) && decide (st ≤ 5) &&
      (decide (e.2.buf = some idx) ||
        (decide (4 ≤ st) && (List.range 8).any fun r =>
          s.flag Fld.urnRegionValid (masterOf e.1) r &&
            rangesMeet (s.fld Fld.urnRegionBase (masterOf e.1) r) (s.fld Fld.urnRegionLimit (masterOf e.1) r + 1 - s.fld Fld.urnRegionBase (masterOf e.1) r)
              b.page b.pages))

end Sys2Proof.Machine
end

