-- ==== Sys2Proof/Machine/Floats.lean ====
section
/-! DEFINITION. The arithmetic of the Presses (R116, R238 to R240): element formats, exact conversion to FP32, FP32 sums and products with
round to nearest even, ranking keys, distances. -/

namespace Sys2Proof.Machine

/-! ### Element formats (R116) -/

/-- Bits of an element. -/
def fmtBits (fmt : Nat) : Nat :=
  match fmt with
  | 0 => 4
  | 1 => 8
  | 2 => 8
  | 3 => 1
  | 4 => 8
  | 5 => 8
  | 6 => 16
  | 7 => 16
  | 8 => 32
  | _ => 64

/-- The format accumulates in FP32. -/
def fmtFloat (fmt : Nat) : Bool := decide (4 ≤ fmt) && decide (fmt ≤ 8)

/-- Exponent width, mantissa width and bias of a floating-point format. -/
def fmtShape (fmt : Nat) : Nat × Nat × Nat :=
  match fmt with
  | 4 => (4, 3, 7)
  | 5 => (5, 2, 15)
  | 6 => (8, 7, 127)
  | 7 => (5, 10, 15)
  | _ => (8, 23, 127)

/-! ### FP32 values -/

/-- A floating-point value: not a number, an infinity, or a sign, a magnitude and a power of two. -/
inductive Fp where
  | nan
  | inf (neg : Bool)
  | fin (neg : Bool) (m : Nat) (e : Int)
  deriving DecidableEq, Repr, Inhabited

/-- The quiet NaN of R238. -/
def quietNan : Nat := 0x7FC00000

/-- The value of an element's bits. FP8-E4M3 has no infinity: its largest exponent holds numbers and one NaN. -/
def Fp.decode (fmt n : Nat) : Fp :=
  let (ew, mw, bias) := fmtShape fmt
  let m := n % 2 ^ mw
  let x := bits n mw ew
  let neg := bit n (mw + ew)
  if fmt = 4 ∧ x = 15 ∧ m = 7 then .nan
  else if fmt ≠ 4 ∧ x = 2 ^ ew - 1 then (if m = 0 then .inf neg else .nan)
  else if x = 0 then .fin neg m (1 - (bias : Int) - (mw : Int))
  else .fin neg (2 ^ mw + m) ((x : Int) - (bias : Int) - (mw : Int))

/-- A magnitude shifted right, rounded to nearest even. -/
def roundEven (m d : Nat) : Nat :=
  let q := m / 2 ^ d
  let r := m % 2 ^ d
  if 2 ^ d < 2 * r ∨ (2 * r = 2 ^ d ∧ q % 2 = 1) then q + 1 else q

/-- The FP32 pattern of a value, rounded to nearest even, subnormals kept (R238). -/
def Fp.pattern : Fp → Nat
  | .nan => quietNan
  | .inf neg => b2n neg * 2 ^ 31 + 0x7F800000
  | .fin neg m e =>
    if m = 0 then b2n neg * 2 ^ 31
    else
      let top := e + (Nat.log2 m : Int) - 23
      let t := if top < -149 then -149 else top
      let q := if t ≤ e then m * 2 ^ (e - t).toNat else roundEven m (t - e).toNat
      b2n neg * 2 ^ 31 + min ((t + 149).toNat * 2 ^ 23 + q) 0x7F800000

/-- The value of an FP32 pattern. -/
def Fp.of32 (n : Nat) : Fp := Fp.decode 8 n

/-- The exact signed integer of a finite value over a common exponent. -/
def Fp.scaled (neg : Bool) (m : Nat) (e t : Int) : Int :=
  let v : Int := m * 2 ^ (e - t).toNat
  if neg then -v else v

/-- A sum in FP32. -/
def fpAdd (a b : Nat) : Nat :=
  match Fp.of32 a, Fp.of32 b with
  | .nan, _ => quietNan
  | _, .nan => quietNan
  | .inf x, .inf y => if x = y then (Fp.inf x).pattern else quietNan
  | .inf x, _ => (Fp.inf x).pattern
  | _, .inf y => (Fp.inf y).pattern
  | .fin x m e, .fin y n f =>
    let t := min e f
    let v := Fp.scaled x m e t + Fp.scaled y n f t
    if v = 0 then (Fp.fin (x && y) 0 0).pattern else (Fp.fin (decide (v < 0)) v.natAbs t).pattern

/-- A product in FP32. -/
def fpMul (a b : Nat) : Nat :=
  match Fp.of32 a, Fp.of32 b with
  | .nan, _ => quietNan
  | _, .nan => quietNan
  | .inf x, .inf y => (Fp.inf (x != y)).pattern
  | .inf x, .fin y n _ => if n = 0 then quietNan else (Fp.inf (x != y)).pattern
  | .fin x m _, .inf y => if m = 0 then quietNan else (Fp.inf (x != y)).pattern
  | .fin x m e, .fin y n f => (Fp.fin (x != y) (m * n) (e + f)).pattern

/-- A pattern with its sign changed. -/
def fpNeg (a : Nat) : Nat := if bit a 31 then a - 2 ^ 31 else a + 2 ^ 31

/-- The pattern is a NaN. -/
def fpNan (a : Nat) : Bool := decide (0x7F800000 < a % 2 ^ 31)

/-- A sum in ascending order, accumulated from zero. -/
def fpSum (xs : List Nat) : Nat := xs.foldl fpAdd 0

/-- The place of a value in the order of its format: an integer is its own key, an FP32 pattern is ordered by sign and magnitude, with
the two zeros equal. -/
def rankKey (float : Bool) (v : Int) : Int :=
  if float then (let n := v.toNat; if bit n 31 then -((n % 2 ^ 31 : Nat) : Int) else (n : Int)) else v

/-! ### Elements (spec/09, Formats and arithmetic) -/

/-- Little-endian numbers of `k` bytes, `n` of them. -/
def groups (k : Nat) : Nat → List Byte → List Nat
  | 0, _ => []
  | n + 1, bs => leNat (bs.take k) :: groups k n (bs.drop k)

/-- The value of `n` as a two's complement number of `w` bits. -/
def toSigned (w n : Nat) : Int := if bit n (w - 1) then (n : Int) - 2 ^ w else n

/-- The elements that bytes hold: integers, or FP32 patterns (R116, R166, R238). -/
def elems (fmt : Nat) (bs : List Byte) : List Int :=
  match fmt with
  | 0 => bs.flatMap fun b => [toSigned 4 (b.toNat % 16), toSigned 4 (b.toNat / 16)]
  | 1 => bs.map fun b => toSigned 8 b.toNat
  | 2 => bs.map fun b => (b.toNat : Int)
  | 3 => bs.flatMap fun b => (List.range 8).map fun i => ((b2n (b.getLsbD i) : Nat) : Int)
  | _ =>
    let k := fmtBits fmt / 8
    (groups k (bs.length / k) bs).map fun n => (((Fp.decode fmt n).pattern : Nat) : Int)

/-! ### Distances (R240) -/

/-- The larger value of a distance is the better one. -/
def distLarger (dist : Nat) : Bool := decide (dist = 0) || decide (dist = 3)

/-- The distance of two vectors of integers. -/
def intDist (dist : Nat) (q x : List Int) : Int :=
  ((q.zip x).map fun p => match dist with
    | 1 => (p.1 - p.2) * (p.1 - p.2)
    | 2 => if p.1 = p.2 then 0 else 1
    | _ => p.1 * p.2).sum

/-- The distance of two vectors of FP32 patterns, as a pattern. -/
def fpDist (dist : Nat) (q x : List Int) : Int :=
  ((fpSum ((q.zip x).map fun p =>
    let a := p.1.toNat
    let b := p.2.toNat
    if dist = 1 then (let d := fpAdd a (fpNeg b); fpMul d d) else fpMul a b) : Nat) : Int)

/-- The distance of two vectors of a format. -/
def distOf (fmt dist : Nat) (q x : List Int) : Int := if fmtFloat fmt then fpDist dist q x else intDist dist q x

/-- A value is a NaN. -/
def isNan (fmt : Nat) (v : Int) : Bool := fmtFloat fmt && fpNan v.toNat

/-- The four bytes of an accumulator value. -/
def accBytes (v : Int) : List Byte := leBytes 4 (v % 2 ^ 32).toNat

/-- A result record: index, accumulator value, zero (R117). -/
def recBytes (index : Nat) (v : Int) : List Byte := leBytes 8 index ++ accBytes v ++ zeroBytes 4

/-! ### Ranking -/

/-- Record `a` (index, value) comes before record `b`: better value, then lower index. -/
def recBefore (float larger : Bool) (a b : Nat × Int) : Bool :=
  let x := rankKey float a.2
  let y := rankKey float b.2
  (if larger then decide (y < x) else decide (x < y)) || (decide (x = y) && decide (a.1 < b.1))

/-- A record goes into its place in a ranked list. -/
def recInsert (before : Nat × Int → Nat × Int → Bool) (r : Nat × Int) : List (Nat × Int) → List (Nat × Int)
  | [] => [r]
  | x :: xs => if before r x then r :: x :: xs else x :: recInsert before r xs

/-- The best `k` records of a list, best first. -/
def bestOf (float larger : Bool) (k : Nat) (rs : List (Nat × Int)) : List (Nat × Int) :=
  (rs.foldl (fun l r => recInsert (recBefore float larger) r l) []).take k

end Sys2Proof.Machine
end

