-- ==== Sys2Proof/Machine/PressOps.lean ====
section
/-! DEFINITION. Shared operations of the Presses (spec/09): placing pages, the field checks of the Press group, scan ranges and vectors, plane
passes and bounds, fragments. -/

namespace Sys2Proof.Machine

/-! ### Placing pages (R236) -/

/-- The lowest Press of `[p, p + n)` in service. -/
def State.pressIn (s : State) (p n : Nat) : Option Nat := ((List.range n).map (p + ·)).find? fun i => s.unitIn 1 i

/-- A Press is in service. -/
def State.anyPress (s : State) : Bool := (s.pressIn 0 64).isSome

/-- The Press that takes a page whose first sector is `b`: one in service beside its controller, else any in service. Work takes no time
here, so no Press has work queued and the lowest number takes it (R236). -/
def State.pressFor (s : State) (b : Nat) : Nat :=
  match s.pressIn (4 * (s.burstAt (Config.sectorAddr b)).chan) 4 with
  | some p => p
  | none => (s.pressIn 0 64).getD 0

/-- A page of a Press command is counted at its Press: sectors read, logical bytes covered. -/
def State.countPress (s : State) (e : PageEntry) (sectors bytes : Nat) : State :=
  let p := s.pressFor e.base
  ((s.tally Fld.prsDramInBytes (256 * sectors) p).tally Fld.prsLogicalInBytes bytes p).tally Fld.prsOrdersCount 1 p

/-- Sectors of an entry. -/
def PageEntry.sectors (e : PageEntry) : Nat := if e.mapped && decide (e.codec ≠ 0) then e.count + 1 else 0

/-- The pages of a range are counted at their Presses. -/
def State.countPages (s : State) (ps : PageSpace) (n : Nat) : Nat → State
  | 0 => s
  | k + 1 =>
    let e := s.mapEntry (ps.keyOf n)
    (s.countPress e e.sectors pageSize).countPages ps (n + 1) k

/-- A range read by the Presses. -/
def State.pressRead (s : State) (off n : Nat) : State × List Byte × Option Status :=
  (s.countPages s.poolSpace (off / pageSize) (pageCount off n)).readRange s.poolSpace 8 (pageCount off n) off n

/-! ### Field checks (R116 to R118, R241 to R245) -/

/-- A format of PCMP, PREDUCE or PSCAN: BAD_FIELD for an undefined code, BAD_FORMAT for one without arithmetic (R116). -/
def formatCheck (fmt : Nat) : Option Status := if 11 ≤ fmt then some .badField else if 9 ≤ fmt then some .badFormat else none

/-- A distance against a format: HAMMING and BIN1 go together (R116). -/
def distCheck (fmt dist : Nat) : Option Status :=
  if 4 ≤ dist then some .badField else if decide (dist = 2) != decide (fmt = 3) then some .badFormat else none

/-- The first refusal of a list of checks. -/
def firstOf : List (Option Status) → Option Status
  | [] => none
  | some st :: _ => some st
  | none :: l => firstOf l

/-- A field outside its range. -/
def badIf (b : Bool) : Option Status := if b then some .badField else none

/-- Format of an entry of the Press group. -/
def pressFmt (e : Nat) : Nat := Entry.specBits e 50 0 4
/-- Its dimension. -/
def pressDim (e : Nat) : Nat := Entry.spec e 48 2
/-- Its distance. -/
def pressDist (e : Nat) : Nat := if Entry.op e = 0x42 then Entry.spec e 52 1 else Entry.spec e 51 1
/-- Its k. -/
def pressK (e : Nat) : Nat := Entry.spec e 52 2

/-- The fields of PFILL (R241). -/
def fillCheck (e : Nat) : Option Status :=
  let n := Entry.spec e 56 1
  firstOf [rangeRules e, badIf (n ∉ [1, 2, 4, 8, 16]), badIf (decide (Entry.spec e (40 + n) (16 - n) ≠ 0))]

/-- The fields of PCOPY: its two ranges share no byte (R118). -/
def copyCheck (e : Nat) : Option Status :=
  firstOf [rangeRules e, badIf (rangesMeet (Entry.object e) (Entry.length e) (Entry.spec e 40 8) (Entry.length e))]

/-- The fields of PCMP (R116, R118, R243). -/
def cmpCheck (e : Nat) : Option Status :=
  let d := pressDim e
  let f := pressFmt e
  firstOf [rangeRules e, badIf (decide (d = 0) || decide (8192 < d)), badIf (decide (4 < Entry.spec e 51 1)), formatCheck f,
    (if Entry.spec e 51 1 = 4 then distCheck f (pressDist e) else none), badIf (decide (8 * Entry.length e % (d * fmtBits f) ≠ 0))]

/-- The fields of PREDUCE (R116, R118). -/
def reduceCheck (e : Nat) : Option Status :=
  let op := Entry.spec e 51 1
  let k := pressK e
  firstOf [rangeRules e, badIf (decide (6 < op)), formatCheck (pressFmt e), (if pressFmt e = 3 then some .badFormat else none),
    badIf (decide (5 ≤ op) && (decide (k = 0) || decide (1024 < k)))]

/-- The vector size in bytes of a PSCAN. -/
def scanSize (e : Nat) : Nat := ceilDiv (pressDim e * fmtBits (pressFmt e)) 8
/-- The vector stride of a PSCAN (R245). -/
def scanStride (e : Nat) : Nat := if Entry.spec e 56 4 = 0 then scanSize e else Entry.spec e 56 4
/-- LIST of a PSCAN. -/
def scanList (e : Nat) : Bool := decide (Entry.specBits e 54 0 1 = 1)
/-- QURN of a PSCAN. -/
def scanQurn (e : Nat) : Bool := decide (Entry.specBits e 54 1 1 = 1)

/-- The fields of PSCAN that need no list (R116, R118, R245). -/
def scanCheck (e : Nat) : Option Status :=
  let d := pressDim e
  let f := pressFmt e
  let k := pressK e
  let n := Entry.length e
  firstOf [rangeRules e, badIf (decide (d = 0) || decide (8192 < d)), badIf (decide (k = 0) || decide (1024 < k)), formatCheck f,
    distCheck f (pressDist e),
    (if decide (Entry.spec e 56 4 = 0 ∧ d * fmtBits f % 8 ≠ 0) || decide (scanStride e < scanSize e) then some .badAlign else none),
    badIf (scanList e && (decide (n % 16 ≠ 0) || decide (65536 < n))), badIf (!scanList e && decide (n % max 1 (scanStride e) ≠ 0))]

/-- One entry of a range list (R103, R118, R245). -/
def rangeCheck (stride : Nat) (r : Nat × Nat) : Option Status :=
  if decide (r.1 % 64 ≠ 0) || decide (r.2 % 64 ≠ 0) then some .badAlign
  else badIf (decide (r.2 = 0) || decide (r.2 % max 1 stride ≠ 0))

/-! ### Ranges, vectors and the query -/

/-- Pairs of address and length packed in bytes. -/
def unpackRanges (bs : List Byte) : List (Nat × Nat) :=
  (List.range (bs.length / 16)).map fun i => (leNat ((bs.drop (16 * i)).take 8), leNat ((bs.drop (16 * i + 8)).take 8))

/-- The bytes of a range list. -/
def packRanges (rs : List (Nat × Nat)) : List Byte := rs.flatMap fun r => leBytes 8 r.1 ++ leBytes 8 r.2

/-- The ranges of a PSCAN of function `f` (R118). -/
def State.scanRanges (s : State) (f e : Nat) : List (Nat × Nat) :=
  if scanList e then unpackRanges (s.hostRead f (Entry.object e) (Entry.length e)) else [(Entry.object e, Entry.length e)]

/-- Vectors in ranges. -/
def vectorsIn (stride : Nat) (rs : List (Nat × Nat)) : Nat := (rs.map fun r => r.2 / max 1 stride).sum

/-- The pool address of vector `i`, counted over all ranges. -/
def vectorAt (stride : Nat) : List (Nat × Nat) → Nat → Nat
  | [], _ => 0
  | (a, n) :: rs, i => if i < n / max 1 stride then a + i * stride else vectorAt stride rs (i - n / max 1 stride)

/-- The Urn buffer that acceptance bound a command to. -/
def boundBuf (c : Cmd) : Option Nat :=
  c.objs.findSome? fun o => match o with
    | .buffer i => some i
    | _ => none

/-- The query of a PSCAN, or why it cannot be had (R108, R245, R279, R280). -/
def State.scanQuery (s : State) (c : Cmd) : Except Status (List Byte) :=
  let e := c.entry
  let q := Entry.spec e 40 8
  let n := scanSize e
  if !scanQurn e then .ok (s.hostRead c.fn q n)
  else match boundBuf c with
    | none => .error .badField
    | some i =>
      let b := s.bufs.get i
      if 4096 * b.pages < n then .error .badField
      else if b.poisoned || (List.range (n / 64 + 1)).any (fun j => s.poisoned (4096 * b.page + min (64 * j) (n - 1))) then .error .internal
      else .ok (s.urnRead (4096 * b.page) n)

/-! ### Pages of a segment (R247, R250) -/

/-- The codec of an entry is PLANE and its container width is the format's (R247). -/
def State.planePage (s : State) (fmt : Nat) (e : PageEntry) (addr : Nat) : Bool :=
  e.mapped && !e.poison && decide (e.codec = 4) && !fmtFloat fmt && decide (planeWidth (Container.ofBytes (s.storedBytes e addr)).param = fmtBits fmt)

/-- The pages that a vector of `n` bytes at pool offset `o` lies in. -/
def pagesAt (o n : Nat) : List Nat := (List.range (pageCount o n)).map (o / pageSize + ·)

/-- Sectors of a PLANE container that hold bytes of the `j`-th plane of its directory; the first pass also takes the header and the directory
(spec/09, Passes and bounds). -/
def planeSectors (bs : List Byte) (b j : Nat) : Nat :=
  let dir := planeDir b ((bs.drop 8).take (2 * b))
  let start := 8 + 2 * b + ((dir.take j).map (·.2)).sum
  let len := (dir.getD j (0, 0)).2
  let a := if j = 0 then 0 else start / 256
  if len = 0 then (if j = 0 then ceilDiv (8 + 2 * b) 256 else 0) else (start + len - 1) / 256 - a + 1

/-- The page of a segment as pass `n` sees it: its bytes, and whether planes are still missing; how many sectors it reads. -/
structure PassPage where
  page : Nat
  bytes : List Byte
  plane : Bool
  deriving DecidableEq, Repr, Inhabited

/-- One pinned page in pass `n` (R247, R250). -/
def State.passPage (s : State) (fmt n page : Nat) (e : PageEntry) : State × Except Status PassPage :=
  let addr := s.poolSpace.addrOf page
  let b := fmtBits fmt
  if s.planePage fmt e addr then
    let k := planeSectors (s.storedBytes e addr) b (n - 1)
    let s := (s.countPress e k (if n = 1 then pageSize else 0)).tally Fld.prsScanDramBytes (256 * k)
    let s := s.tally Fld.prsPassPagesPages 1 (n - 1)
    match s.readEntry page addr n e with
    | (s, .ok p) => (s, .ok { page := page, bytes := p, plane := decide (n < b) })
    | (s, .error st) => (s, .error st)
  else
    let s := if n = 1 then (s.countPress e e.sectors pageSize).tally Fld.prsScanDramBytes (256 * e.sectors) else s
    match s.readEntry page addr 8 e with
    | (s, .ok p) => (s, .ok { page := page, bytes := p, plane := false })
    | (s, .error st) => (s, .error st)

/-- A list of pinned pages in pass `n`. -/
def State.passPages (s : State) (fmt n : Nat) : List (Nat × PageEntry) → State × Except Status (List PassPage)
  | [] => (s, .ok [])
  | (p, e) :: rest =>
    match s.passPage fmt n p e with
    | (s, .error st) => (s, .error st)
    | (s, .ok x) =>
      match s.passPages fmt n rest with
      | (s, .error st) => (s, .error st)
      | (s, .ok xs) => (s, .ok (x :: xs))

/-- The bytes of a vector and, for each byte, whether planes of its page are missing. -/
def vectorBytes (ps : List PassPage) (o n : Nat) : List Byte × List Bool :=
  (((List.range n).map fun i =>
    let p := (ps.find? fun p => p.page = (o + i) / pageSize).getD default
    (p.bytes.getD ((o + i) % pageSize) 0#8, p.plane)).unzip)

/-- The elements of a vector, each with the span U of what is not known of it (R248). -/
def boundedElems (fmt d n : Nat) (ps : List PassPage) (o size : Nat) : List (Int × Int) :=
  let (bs, un) := vectorBytes ps o size
  let u : Int := 2 ^ (fmtBits fmt - n) - 1
  let x := (elems fmt bs).take d
  (List.range x.length).zip x |>.map fun v => (v.2, if un.getD (v.1 * fmtBits fmt / 8) false then u else 0)

/-- The low and high bound of a distance (R248). -/
def boundsOf (dist : Nat) (q : List Int) (x : List (Int × Int)) : Int × Int :=
  let z := q.zip x
  match dist with
  | 1 =>
    ((z.map fun p =>
        let a := (p.1 - p.2.1) * (p.1 - p.2.1)
        let b := (p.1 - p.2.1 - p.2.2) * (p.1 - p.2.1 - p.2.2)
        if p.2.1 ≤ p.1 ∧ p.1 ≤ p.2.1 + p.2.2 then 0 else min a b).sum,
     (z.map fun p => max ((p.1 - p.2.1) * (p.1 - p.2.1)) ((p.1 - p.2.1 - p.2.2) * (p.1 - p.2.1 - p.2.2))).sum)
  | 2 => let h := intDist 2 q (x.map (·.1)); (h, h)
  | _ =>
    ((z.map fun p => p.1 * p.2.1 + p.2.2 * min p.1 0).sum, (z.map fun p => p.1 * p.2.1 + p.2.2 * max p.1 0).sum)

/-! ### Fragments (R246, R249, R252, R253) -/

/-- Bytes of state for each vector of a fragment on integer data. -/
def Frag.stateBytes (f : Frag) : Nat := if f.dist = 1 then 8 + ceilDiv (f.dim * fmtBits f.fmt) 8 else 8

/-- The slice size in force, in MiB. -/
def State.sliceMib (s : State) : Nat := clamp 8 64 (s.fld Fld.prsScratchSlice)

/-- Slices of the Press scratch. -/
def State.sliceCount (s : State) : Nat := clamp 16 256 (s.fld Fld.prsScratchMib) / s.sliceMib

/-- The lowest slice that no fragment holds. -/
def State.freeSlice (s : State) : Option Nat :=
  (List.range s.sliceCount).find? fun i => s.frags.all fun f => !f.2.live || decide (f.2.slice ≠ some i)

/-- A fragment holds a slice. -/
def State.sliceHeld (s : State) : Bool := s.frags.any fun f => f.2.live && f.2.slice.isSome

/-- Vectors in a fragment's segment. -/
def State.segVectors (s : State) (f : Frag) : Nat := max 1 (s.sliceMib * 2 ^ 20 / f.stateBytes)

/-- The vectors of the segment that begins at `start`. -/
def State.segment (s : State) (f : Frag) (start : Nat) : List Nat :=
  (List.range (min (s.segVectors f) (vectorsIn f.stride f.ranges - start))).map (start + ·)

/-- Bytes of a fragment's vectors. -/
def Frag.size (f : Frag) : Nat := ceilDiv (f.dim * fmtBits f.fmt) 8

/-- The pages of a list of vectors of a fragment, with their entries now. -/
def State.pinPages (s : State) (f : Frag) (vs : List Nat) : List (Nat × PageEntry) :=
  ((vs.flatMap fun v => pagesAt (Addr.off (vectorAt f.stride f.ranges v)) f.size).eraseDups).map fun p => (p, s.mapEntry p)

/-- A worst case, and a best case, of a candidate. -/
def Cand.worst (larger : Bool) (c : Cand) : Int := if larger then c.low else c.high
def Cand.best (larger : Bool) (c : Cand) : Int := if larger then c.high else c.low

/-- The k-th best worst case of the live vectors and the kept records, where there are that many (R249). -/
def theta (larger : Bool) (k : Nat) (kept : List Rec) (cs : List Cand) : Option Int :=
  let ws := (cs.map (Cand.worst larger)) ++ kept.map (·.value)
  ((bestOf false larger k (ws.map fun w => (0, w))).getD (k - 1) (0, 0)).2 |> fun v => if ws.length < k then none else some v

/-- The candidates that stay live (R249). -/
def dropWorse (larger : Bool) (t : Option Int) (cs : List Cand) : List Cand :=
  match t with
  | none => cs
  | some t => cs.filter fun c => if larger then decide (t ≤ c.best true) else decide (c.best false ≤ t)

/-- The k best of the kept records and further ones, ties to the lower pool address. -/
def keepBest (f : Frag) (more : List Rec) : List Rec :=
  (bestOf (fmtFloat f.fmt) (distLarger f.dist) f.k ((f.kept ++ more).map fun r => (r.index, r.value))).map fun r => ⟨r.1, r.2⟩

/-- The state with one fragment changed. -/
def State.modFrag (s : State) (i : Nat) (g : Frag → Frag) : State := { s with frags := s.frags.upd i g }

/-- The fragments of a command are forgotten, their slices free. -/
def State.dropFrags (s : State) (tag : Nat) : State := { s with frags := s.frags.drop fun _ f => decide (f.tag = tag) }

/-- A fragment's answer: a summary record (vectors scanned; planes used and the early-stop flag), then its records. -/
def Frag.answer (f : Frag) : List Byte :=
  recBytes f.scanned (f.planes + 256 * b2n f.stopped) ++ f.kept.flatMap fun r => recBytes r.index r.value

/-- A fragment has ended: its command answers its origin, or takes its records as a part. -/
def State.endFrag (s : State) (i : Nat) (st : Status) : State :=
  let f := s.frags.get i
  let s := { s with frags := s.frags.put i default }
  let recs := if st.isError then [] else f.answer
  let n := 16 * f.kept.length
  if (s.cmd f.tag).part.isSome then
    (s.modCmd f.tag fun c => { c with recs := recs }).finish f.tag { status := st, r0 := if st.isError then 0 else n, part := st.isError }
  else s.localPart f.tag 0 0 0 st n [] recs

/-- A fragment begins (R246): it waits for a slice where it needs one. -/
def State.beginFrag (s : State) (tag : Nat) (c : Cmd) (q : List Byte) (rs : List (Nat × Nat)) : State :=
  let e := c.entry
  let f : Frag :=
    { live := true, tag := tag, order := s.nextFrag, ranges := rs, query := (elems (pressFmt e) q).take (pressDim e), fmt := pressFmt e,
      dist := pressDist e, dim := pressDim e, k := pressK e, stride := scanStride e, degrade := decide (Entry.dlMode e = 1),
      deadline := c.deadline, planes := fmtBits (pressFmt e) }
  let s := if fmtFloat f.fmt || s.freeSlice.isSome then s else s.bump Fld.prsStatScratchWait
  { s with frags := s.frags.put s.nextFrag f, nextFrag := s.nextFrag + 1 }

/-- The rights of local ranges of a range list, checked as for READ; a range that stands in the entry was checked as it was accepted (R13, R128,
R254). -/
def State.fragRights (s : State) (c : Cmd) (rs : List (Nat × Nat)) : Option Status :=
  if scanList c.entry then s.poolChecks c (rs.map fun r => (Addr.off r.1, r.2, false)) else none

/-- The extents that local ranges of a range list lie in: the command is in flight under their leases too (R15). -/
def State.fragObjs (s : State) (c : Cmd) (rs : List (Nat × Nat)) : List ObjRef :=
  if scanList c.entry then
    rs.flatMap fun r => s.extentsOver (Addr.off r.1 / mib2) ((Addr.off r.1 + r.2 - 1) / mib2 - Addr.off r.1 / mib2 + 1)
  else []

/-- The deadline that lets a fragment stop early has passed in a LIVE domain (R252). -/
def State.fragLate (s : State) (f : Frag) : Bool :=
  f.degrade && (match f.deadline with
    | none => false
    | some dl => s.deadlineMissed dl)

/-- A segment of these pages is scanned by plane in part. -/
def State.anyPlane (s : State) (f : Frag) (ps : List (Nat × PageEntry)) : Bool :=
  ps.any fun p => s.planePage f.fmt p.2 (s.poolSpace.addrOf p.1)

/-- The early stop of a fragment (R252, R253): the live vectors of a segment with a complete pass rank by their midpoints. -/
def State.stopFrag (s : State) (i : Nat) : State :=
  let f := s.frags.get i
  let mids := f.cands.map fun c => Rec.mk c.addr ((c.low + c.high) / 2)
  let n := (s.segment f f.segStart).length
  let g : Frag :=
    if f.pass = 0 then { f with stopped := true }
    else { f with kept := keepBest f mids, scanned := f.scanned + n, planes := min f.planes f.pass, stopped := true }
  (s.modFrag i fun _ => g).endFrag i .ok

/-- One pass over a segment of integer vectors (R248, R249). -/
def State.runPass (s : State) (i : Nat) : State :=
  let f := s.frags.get i
  let first := decide (f.pass = 0)
  let vs := s.segment f f.segStart
  let pinned := if first then s.pinPages f vs else f.pinned
  let addrs := if first then vs.map (vectorAt f.stride f.ranges) else f.cands.map (·.addr)
  let live := (addrs.flatMap fun a => pagesAt (Addr.off a) f.size).eraseDups
  let n := f.pass + 1
  match s.passPages f.fmt n (pinned.filter fun p => live.contains p.1) with
  | (s, .error st) => s.endFrag i st
  | (s, .ok ps) =>
    let s := if first then s.tally Fld.prsScanBytesBytes (vs.length * f.size) else s
    let larger := distLarger f.dist
    let cs := addrs.map fun a =>
      let x := boundedElems f.fmt f.dim n ps (Addr.off a) f.size
      let b := boundsOf f.dist f.query x
      Cand.mk a b.1 b.2 (x.all fun v => decide (v.2 = 0))
    let cs := dropWorse larger (theta larger f.k f.kept cs) cs
    if decide (fmtBits f.fmt ≤ n) || cs.all (·.exact) then
      let f' : Frag :=
        { f with kept := keepBest f (cs.map fun c => ⟨c.addr, c.low⟩), scanned := f.scanned + vs.length, segStart := f.segStart + vs.length,
                 pass := 0, cands := [], pinned := [] }
      let s := s.modFrag i fun _ => f'
      if vectorsIn f.stride f.ranges ≤ f'.segStart then s.endFrag i .ok else s
    else s.modFrag i fun _ => { f with cands := cs, pinned := pinned, pass := n }

/-- The vectors of a floating-point fragment, read in one pass (R239, R246): its records, and how many were NaN. -/
def State.floatRecs (s : State) (f : Frag) : List Nat → State × Except Status (List Rec × Nat)
  | [] => (s, .ok ([], 0))
  | v :: vs =>
    let a := vectorAt f.stride f.ranges v
    match s.readRange s.poolSpace 8 (pageCount (Addr.off a) f.size) (Addr.off a) f.size with
    | (s, _, some st) => (s, .error st)
    | (s, bs, none) =>
      match s.floatRecs f vs with
      | (s, .error st) => (s, .error st)
      | (s, .ok (rs, n)) =>
        let d := distOf f.fmt f.dist f.query ((elems f.fmt bs).take f.dim)
        (s, .ok (if isNan f.fmt d then (rs, n + 1) else (⟨a, d⟩ :: rs, n)))

/-- A floating-point fragment runs whole. -/
def State.runFloat (s : State) (i : Nat) : State :=
  let f := s.frags.get i
  let n := vectorsIn f.stride f.ranges
  let ps := s.pinPages f (List.range n)
  let k := (ps.map fun p => p.2.sectors).sum
  let s := ps.foldl (fun s p => s.countPress p.2 p.2.sectors pageSize) s
  let s := (s.tally Fld.prsScanBytesBytes (n * f.size)).tally Fld.prsScanDramBytes (256 * k)
  match s.floatRecs f (List.range n) with
  | (s, .error st) => s.endFrag i st
  | (s, .ok (rs, nan)) =>
    let s := s.bump Fld.prsStatNan nan
    (s.modFrag i fun f => { f with kept := keepBest f rs, scanned := n }).endFrag i .ok

/-! ### Reductions (R117, R239, R244) -/

/-- A reduction's records, whether it saturated, and how many elements were NaN. `es`: the elements in order. -/
def reduceOf (fmt op k : Nat) (es : List Int) : List (Nat × Int) × Bool × Nat :=
  let n := es.length
  let fl := fmtFloat fmt
  let all := (List.range n).zip es
  let ok := all.filter fun x => !isNan fmt x.2
  let nan := n - ok.length
  let larger := decide (op = 2 ∨ op = 4 ∨ op = 6)
  match op with
  | 0 =>
    if fl then ([(n, ((fpSum (es.map Int.toNat) : Nat) : Int))], false, 0)
    else
      let t := es.sum
      let v := max (-(2 ^ 31)) (min (2 ^ 31 - 1) t)
      ([(n, v)], decide (v ≠ t), 0)
  | 5 => (bestOf fl larger k ok, false, nan)
  | 6 => (bestOf fl larger k ok, false, nan)
  | _ =>
    match bestOf fl larger 1 ok with
    | r :: _ => ([if op ≤ 2 then (n, r.2) else r], false, nan)
    | [] => ([(0, (quietNan : Int))], false, nan)

/-! ### Copies (R242) -/

/-- A container is stored as it stands over page `n`: its sectors in a new run, its map entry with the source's codec and check value. -/
def State.storeContainer (s : State) (ps : PageSpace) (n : Nat) (e : PageEntry) (bs : List Byte) : Except Status State :=
  let old := s.mapEntry (ps.keyOf n)
  let k := e.sectors
  if k = 0 then .ok ((s.setEntry (ps.keyOf n) { mapped := true, check := e.check }).retireRun old)
  else match s.pickRun k with
    | none => .error .noSpace
    | some b =>
      let s := s.takeRun b k
      let s := s.writeSectors b bs
      .ok ((s.setEntry (ps.keyOf n) { e with base := b }).retireRun old)

/-- One page copied on this device: its container where source and destination agree on hint and are not encrypted, else decoded and coded again. -/
def State.copyPage (s : State) (src dst : Nat) : State × Option Status :=
  let ps := s.poolSpace
  let e := s.mapEntry src
  let s := s.countPress e e.sectors pageSize
  match s.readEntry src (ps.addrOf src) 8 e with
  | (s, .error st) => (s, some st)
  | (s, .ok page) =>
    let plain := decide (ps.hintOf src = ps.hintOf dst) && !e.enc && !ps.encOf dst
    let sound := decide ((decodeStored e 8 (s.storedBytes e (ps.addrOf src))).toOption = some page)
    let r := if plain && e.mapped && sound then s.storeContainer ps dst e (s.storedBytes e (ps.addrOf src)) else s.storePage ps dst page
    match r with
    | .ok s => (s, none)
    | .error st => (s, some st)

/-- Whole pages copied one by one: how many, and what ended it. -/
def State.copyPages (s : State) (src dst : Nat) : Nat → State × Nat × Option Status
  | 0 => (s, 0, none)
  | n + 1 =>
    match s.copyPage src dst with
    | (s, some st) => (s, 0, some st)
    | (s, none) =>
      let (s, m, st) := s.copyPages (src + 1) (dst + 1) n
      (s, m + 1, st)

end Sys2Proof.Machine
end

