-- ==== Sys2Proof/Machine/Dma.lean ====
section
/-! DEFINITION. The meanings of the DMA commands (spec/04 group 0x6_, spec/11): DALLOC to DSTOP, and the steps of a run. -/

namespace Sys2Proof.Machine

/-! ### DALLOC and DFREE -/

/-- The lowest free channel of engine `e`, where the engine is in service. -/
def State.freeOn (s : State) (e : Nat) : Option Nat :=
  if s.unitIn 4 e then ((List.range 8).map (8 * e + ·)).find? fun ch => decide (s.chState ch = 0) else none

/-- Allocated channels of an engine. -/
def State.chansOn (s : State) (e : Nat) : Nat := ((List.range 8).filter fun n => decide (s.chState (8 * e + n) ≠ 0)).length

/-- Channels that a function holds. -/
def State.chansOf (s : State) (f : Nat) : List Nat :=
  (List.range 248).filter fun ch => decide (s.chState ch ≠ 0) && !s.chFm ch && decide (s.chOwner ch = f)

/-- The engine with a free channel that has the fewest allocated, the lowest on a tie (R287). -/
def State.sparseEngine (s : State) : Nat → Option Nat
  | 0 => none
  | n + 1 =>
    match s.sparseEngine n with
    | none => if (s.freeOn n).isSome then some n else none
    | some e => if (s.freeOn n).isSome && decide (s.chansOn n < s.chansOn e) then some n else some e

/-- DMA_FN_QUOTA of a function. -/
def State.dmaQuota (s : State) (f : Nat) : Nat := min 248 (bits (s.fld Fld.dmaFnQuotaQuota (f / 8)) (8 * (f % 8)) 8)

/-- DALLOC (R121, R287). -/
def execDalloc (tag : Nat) (s : State) : Out :=
  s.serve tag 0x60 fun c s =>
    let e := Entry.specBits c.entry 40 0 5
    let any := decide (Entry.specBits c.entry 40 7 1 = 1)
    let fm := s.fmCmd c
    if e = 31 ∧ any = false then s.finish tag (Res.err .badField)
    else if !fm && decide (s.dmaQuota c.fn ≤ (s.chansOf c.fn).length) then s.finish tag (Res.err .noSpace)
    else
      let ch := match (if e = 31 then none else s.freeOn e), any with
        | some ch, _ => some ch
        | none, true => (s.sparseEngine 31).bind s.freeOn
        | none, false => none
      match ch with
      | none => s.finish tag (Res.err .noSpace)
      | some ch =>
        let s := (s.modChan ch fun _ => default).zeroSignals ch
        let s := (s.setCh Fld.dmaChStateOwner c.fn ch).setCh Fld.dmaChStateFm (b2n fm) ch
        (s.setChState ch 1).finish tag { r0 := s.chHandle ch }

/-- A handle's refusal; a foreign DFREE is logged (R121, R152). -/
def State.refuseChan (s : State) (tag : Nat) (c : Cmd) (st : Status) (log : Bool) : State :=
  let h := Entry.object c.entry
  let s := if log && decide (st = .notOwner) then s.logForeign 3 c.fn ⟨s.dev, s.chOwner (h % 256)⟩ h else s
  s.finish tag (Res.err st)

/-- DFREE: a running channel is stopped first (R288). -/
def execDfree (tag : Nat) (s : State) : Out :=
  s.serve tag 0x61 fun c s =>
    match s.chanOf c.fn (Entry.object c.entry) (s.fmCmd c) with
    | .error st => s.refuseChan tag c st true
    | .ok ch => (s.freeChan ch none).finish tag {}

/-! ### DSTART and DSTOP -/

/-- Mode and location of a DSTART. -/
def startMode (e : Nat) : Nat := Entry.spec e 48 1
/-- Location of a DSTART: 0 Urn, 1 pool. -/
def startLoc (e : Nat) : Nat := Entry.spec e 49 1

/-- The Urn buffer of a DSTART with location 0, as acceptance bound it (R108, R280, R289). -/
def State.startBuf (s : State) (c : Cmd) : Except Status (Option Nat) :=
  if startLoc c.entry = 1 then .ok none
  else match c.refuse, boundBuf c with
    | some st, _ => .error st
    | none, none => .error .badField
    | none, some i => if (s.bufs.get i).poisoned then .error .internal else .ok (some i)

/-- A channel is loaded with the run of a DSTART (R290). -/
def State.loadRun (s : State) (ch : Nat) (c : Cmd) (b : Option Nat) (t : Option Nat) : State :=
  let e := c.entry
  let k : Chan := { resetBy := none, tag := t, first := Entry.spec e 40 8, handle := Entry.spec e 56 8, buf := b,
                    vectorAt := (s.cqs.get (s.sqs.get c.sq).cq).vector }
  let s := (s.setCh Fld.dmaChStateMode (startMode e) ch).setCh Fld.dmaChStateLoc (startLoc e) ch
  let s := (s.setCh Fld.dmaChStateBlend (Entry.blend e) ch).setCh Fld.dmaChMovedMoved 0 ch
  let s := (s.setFault ch 0 0).setCh Fld.dmaChErrRetries 0 ch
  s.modChan ch fun _ => k

/-- The DSTART's run joins the queue, and its reply waits for the run. -/
def State.startRun (s : State) (tag ch : Nat) : State :=
  (s.enqueueRun ch).modCmd tag fun c => { c with stage := .running, started := true, objs := c.objs ++ [.channel ch] }

/-- A DSTART: `sub` 0 start, 1 ARM_ONLY, 2 RESUME (with or without ARM_ONLY); its checks, then its work on its channel and buffer. -/
def State.serveStart (s : State) (tag sub : Nat) (work : Cmd → Nat → Option Nat → State → State) : Out :=
  s.serve tag 0x62 fun c s =>
    let e := c.entry
    let o := Entry.specBits e 50 0 2
    if (if o < 2 then o else 2) ≠ sub ∨ c.stage = .running then s
    else match s.chanOf c.fn (Entry.object e) (s.fmCmd c) with
      | .error st => s.refuseChan tag c st false
      | .ok ch =>
        let st := s.chState ch
        if decide (1 < startMode e) || decide (1 < startLoc e) || decide (st = 3 ∨ st = 4 ∨ st = 5) || decide (o = 3) ||
            decide (o = 2 ∧ st ≠ 6) then s.finish tag (Res.err .badField)
        else if !s.unitIn 4 (engOf ch) then s.finish tag { status := .aborted, r1 := 5, part := true }
        else if Entry.spec e 40 8 % (if startMode e = 1 then 16 else 32) ≠ 0 then s.finish tag (Res.err .badAlign)
        else match s.startBuf c with
          | .error st => s.finish tag (Res.err st)
          | .ok b => work c ch b s

/-- DSTART without ARM_ONLY and RESUME (R120, R121, R285, R289, R290). -/
def execDstart (tag : Nat) (s : State) : Out :=
  s.serveStart tag 0 fun c ch b s =>
    let e := c.entry
    let k := s.chan ch
    if s.chState ch = 2 then
      if decide (s.chFld Fld.dmaChStateMode ch = startMode e) && decide (s.chFld Fld.dmaChStateLoc ch = startLoc e) &&
          decide (k.first = Entry.spec e 40 8) && decide (k.handle = Entry.spec e 56 8) then (s.loadRun ch c b (some tag)).startRun tag ch
      else s.finish tag (Res.err .badField)
    else (s.loadRun ch c b (some tag)).startRun tag ch

/-- DSTART with ARM_ONLY: loaded, not started; a channel already armed is refused (R120, R121). -/
def execDstartArmOnly (tag : Nat) (s : State) : Out :=
  s.serveStart tag 1 fun c ch b s =>
    if s.chState ch = 2 then s.finish tag (Res.err .badField)
    else ((s.loadRun ch c b none).setChState ch 2).finish tag {}

/-- DSTART with RESUME: a halted run is queued again at its failing point (R120, R314). -/
def execDstartResume (tag : Nat) (s : State) : Out :=
  s.serveStart tag 2 fun c ch _ s =>
    let s := s.modChan ch fun k => { k with tag := some tag, resumed := true }
    let s := (s.setCh Fld.dmaChStateBlend (Entry.blend c.entry) ch).setCh Fld.dmaChMovedMoved 0 ch
    (s.setCh Fld.dmaChErrRetries 0 ch).startRun tag ch

/-- DSTOP: its reply follows that of the run it stopped (R321). -/
def execDstop (tag : Nat) (s : State) : Out :=
  s.serve tag 0x63 fun c s =>
    if c.stage = .running then
      (if (s.cmd c.first).live then s else s.finish tag { r0 := c.moved })
    else match s.chanOf c.fn (Entry.object c.entry) (s.fmCmd c) with
      | .error st => s.refuseChan tag c st false
      | .ok ch =>
        let st := s.chState ch
        let run := decide (3 ≤ st)
        let t := (s.chan ch).tag
        let s := s.haltNow ch
        match t with
        | some t => s.modCmd tag fun c => { c with stage := .running, started := true, first := t, moved := b2n run }
        | none => s.finish tag { r0 := b2n run }

/-! ### The steps of a run -/

/-- The state with a run's PC moved on. -/
def State.setPc (s : State) (ch pc : Nat) : State := s.setCh Fld.dmaChPcPc pc ch

/-- CHANNEL_DISPATCH: an idle engine takes its next queued channel (R284, R285); its regions are cleared, and a fresh run's context with
them (R294, R297). -/
def execChannelDispatch (e : Nat) (s : State) : Out :=
  let q := ((List.range 8).map (8 * e + ·)).filter fun ch => decide (s.chState ch = 3)
  if (s.engHolder e).isSome || !s.unitIn 4 e then .next s
  else match q with
    | [] => .next s
    | c :: cs =>
      let ch := cs.foldl (fun b c => if (s.chan c).order < (s.chan b).order then c else b) c
      let k := s.chan ch
      let s := (s.setChState ch 4).clearRegions (masterOf ch)
      if k.resumed then
        .next ((List.range 8).foldl (fun s r => if bit k.loaded r then s.setRegion ch r (k.bases.getD r 0) else s) s)
      else
        let s := s.modChan ch fun k =>
          { k with vector := k.vectorAt, word := none, policySet := false, charged := false, moved := 0, todo := none, after := none }
        let s := s.setCh Fld.dmaChLoopI0 0 ch
        let s := (s.setCh Fld.dmaChLoopI1 0 ch).setCh Fld.dmaChLoopI2 0 ch
        .next (s.setPc ch k.first)

/-- A field of an instruction: `k` bits from bit `lo` of byte `off`. -/
def insn (n off lo k : Nat) : Nat := bits n (8 * off + lo) k

/-- A two's complement field of 32 bits. -/
def insnInt (n off : Nat) : Int := toSigned 32 (insn n off 0 32)

/-- The encoding of an instruction is defined, with every reserved bit zero (R298 to R303). -/
def insnOk (n : Nat) : Bool :=
  match insn n 0 0 8 with
  | 0 => decide (insn n 1 1 7 = 0) && decide (insn n 2 0 112 = 0)
  | 1 =>
    if insn n 1 7 1 = 0 then decide (insn n 3 4 4 = 0)
    else
      let sl := insn n 2 0 4
      decide (insn n 1 0 7 = 0) && decide (insn n 2 4 4 = 0) && decide (sl ≤ 10) && decide (insn n 3 2 6 = 0) && decide (insn n 4 0 32 = 0) &&
        (if sl < 8 then decide (insn n 3 0 2 ≠ 3)
         else decide (insn n 3 0 2 = 0) &&
           (match sl with
            | 8 => decide (insn n 8 33 31 = 0)
            | 9 => decide (insn n 8 1 3 = 0) && decide (insn n 8 8 56 = 0)
            | _ => decide (insn n 8 6 1 = 0) && decide (insn n 8 8 56 = 0)))
  | 2 =>
    decide (insn n 1 0 2 ≠ 3) && decide (insn n 1 2 6 = 0) && decide (insn n 4 0 12 ≠ 0) && decide (insn n 5 4 4 = 0) && decide (insn n 6 0 16 = 0)
  | 3 =>
    (match insn n 1 0 2 with
     | 0 => decide (insn n 1 3 5 = 0) && decide (insn n 3 2 6 = 0) && decide (insn n 4 0 16 ≠ 0) && decide (insn n 6 0 80 = 0)
     | 1 => decide (insn n 1 2 6 = 0) && decide (insn n 2 0 48 = 0) && decide (insn n 14 0 16 = 0)
     | 2 => decide (insn n 1 2 1 = 0) && decide (insn n 1 5 3 = 0) && decide (insn n 2 0 16 = 0) && decide (insn n 8 0 32 < 2 ^ 30) &&
         decide (insn n 8 0 2 = 0) && decide (insn n 12 0 32 = 0)
     | _ => false)
  | 4 =>
    decide (insn n 1 3 5 = 0) &&
    (match insn n 1 0 2 with
     | 0 => decide (insn n 3 2 6 = 0) && decide (insn n 4 0 16 ≠ 0) && decide (insn n 6 0 80 = 0)
     | 1 => decide (insn n 2 6 10 = 0) && decide (insn n 4 0 96 = 0)
     | 2 => decide (insn n 2 0 16 = 0) && decide (insn n 8 0 32 < 2 ^ 30) && decide (insn n 8 0 2 = 0) && decide (insn n 12 0 32 = 0)
     | _ => false)
  | _ => false

/-- A program's next instruction, where it is one of opcode `op` and the run may go on; a fetch that fails or an encoding that is not defined
raises its fault whichever instruction the row names (R295, R298). -/
def State.instruction (s : State) (ch op : Nat) (work : Nat → State → State) : Out :=
  if s.chState ch ≠ 4 ∨ s.chFld Fld.dmaChStateMode ch ≠ 1 ∨ (s.chan ch).ended = true ∨ (s.chan ch).retryAt.isSome = true then .next s
  else match s.fetch ch 16 with
    | (s, none) => .next s
    | (s, some (.error e)) => .next (s.raise ch e)
    | (s, some (.ok n)) =>
      if !insnOk n then .next (s.raise ch (.format (s.chFld Fld.dmaChPcPc ch)))
      else if insn n 0 0 8 = op then .next (work n s) else .next s

/-- A run goes on to its next instruction. -/
def State.nextPc (s : State) (ch : Nat) : State := s.setPc ch (s.chFld Fld.dmaChPcPc ch + 16)

/-- The transfer that a descriptor describes (R296). -/
def descXfer (n : Nat) : Xfer :=
  { src := ((insn n 0 0 64 : Nat) : Int), dst := ((insn n 8 0 64 : Nat) : Int), len := insn n 16 0 32, ssp := insn n 20 0 2, dsp := insn n 20 2 2,
    rt := decide (insn n 20 4 1 = 1), half := decide (insn n 20 5 1 = 1), full := decide (insn n 20 6 1 = 1), shuf := insn n 21 0 4,
    sw := insn n 21 4 2, ways := insn n 22 0 4 }

/-- DESCRIPTOR: the transfer of a descriptor-list run's descriptor, then its NEXT (R294, R296). -/
def execDescriptor (ch : Nat) (s : State) : Out :=
  if s.chState ch ≠ 4 ∨ s.chFld Fld.dmaChStateMode ch ≠ 0 ∨ (s.chan ch).ended = true ∨ (s.chan ch).retryAt.isSome = true then .next s
  else match s.fetch ch 32 with
    | (s, none) => .next s
    | (s, some (.error e)) => .next (s.raise ch e)
    | (s, some (.ok n)) =>
      let pc := s.chFld Fld.dmaChPcPc ch
      let last := insn n 20 7 1 = 1
      if insn n 23 0 8 ≠ 0 ∨ (¬last ∧ insn n 24 0 64 % 32 ≠ 0) then .next (s.raise ch (.format pc))
      else
        let x := descXfer n
        let k := s.chan ch
        let s := if k.policySet then s else
          s.modChan ch fun k => { k with policySet := true, retry := decide (insn n 21 7 1 = 1), retries := max 1 (insn n 22 4 4) }
        let s := if x.ssp = 0 ∧ k.charged = false then s.setRegion ch 0 x.src.toNat else s
        let s := if x.dsp = 0 ∧ k.charged = false then s.setRegion ch 1 x.dst.toNat else s
        match s.runXfer ch x with
        | (s, false) => .next s
        | (s, true) => if last then .next (s.modChan ch fun k => { k with ended := true }) else .next (s.setPc ch (insn n 24 0 64))

/-- A slot of the channel context is written (R297, R299). -/
def State.setSlot (s : State) (ch n : Nat) : State :=
  let v := insn n 8 0 64
  let sl := insn n 2 0 4
  match sl with
  | 8 => s.modChan ch fun k => { k with limit := v }
  | 9 => s.modChan ch fun k => { k with retry := bit v 0, retries := max 1 (bits v 4 4) }
  | 10 => s.modChan ch fun k => { k with vector := if bit v 7 then none else some (bits v 0 6) }
  | _ =>
    let sp := insn n 3 0 2
    let urn := decide (sp = 0)
    let s := s.modChan ch fun k =>
      { k with bases := k.bases.set sl v, spaces := k.spaces.set sl sp, loaded := setBits k.loaded sl 1 (b2n urn) }
    if urn then s.setRegion ch sl v else s

/-- The transfer of a data MOVE: bases, offsets, and the loop counters times their steps (R299, R300). -/
def State.moveXfer (s : State) (ch n : Nat) : Xfer :=
  let k := s.chan ch
  let i := [s.chFld Fld.dmaChLoopI0 ch, s.chFld Fld.dmaChLoopI1 ch, s.chFld Fld.dmaChLoopI2 ch]
  let sum := fun (st : List Int) => ((i.zip st).map fun p => (p.1 : Int) * p.2).sum
  let sb := insn n 1 0 3
  let db := insn n 1 3 3
  { src := ((k.bases.getD sb 0 : Nat) : Int) + insnInt n 4 + sum k.sstep, dst := ((k.bases.getD db 0 : Nat) : Int) + insnInt n 8 + sum k.dstep,
    len := insn n 12 0 32, ssp := k.spaces.getD sb 0, dsp := k.spaces.getD db 0, rt := decide (insn n 1 6 1 = 1),
    half := decide (insn n 2 6 1 = 1), full := decide (insn n 2 7 1 = 1), shuf := insn n 2 0 4, sw := insn n 2 4 2, ways := insn n 3 0 4 }

/-- MOVE (R299, R304 to R307, R311). -/
def execMove (ch : Nat) (s : State) : Out :=
  s.instruction ch 1 fun n s =>
    if insn n 1 7 1 = 1 then
      (s.setSlot ch n).nextPc ch
    else match s.runXfer ch (s.moveXfer ch n) with
      | (s, false) => s
      | (s, true) => s.nextPc ch

/-- A loop counter's field. -/
def loopFld (l : Nat) : Fld :=
  match l with
  | 0 => Fld.dmaChLoopI0
  | 1 => Fld.dmaChLoopI1
  | _ => Fld.dmaChLoopI2

/-- LOOP (R300). -/
def execLoop (ch : Nat) (s : State) : Out :=
  s.instruction ch 2 fun n s =>
    let l := insn n 1 0 2
    let pc := s.chFld Fld.dmaChPcPc ch
    let back := 16 * insn n 4 0 12
    let i := s.chFld (loopFld l) ch + 1
    if pc < (s.chan ch).first + back then s.raise ch (.format pc)
    else
      let s := s.modChan ch fun k => { k with sstep := k.sstep.set l (insnInt n 8), dstep := k.dstep.set l (insnInt n 12) }
      if i ≤ insn n 2 0 16 then (s.setCh (loopFld l) i ch).setPc ch (pc - back) else (s.setCh (loopFld l) 0 ch).nextPc ch

/-- The pour domain of a channel's owner, where it has one that is not OFF (R319). -/
def State.chDomain (s : State) (ch : Nat) : Option Nat :=
  ((s.fn (s.chWho ch)).domain).filter fun d => decide ((s.dom d).state ≠ .off)

/-- The channel that owns a signal has the owner of channel `ch` (R316). -/
def State.sameOwner (s : State) (ch p : Nat) : Bool :=
  decide (s.chState p ≠ 0) && decide (s.chFm p = s.chFm ch) && (s.chFm p || decide (s.chOwner p = s.chOwner ch))

/-- A comparison of R301. -/
def flagHolds (cmp x v : Nat) : Bool :=
  match cmp with
  | 0 => decide (x = v)
  | 1 => decide (x ≠ v)
  | 2 => decide (v ≤ x)
  | _ => decide (x < v)

/-- A WAIT's condition holds now; a flag is read, which can fault (R63, R301). -/
def State.waitHolds (s : State) (ch n : Nat) : State × Except DmaErr Bool :=
  match insn n 1 0 2 with
  | 0 => (s, .ok (decide (insn n 4 0 16 ≤ s.signal (insn n 2 0 10))))
  | 1 =>
    match s.chDomain ch with
    | none => (s, .error (.resource (s.chFld Fld.dmaChPcPc ch)))
    | some d => (s, .ok (decide ((s.dom d).state = .live) && decide (insn n 8 0 48 ≤ (s.dom d).pos)))
  | _ =>
    match s.urnGet ch (insn n 8 0 30) 4 with
    | (s, .error e) => (s, .error e)
    | (s, .ok b) => (s, .ok (flagHolds (insn n 1 3 2) (leNat b) (insn n 4 0 32)))

/-- A satisfied WAIT is passed; CONSUME takes its threshold from the count (R301). -/
def State.passWait (s : State) (ch n : Nat) : State :=
  let g := insn n 2 0 10
  let s := if insn n 1 0 2 = 0 ∧ insn n 1 2 1 = 1 then s.setSignal g (s.signal g - insn n 4 0 16) else s
  ((s.modChan ch fun k => { k with waiting := none }).setChState ch 4).nextPc ch

/-- The limits of a WAIT that begins now (R319). -/
def State.waitLimits (s : State) (ch : Nat) : DmaWait :=
  let k := s.chan ch
  let v := k.limit % 2 ^ 32
  let unit := bit k.limit 32
  let d := ((s.fn (s.chWho ch)).domain).map s.dom |>.getD {}
  { since := s.us, epoch := d.epoch, layer := d.layer, tick := d.tick,
    us := if v = 0 then some (clamp 1 1000000 (s.fld Fld.dmaCtrlWaitUs)) else if unit then none else some (ceilDiv (1000 * v) s.cyclesPerMs),
    pt := v, cap := 1000 * clamp 1 60000 (s.fld Fld.dmaCtrlWaitCapMs) }

/-- WAIT (R301, R316, R318, R319). -/
def execWait (ch : Nat) (s : State) : Out :=
  s.instruction ch 3 fun n s =>
    let p := insn n 2 0 10 / 4
    let sig := insn n 1 0 2 = 0
    if sig ∧ s.sameOwner ch p = false then s.raise ch (.resource (s.chFld Fld.dmaChPcPc ch))
    else match s.waitHolds ch n with
      | (s, .error e) => s.raise ch e
      | (s, .ok true) => s.passWait ch n
      | (s, .ok false) =>
        if sig ∧ (p = ch ∨ (s.chState p = 3 ∧ engOf p = engOf ch)) then s.raise ch { fault := 2, cause := 0 }
        else (s.modChan ch fun k => { k with waiting := some (s.waitLimits ch) }).setChState ch 5

/-- A waiting run's WAIT instruction. -/
def State.waitInsn (s : State) (ch : Nat) : Option Nat :=
  if s.chState ch ≠ 5 then none
  else (s.chan ch).word.map fun w => leNat ((w.2.drop (s.chFld Fld.dmaChPcPc ch % 64)).take 16)

/-- WAIT_FLAG_POLL: a waiting run reads its flag again (R301). -/
def execWaitFlagPoll (ch : Nat) (s : State) : Out :=
  match s.waitInsn ch with
  | none => .next s
  | some n =>
    if insn n 1 0 2 ≠ 2 then .next s
    else match s.waitHolds ch n with
      | (s, .error e) => .next (s.raise ch e)
      | (s, .ok true) => .next (s.passWait ch n)
      | (s, .ok false) => .next s

/-- A channel below `ch` waits, with CONSUME, on signal `g` and is satisfied: it is served first (R317). -/
def State.consumesFirst (s : State) (ch g : Nat) : Bool :=
  (List.range ch).any fun c =>
    match s.waitInsn c with
    | none => false
    | some n => decide (insn n 1 0 2 = 0) && decide (insn n 1 2 1 = 1) && decide (insn n 2 0 10 = g) && decide (insn n 4 0 16 ≤ s.signal g)

/-- WAIT_SATISFIED: a waiting run's signal or position has been reached (R63, R301, R317); a domain that has gone OFF faults it (R319). -/
def execWaitSatisfied (ch : Nat) (s : State) : Out :=
  match s.waitInsn ch with
  | none => .next s
  | some n =>
    if insn n 1 0 2 = 2 ∨ (insn n 1 0 2 = 0 ∧ s.consumesFirst ch (insn n 2 0 10) = true) then .next s
    else match s.waitHolds ch n with
      | (s, .error e) => .next (s.raise ch e)
      | (s, .ok true) => .next (s.passWait ch n)
      | (s, .ok false) => .next s

/-- A WAIT has reached its limit or the cap (R319). -/
def State.waitOver (s : State) (ch : Nat) (w : DmaWait) : Bool :=
  let d := ((s.fn (s.chWho ch)).domain).map s.dom |>.getD {}
  decide (w.since + w.cap ≤ s.us) ||
    (match w.us with
     | some u => decide (w.since + u ≤ s.us)
     | none =>
       if 0xFFFF < w.tick + w.pt then decide (packPos w.epoch w.layer 0xFFFF < d.pos)
       else decide (packPos w.epoch w.layer (w.tick + w.pt) ≤ d.pos))

/-- WAIT_LIMIT_EXPIRY: a WAIT at its limit stops the run (R315, R319). -/
def execWaitLimitExpiry (ch : Nat) (s : State) : Out :=
  match (s.chan ch).waiting with
  | none => .next s
  | some w => if s.chState ch = 5 ∧ s.waitOver ch w = true then .next (s.raise ch { fault := 3, cause := 0 }) else .next s

/-- SIGNAL: every earlier write of the run has left the engine, and settled, as it executes (R302, R310, R311, R316). -/
def execSignal (ch : Nat) (s : State) : Out :=
  s.instruction ch 4 fun n s =>
    match insn n 1 0 2 with
    | 0 =>
      let g := insn n 2 0 10
      if g / 4 ≠ ch then s.raise ch (.resource (s.chFld Fld.dmaChPcPc ch))
      else (s.setSignal g (satAdd 0xFFFF (s.signal g) (insn n 4 0 16))).nextPc ch
    | 1 => (s.dmaInterrupt ch 3 (some (insn n 2 0 6))).nextPc ch
    | _ =>
      match s.urnPut ch (insn n 8 0 30) (leBytes 4 (insn n 4 0 32)) with
      | (s, some e) => s.raise ch e
      | (s, none) => s.nextPc ch

/-- END: the run has reached its end (R303). -/
def execEnd (ch : Nat) (s : State) : Out :=
  s.instruction ch 0 fun _ s => s.modChan ch fun k => { k with ended := true }

/-- RUN_COMPLETE: the last write of an ended run has left the engine, or settled: the channel is IDLE, the engine free, the reply due
(R308 to R310). -/
def execRunComplete (ch : Nat) (s : State) : Out :=
  if s.chState ch = 4 ∧ (s.chan ch).ended = true then
    let s := s.answerRun ch { r0 := s.chMoved ch % 2 ^ 40 }
    .next ((s.modChan ch Chan.idle).setChState ch 1)
  else .next s

/-- DMA_RETRY_TIMER: the failing access is reissued (R313); it goes with the next row of the run's instruction or descriptor. -/
def execDmaRetryTimer (ch : Nat) (s : State) : Out :=
  match (s.chan ch).retryAt with
  | none => .next s
  | some t =>
    if s.chState ch = 4 ∧ t ≤ s.us then
      let s := s.modChan ch fun k => { k with retryAt := none }
      .next (s.setCh Fld.dmaChErrRetries (s.chFld Fld.dmaChErrRetries ch + 1) ch)
    else .next s

end Sys2Proof.Machine
end

