-- ==== Sys2Proof/Machine/Press.lean ====
section
/-! DEFINITION. The meanings of the Press commands (spec/04 group 0x4_, spec/09). -/

namespace Sys2Proof.Machine

/-- A Press command's checks, then its work: fields first, then what acceptance bound, then ABANDON; with no Press in service it waits (R53,
R236). -/
def State.pressed (s : State) (tag : Nat) (c : Cmd) (check : Option Status) (work : State → State) : State :=
  match firstOf [check, c.refuse, if s.abandoned c && c.part.isNone then some .deadlineMissed else none] with
  | some st => s.finish tag (Res.err st)
  | none => if s.anyPress then work s else s

/-- Where a Press command that writes is served: bytes from `c.moved` on go into the pool at `off`, as far as the log has room; the rest
waits (R155, R173, R177). -/
def State.pressWrite (s : State) (tag : Nat) (c : Cmd) (off n : Nat) (bs : List Byte) : State :=
  let o := off + c.moved
  let pages := pageCount o (n - c.moved)
  let (s, m, st) := s.writeRange s.poolSpace (s.pageRoom pages) o bs
  let s := s.countPages s.poolSpace (o / pageSize) (pageCount o m)
  let done := c.moved + m
  if st.isNone && decide (done < n) then
    s.countStall.modCmd tag fun c => { c with stage := .running, started := true, moved := done }
  else s.finish tag (Res.moved (st.getD .ok) done n)

/-- The bytes of a pattern repeated from its `i`-th byte on. -/
def patternBytes (p : List Byte) (i n : Nat) : List Byte := (List.range n).map fun j => p.getD ((i + j) % p.length) 0#8

/-- PFILL (R116, R241). -/
def execPfill (tag : Nat) (s : State) : Out :=
  s.serve tag 0x40 fun c s =>
    let e := c.entry
    let a := Entry.object e
    let n := Entry.length e
    s.pressed tag c (fillCheck e) fun s =>
      if !s.isHere a then s.forward tag c (Addr.sys a) (Addr.dev a)
      else
        let k := Entry.spec e 56 1
        s.pressWrite tag c (Addr.off a) n (patternBytes (leBytes k (Entry.spec e 40 k)) c.moved (n - c.moved))

/-- PCOPY between ranges of this device (R242). -/
def State.copyHere (s : State) (tag : Nat) (c : Cmd) (src dst n : Nat) : State :=
  if src % pageSize = 0 ∧ dst % pageSize = 0 ∧ n % pageSize = 0 then
    let left := (n - c.moved) / pageSize
    let room := s.pageRoom left
    let (s, m, st) := s.copyPages ((src + c.moved) / pageSize) ((dst + c.moved) / pageSize) room
    let done := c.moved + m * pageSize
    if st.isNone && decide (done < n) then
      s.countStall.modCmd tag fun c => { c with stage := .running, started := true, moved := done }
    else s.finish tag (Res.moved (st.getD .ok) done n)
  else
    let (s, bs, st) := s.pressRead (src + c.moved) (n - c.moved)
    match st with
    | none => s.pressWrite tag c dst n bs
    | some st =>
      let (s, m, st') := s.writeRange s.poolSpace (pageCount (dst + c.moved) bs.length) (dst + c.moved) bs
      s.finish tag (Res.moved (st'.getD st) (c.moved + m) n)

/-- PCOPY to another device: the data read goes there on virtual channel 3, and the copy ends with its answer (R242). -/
def State.copyAway (s : State) (tag : Nat) (c : Cmd) (src dst n : Nat) : State :=
  if c.stage = .running then
    match s.partsOf tag with
    | (_, p) :: _ =>
      if !p.done then s
      else
        let st := if p.status.isError then p.status else if c.moved < n then c.reply.status else .ok
        (s.dropParts tag).finish tag (Res.moved st p.moved n)
    | [] => s
  else
    let (s, bs, st) := s.pressRead src n
    if bs.isEmpty then s.finish tag (Res.moved (st.getD .ok) 0 n)
    else
      let s := s.sendShare tag c 0x30 (Addr.sys dst) (Addr.dev dst) dst bs.length 0 bs false
      s.modCmd tag fun c => { c with stage := .running, started := true, moved := bs.length, reply := { c.reply with status := st.getD .ok } }

/-- PCOPY (R116, R242). -/
def execPcopy (tag : Nat) (s : State) : Out :=
  s.serve tag 0x41 fun c s =>
    let e := c.entry
    let a := Entry.object e
    let b := Entry.spec e 40 8
    let n := Entry.length e
    s.pressed tag c (copyCheck e) fun s =>
      match c.part with
      | some (obj, len, _) => s.pressWrite tag c (Addr.off obj) len ((c.inData.take len).drop c.moved)
      | none =>
        if !s.isHere a then s.forward tag c (Addr.sys a) (Addr.dev a)
        else if s.isHere b then s.copyHere tag c (s.poolOff a) (Addr.off b) n
        else s.copyAway tag c (s.poolOff a) b n

/-- The output of a PCMP over two runs of elements (R117, R243). -/
def cmpOut (e : Nat) (a b : List Int) : List Byte :=
  let f := pressFmt e
  let d := pressDim e
  let mode := Entry.spec e 51 1
  if mode = 4 then
    (List.range (min a.length b.length / d)).flatMap fun j =>
      accBytes (distOf f (pressDist e) ((a.drop (j * d)).take d) ((b.drop (j * d)).take d))
  else
    packBits ((a.zip b).map fun p =>
      let nan := isNan f p.1 || isNan f p.2
      let x := rankKey (fmtFloat f) p.1
      let y := rankKey (fmtFloat f) p.2
      match mode with
      | 0 => !nan && decide (x = y)
      | 1 => nan || decide (x ≠ y)
      | 2 => !nan && decide (x < y)
      | _ => !nan && decide (x ≤ y))

/-- Bytes that a PCMP asks to write (R117). -/
def cmpAsked (e : Nat) : Nat :=
  let n := 8 * Entry.length e / fmtBits (pressFmt e)
  if Entry.spec e 51 1 = 4 then 4 * (n / pressDim e) else ceilDiv n 8

/-- PCMP ends with the outputs of the bytes that both ranges gave. -/
def State.endCmp (s : State) (tag : Nat) (c : Cmd) (a b : List Byte) (st : Option Status) : State :=
  let f := pressFmt c.entry
  let n := min a.length b.length
  let out := cmpOut c.entry (elems f (a.take n)) (elems f (b.take n))
  (s.deliver c (Entry.hostBuf c.entry) out).finish tag (Res.moved (st.getD .ok) out.length (cmpAsked c.entry))

/-- PCMP (R116 to R118, R243). B on another device is read by it as a part of the command. -/
def execPcmp (tag : Nat) (s : State) : Out :=
  s.serve tag 0x42 fun c s =>
    let e := c.entry
    let a := Entry.object e
    let b := Entry.spec e 40 8
    let n := Entry.length e
    s.pressed tag c (cmpCheck e) fun s =>
      match c.part with
      | some (obj, len, _) =>
        let (s, bs, st) := s.pressRead (s.poolOff obj) len
        s.endShare tag c (st.getD .ok) bs.length len bs []
      | none =>
        if !s.isHere a then s.forward tag c (Addr.sys a) (Addr.dev a)
        else if s.isHere b then
          let (s, x, st) := s.pressRead (s.poolOff a) n
          let (s, y, st') := s.pressRead (s.poolOff b) n
          s.endCmp tag c x y (if y.length < x.length then st' else st.or st')
        else if c.stage ≠ .running then
          (s.sendShare tag c 0x03 (Addr.sys b) (Addr.dev b) b n 0 [] false).modCmd tag fun c => { c with stage := .running, started := true }
        else if !s.partsDone tag then s
        else
          let (m, y, st') := prefixOf (s.partsOf tag)
          let (s, x, st) := (s.dropParts tag).pressRead (Addr.off a) n
          s.endCmp tag c x (y.take m) (if m < x.length then st' else st.or st')

/-- PREDUCE (R116, R117, R239, R244). -/
def execPreduce (tag : Nat) (s : State) : Out :=
  s.serve tag 0x43 fun c s =>
    let e := c.entry
    let a := Entry.object e
    let n := Entry.length e
    s.pressed tag c (reduceCheck e) fun s =>
      if !s.isHere a then s.forward tag c (Addr.sys a) (Addr.dev a)
      else
        let f := pressFmt e
        let op := Entry.spec e 51 1
        let count := 8 * n / fmtBits f
        let asked := 16 * (if op < 5 then 1 else min (pressK e) count)
        let (s, bs, st) := s.pressRead (s.poolOff a) n
        match st with
        | some st => s.finish tag (Res.moved st 0 asked)
        | none =>
          let (rs, sat, nan) := reduceOf f op (pressK e) (elems f bs)
          let s := (s.bump Fld.prsStatSaturated (b2n sat)).bump Fld.prsStatNan nan
          let out := rs.flatMap fun r => recBytes r.1 r.2
          (s.deliver c (Entry.hostBuf e) out).finish tag (Res.moved .ok out.length asked (rs.length + 2 ^ 32 * b2n sat))

/-! ### PSCAN -/

/-- Records, planes, early stop and vectors of a part's answer. -/
def readAnswer (float : Bool) (bs : List Byte) : List (Nat × Int) × Nat × Bool × Nat :=
  let head := leNat (bs.take 16)
  let val := fun (r : List Byte) => let n := leNat ((r.drop 8).take 4); if float then (n : Int) else toSigned 32 n
  let rs := (List.range ((bs.length - 16) / 16)).map fun i =>
    let r := (bs.drop (16 + 16 * i)).take 16
    (leNat (r.take 8), val r)
  (rs, bits head 64 8, bit head 72, bits head 0 64)

/-- A re-sent fragment that ended with REBUILDING is left out of a PSCAN under DEGRADE (R476). -/
def State.leftOut (c : Cmd) (p : Part) : Bool := p.again && decide (p.status = .rebuilding) && decide (Entry.dlMode c.entry = 1)

/-- PSCAN ends with the merged records (R254, R253, R476). -/
def State.mergeScan (s : State) (tag : Nat) (c : Cmd) : State :=
  let e := c.entry
  let f := pressFmt e
  let k := pressK e
  let ps := s.partsOf tag
  let lost := ps.any fun p => State.leftOut c p.2
  let as := (ps.filter fun p => !p.2.status.isError).map fun p => readAnswer (fmtFloat f) p.2.recs
  let best := bestOf (fmtFloat f) (distLarger (pressDist e)) k (as.flatMap (·.1))
  let early := as.any (·.2.2.1)
  let vectors := (as.map (·.2.2.2)).sum
  let planes := match (as.filter fun a => decide (a.2.2.2 ≠ 0)).map (·.2.1) with
    | [] => s.free % 256
    | p :: l => l.foldl min p
  let out := best.flatMap fun r => recBytes r.1 r.2
  let asked := 16 * min k (vectorsIn (scanStride e) (s.scanRanges c.fn e))
  let s := if early then s.tookFree.bump Fld.prsStatEarlyStop else s.tookFree
  let r1 := best.length + 2 ^ 16 * (if lost then 0 else planes) + 2 ^ 24 * b2n (early || lost) + 2 ^ 32 * min (2 ^ 32 - 1) vectors
  ((s.deliver c (Entry.hostBuf e) out).dropParts tag).finish tag
    (Res.moved (if early || lost then .okPartial else .ok) out.length asked r1)

/-- PSCAN goes on as its fragments answer: the first failure ends it, cancelling the others (R255); when all have answered they are merged. -/
def State.scanJoin (s : State) (tag : Nat) (c : Cmd) : State :=
  let ps := s.partsOf tag
  match ps.find? fun p => p.2.done && p.2.status.isError && !State.leftOut c p.2 with
  | some p => (((s.cancelParts c ps).dropParts tag).dropFrags tag).finish tag { status := p.2.status, part := true }
  | none =>
    if ps.all (fun p => p.2.done) && s.frags.all (fun f => decide (f.2.tag ≠ tag)) then s.mergeScan tag c else s

/-- The devices that hold ranges of a list, in its order. -/
def holdersOf (rs : List (Nat × Nat)) : List Nat := (rs.map fun r => r.1 / 2 ^ 48).eraseDups

/-- Fragments go out, one for each holding device; the local one begins here (R254). -/
def State.sendFrags (s : State) (tag : Nat) (c : Cmd) (q : List Byte) (rs : List (Nat × Nat)) : List Nat → State
  | [] => s
  | h :: hs =>
    let mine := rs.filter fun r => r.1 / 2 ^ 48 = h
    let s :=
      if decide (h / 1024 = s.sys) && s.mine (h % 1024) then
        (match s.fragRights c mine with
         | some st => s.localPart tag 0 0 0 st 0 [] []
         | none => (s.beginFrag tag c q mine).modCmd tag fun c => { c with objs := c.objs ++ s.fragObjs c mine })
      else
        let data := q ++ packRanges mine
        s.sendShare tag c 0x03 (h / 1024) (h % 1024) (h * 2 ^ 48) data.length q.length data false
    s.sendFrags tag c q rs hs

/-- PSCAN on its merge device (R118, R245, R254). -/
def State.startScan (s : State) (tag : Nat) (c : Cmd) : State :=
  let e := c.entry
  let rs := s.scanRanges c.fn e
  match firstOf (badIf rs.isEmpty :: rs.map (rangeCheck (scanStride e))) with
  | some st => s.finish tag (Res.err st)
  | none =>
    match s.scanQuery c with
    | .error st => s.finish tag (Res.err st)
    | .ok q =>
      let s := s.modCmd tag fun c => { c with stage := .running, started := true }
      (s.sendFrags tag c q rs (holdersOf rs)).scanJoin tag c

/-- A fragment that another device sent here (R254): the query stands in its data before the ranges. -/
def State.startPart (s : State) (tag : Nat) (c : Cmd) (n q : Nat) : State :=
  let rs := unpackRanges ((c.inData.take n).drop q)
  match s.fragRights c rs with
  | some st => s.finish tag { status := st, part := true }
  | none => (s.beginFrag tag c (c.inData.take q) rs).modCmd tag fun c =>
    { c with stage := .running, started := true, objs := c.objs ++ s.fragObjs c rs }

/-- PSCAN (R116 to R118, R245, R246, R250 to R255). -/
def execPscan (tag : Nat) (s : State) : Out :=
  s.serve tag 0x44 fun c s =>
    if c.stage = .running then (if c.part.isSome then s else s.scanJoin tag c)
    else s.pressed tag c (scanCheck c.entry) fun s =>
      match c.part with
      | some (_, n, q) => s.startPart tag c n q
      | none => s.startScan tag c

/-- SLICE_GRANT: the oldest fragment that waits takes a free slice (R246). -/
def execSliceGrant (frag : Nat) (s : State) : Out :=
  let f := s.frags.get frag
  let older := s.frags.any fun g => g.2.live && decide (g.2.order < f.order) && g.2.slice.isNone && !fmtFloat g.2.fmt
  if !f.live || f.slice.isSome || fmtFloat f.fmt || older then .next s
  else match s.freeSlice with
    | none => .next s
    | some i => .next (s.modFrag frag fun f => { f with slice := some i })

/-- The command of a fragment goes on once the fragment has ended. -/
def State.afterFrag (s : State) (frag tag : Nat) : State :=
  let c := s.cmd tag
  if (s.frags.get frag).live || c.part.isSome || !c.live || decide (c.stage ≠ .running) then s else s.scanJoin tag c

/-- PASS_COMPLETE: a fragment ends a pass over its segment, or stops early where its deadline passed (R248, R249, R252, R253). -/
def execPassComplete (frag : Nat) (s : State) : Out :=
  let f := s.frags.get frag
  let due := s.fragLate f &&
    s.anyPlane f (if f.pass = 0 then s.pinPages f (s.segment f f.segStart) else f.pinned)
  if !f.live then .next s
  else if fmtFloat f.fmt then .next ((s.runFloat frag).afterFrag frag f.tag)
  else if f.slice.isNone || !s.anyPress then .next s
  else if due then .next ((s.stopFrag frag).afterFrag frag f.tag)
  else .next ((s.runPass frag).afterFrag frag f.tag)

/-- PRS_SCRATCH_WRITE: the sizes change only while no fragment holds a slice, and only to a layout that holds (R258, R267). -/
def execPrsScratchWrite (src value : Nat) (s : State) : Out :=
  let s := s.fmInput src 8 value
  let m := clamp 16 256 (bits value 0 9)
  let k := clamp 8 64 (bits value 16 7)
  if s.sliceHeld || !s.layoutFits (s.fld Fld.libStageUrnMib) m then .next (s.logIgnored 0x100800 src value)
  else .next (((s.setFld Fld.prsScratchMib m).setFld Fld.prsScratchSlice k).setLayout)

end Sys2Proof.Machine
end

