-- ==== Sys2Proof/Machine/SeqOps.lean ====
section
/-! DEFINITION. Shared operations of sequence streams (spec/08): chunks and their pages (R216 to R218), shares of a token range, appends,
the end of a stream (R232, R233). -/

namespace Sys2Proof.Machine

/-! ### Chunks (R216 to R218) -/

/-- The key of a chunk record. -/
def chunkKey (home stream gen chunk : Nat) : Nat := ((home * 2 ^ 16 + stream) * 2 ^ 8 + gen) * 2 ^ 12 + chunk

/-- The map key of the first page of a chunk. -/
def chunkPage (key : Nat) : Nat := 2 ^ 40 + key * 2 ^ 16

/-- The page space of a stream's pages, by page number in the stream (R216, R217). -/
def seqSpace (home stream : Nat) (i : SInfo) : PageSpace :=
  { keyOf := fun n => chunkPage (chunkKey home stream i.gen (n / i.rsize)) + n % i.rsize,
    addrOf := fun n => i.gen * 2 ^ 56 + stream * 2 ^ 40 + n * pageSize,
    hintOf := fun _ => i.hint, encOf := fun _ => i.enc, slotOf := fun _ => i.key }

/-- What this device keeps of a stream. -/
def State.sinfoOf (s : State) (home stream : Nat) : SInfo := s.sinfo.get (home * 2 ^ 16 + stream)

/-- Runs for `n` sectors of map entries, at most 256 each. -/
def State.takeRuns (s : State) : Nat → Nat → Option (State × List Nat)
  | 0, _ => some (s, [])
  | fuel + 1, n =>
    if n = 0 then some (s, [])
    else
      let k := min n 256
      match s.pickRun k with
      | none => none
      | some b => ((s.takeRun b k).takeRuns fuel (n - k)).map fun x => (x.1, b :: x.2)

/-- The chunk's record exists, made now where it did not; none where no record or no sectors are free (R218). -/
def State.needChunk (s : State) (home stream chunk : Nat) (i : SInfo) : Option State :=
  let k := chunkKey home stream i.gen chunk
  if (s.chunks.get k).present then some s
  else if s.fld Fld.seqChunksFree = 0 then none
  else (s.takeRuns 17 (i.rsize / 16)).map fun x =>
    let s := x.1
    let s := { s with chunks := s.chunks.put k { present := true, home := home, stream := stream, gen := i.gen, chunk := chunk, rsize := i.rsize,
                                                 bases := x.2 } }
    s.setFld Fld.seqChunksFree (s.fld Fld.seqChunksFree - 1)

/-- A chunk record and its sectors are freed (R231, R232). -/
def State.freeChunk (s : State) (key : Nat) : State :=
  let r := s.chunks.get key
  if !r.present then s
  else
    let s := s.zeroPages (chunkPage key) r.rsize
    let s := r.bases.foldl State.freeRun s
    let s := { s with chunks := s.chunks.put key default }
    s.setFld Fld.seqChunksFree (s.fld Fld.seqChunksFree + 1)

/-- Pages held here that lie wholly beyond token `last` in the chunk that it falls in are freed (R225). -/
def State.zeroPast (s : State) (home stream gen last : Nat) : State :=
  let r := max 1 (s.sinfoOf home stream).rsize
  let p := ceilDiv (last * r) pageSize
  let k := chunkKey home stream gen (p / r)
  if (s.chunks.get k).present && decide (p % r ≠ 0) then s.zeroPages (chunkPage k + p % r) (r - p % r) else s

/-- The chunk records of a stream held here that `p` selects. -/
def State.chunksOf (s : State) (home stream gen : Nat) (p : Nat → Bool) : List Nat :=
  s.chunks.sel fun _ r => r.present && decide (r.home = home) && decide (r.stream = stream) && decide (r.gen = gen) && p r.chunk

/-! ### Shares of a token range -/

/-- The pieces of stream bytes `[o, o + n)` that lie in one chunk each: chunk, first byte, length, offset in the range. -/
def chunkShares (r : Nat) : Nat → Nat → Nat → Nat → List (Nat × Nat × Nat × Nat)
  | 0, _, _, _ => []
  | fuel + 1, o, n, at' =>
    if n = 0 then []
    else
      let k := min n (4096 * r - o % (4096 * r))
      (o / (4096 * r), o, k, at') :: chunkShares r fuel (o + k) (n - k) (at' + k)

/-- Stream bytes `[o, o + n)` of one chunk written here as far as the log has room: bytes written, and what ended it (R218, R224). -/
def State.appendShare (s : State) (home stream chunk o : Nat) (data : List Byte) : State × Nat × Option Status :=
  let i := s.sinfoOf home stream
  match s.needChunk home stream chunk i with
  | none => (s, 0, some .noSpace)
  | some s => s.writeRange (seqSpace home stream i) (s.pageRoom (pageCount o data.length)) o data

/-- Pages of stream bytes `[o, o + n)` that keeping `q` planes limits (R229). -/
def State.seqLimited (s : State) (ps : PageSpace) (q o n : Nat) : Bool :=
  (List.range (pageCount o n)).any fun k =>
    let p := o / pageSize + k
    let e := s.mapEntry (ps.keyOf p)
    decide (e.codec = 4) && e.mapped && !e.poison &&
      decide (q < planeWidth (Container.ofBytes (s.storedBytes e (ps.addrOf p))).param)

/-- Stream bytes `[o, o + n)` of one chunk read here; the flag tells whether a page was plane-limited (R227, R229). -/
def State.readChunk (s : State) (c : Cmd) (home stream o n : Nat) : State × List Byte × Option Status × Bool :=
  let ps := seqSpace home stream (s.sinfoOf home stream)
  let q := degPlanes (s.fld Fld.seqCtrlDegPlanes)
  let sw := s.switches c && s.seqLimited ps q o n
  let s := s.tookFree
  let (s, b, st) := s.readRange ps (if sw then q else 8) (pageCount o n) o n
  (s, b, st, sw)

/-! ### Appends -/

/-- A stream's append leaves its queue. -/
def State.leaveAppends (s : State) (i tag : Nat) : State :=
  { s with streams := s.streams.upd i fun r =>
    { r with ordered := r.ordered && decide (r.waiting.head? ≠ some tag), waiting := r.waiting.filter (· ≠ tag) } }

/-- A command on a stream that ends after its deadline is counted (R230). -/
def State.seqLate (s : State) (c : Cmd) : State := if s.lateNow c then s.bump Fld.seqStatLate else s

/-- Chunks and pages of a stream beyond its end are freed, here and on the other devices of its list (R225). -/
def State.freePast (s : State) (i tag : Nat) (c : Cmd) : State :=
  let r := s.streams.get i
  let s := ((s.chunksOf s.holdId i r.gen fun k => decide (r.last ≤ 4096 * k)).foldl State.freeChunk s).zeroPast s.holdId i r.gen r.last
  (r.stripe.filter fun d => !s.mine d).foldl (fun s d => s.sendTable tag c d 6 r.last) s

/-- An append commits its leading whole records, and its reply is due (R224, R225). -/
def State.commitAppend (s : State) (tag : Nat) (c : Cmd) (st : Status) : State :=
  let i := Addr.stream (Entry.object c.entry)
  let r := s.streams.get i
  let n := Entry.length c.entry
  let (m, _, e) := prefixOf (s.partsOf tag)
  let recs := m / r.rsize
  let st := e.getD (if recs * r.rsize < n ∧ st = .ok then .noSpace else st)
  let short := decide (recs * r.rsize < n)
  let s := { s with streams := s.streams.put i { r with last := c.first + recs } }
  let s := if short then (s.bump Fld.seqStatShort).freePast i tag c else s
  let s := ((s.leaveAppends i tag).dropParts tag).seqLate c
  let s := s.finish tag (Res.moved st (recs * r.rsize) n c.first)
  if short then s.dropAsks tag else s

/-! ### The end of a stream (R232, R233) -/

/-- Appends that wait and are not ordered end with ABORTED and MOVED 0 (R232). -/
def State.dropWaiting (s : State) (i : Nat) : State :=
  let r := s.streams.get i
  let gone := if r.ordered then r.waiting.drop 1 else r.waiting
  let s := gone.foldl (fun s t => s.finish t (Res.moved .aborted 0 (Entry.length (s.cmd t).entry))) s
  { s with streams := s.streams.put i { r with waiting := if r.ordered then r.waiting.take 1 else [] } }

/-- A stream's descriptor goes back to free, its generation kept; its lease entry and grants go with it. -/
def State.freeStream (s : State) (i : Nat) : State :=
  let r := s.streams.get i
  let s := (s.chunksOf s.holdId i r.gen fun _ => true).foldl State.freeChunk s
  let s := { s with streams := s.streams.put i { gen := r.gen } }
  let s := s.setFld Fld.seqStreamsOpen (s.fld Fld.seqStreamsOpen - 1)
  s.dropLease r.opener ⟨s.holdId, Addr.seq s.sys s.holdId i r.gen 0⟩

/-- The other devices of a stream's list are told to free its chunks below a token. -/
def State.tellChunks (s : State) (tag : Nat) (c : Cmd) (i below : Nat) : State :=
  ((s.streams.get i).stripe.filter fun d => !s.mine d).foldl (fun s d => s.sendTable tag c d 5 below) s

/-- The lowest stream index that is free. -/
def State.freeStreamIdx (s : State) : Option Nat := SMap.lowest (fun r => decide (r.state = .free)) s.streams 0 65536

end Sys2Proof.Machine
end

