-- ==== Sys2Proof/Machine/Sequence.lean ====
section
/-! DEFINITION. The meanings of the stream commands (spec/08), and the start of a reclaim (R145, R233). -/

namespace Sys2Proof.Machine

/-! ### SOPEN (R115, R221, R222) -/

/-- The field checks of SOPEN that need no table and no list (R115, R222). -/
def sopenFields (e : Nat) : Option Status :=
  let r := Entry.spec e 40 4
  if decide (Entry.object e % 2 ^ 48 ≠ 0) || decide (r < 64) || decide (65536 < r) || decide (r % 64 ≠ 0) || decide (3600 < Entry.spec e 44 4) ||
      decide (8 < Entry.spec e 48 1) || (!bit (Entry.spec e 50 2) 15 && decide (Entry.specBits e 50 0 10 ≠ 0)) then some .badField
  else none

/-- The checks of SOPEN on a listed device (R221 step 2), and what it then keeps of the stream. -/
def State.sopenHere (s : State) (w : Who) (e home idx gen : Nat) : Except Status State :=
  let enc := bit (Entry.spec e 50 2) 15
  if !s.owners.any fun x => x.2 = some w then .error .outOfPartition
  else if enc && !s.keyHeld w (Entry.specBits e 50 0 10) then .error .notOwner
  else
    let i : SInfo := { gen := gen, rsize := Entry.spec e 40 4, hint := Entry.spec e 48 1, key := Entry.specBits e 50 0 10, enc := enc }
    .ok { s with sinfo := s.sinfo.put (home * 2 ^ 16 + idx) i }

/-- SOPEN succeeds: the descriptor, the lease and the reply (R221 steps 3 and 4). -/
def State.openStream (s : State) (tag : Nat) (c : Cmd) (i : Nat) (l : List Nat) : State :=
  let e := c.entry
  let r := s.streams.get i
  let ms := s.leaseOf c.caller (Entry.spec e 44 4) * 1000
  let x : Stream := { state := .opened, gen := r.gen, rsize := Entry.spec e 40 4, hint := Entry.spec e 48 1, key := Entry.specBits e 50 0 10,
                      enc := bit (Entry.spec e 50 2) 15, opener := c.caller, leaseMs := ms, expiry := c.since / 1000 + ms, stripe := l }
  let s := { s with streams := s.streams.put i x }
  let s := s.setFld Fld.seqStreamsOpen (s.fld Fld.seqStreamsOpen + 1)
  let a := Addr.seq s.sys s.holdId i r.gen 0
  (s.addLease c.caller ⟨s.holdId, a⟩).finish tag { r0 := a }

/-- SOPEN on the stream home device. -/
def State.sopenAt (s : State) (tag : Nat) (c : Cmd) : State :=
  let e := c.entry
  let (l, clean) := s.stripeList c s.holdId
  let far := l.filter fun d => !s.mine d
  if c.stage = .running then
    if !s.asksDone tag then s
    else
      let i := c.first
      match s.askError tag with
      | some st => (({ s with streams := s.streams.upd i fun r => { gen := r.gen } }).dropAsks tag).finish tag (Res.err st)
      | none => (s.dropAsks tag).openStream tag c i l
  else if !clean then s.finish tag (Res.err .badField)
  else if !stripeOk (if Entry.length e = 0 then 2 else Entry.length e) l then s.finish tag (Res.err .badField)
  else if !s.leaseRoom c.caller then s.finish tag (Res.err .noSpace)
  else match s.freeStreamIdx with
    | none => s.finish tag (Res.err .noSpace)
    | some i =>
      let gen := ((s.streams.get i).gen + 1) % 256
      let s := { s with streams := s.streams.put i { gen := gen } }
      if far.any fun d => !s.reach s.sys d then s.finish tag (Res.err .linkUnreachable)
      else
        let own := if l.any s.mine then s.sopenHere c.caller e s.holdId i gen else .ok s
        match own with
        | .error st => s.finish tag (Res.err st)
        | .ok s =>
          if far.isEmpty then s.openStream tag c i l
          else
            let s := { s with streams := s.streams.put i { gen := gen, state := .closing } }
            (far.foldl (fun s d => s.sendTable tag c d 0 (i + gen * 2 ^ 16)) s).modCmd tag fun c =>
              { c with stage := .running, started := true, first := i }

/-- SOPEN (R115, R221, R222). -/
def execSopen (tag : Nat) (s : State) : Out :=
  s.serve tag 0x30 fun c s =>
    let a := Entry.object c.entry
    match sopenFields c.entry with
    | some st => s.finish tag (Res.err st)
    | none =>
      if s.isHere a then s.sopenAt tag c
      else if c.origin.isNone && !s.leaseRoom c.caller then s.finish tag (Res.err .noSpace)
      else s.forward tag c (Addr.sys a) (Addr.dev a)

/-! ### SAPPEND (R223 to R226) -/

/-- SAPPEND is checked and joins its stream's appends; one share of an ordered append is written here, as far as the log has room
(R219, R223). -/
def execSappend (tag : Nat) (s : State) : Out :=
  s.serve tag 0x31 fun c s =>
    let a := Entry.object c.entry
    let i := Addr.stream a
    match c.part with
    | some (obj, n, _) =>
      let r := (s.sinfoOf (Addr.dev a) i).rsize
      let o := Addr.token obj * r + c.moved
      let (s, m, st) := s.appendShare (Addr.dev a) i (Addr.token obj / 4096) o ((c.inData.take n).drop c.moved)
      let done := c.moved + m
      if st.isNone && decide (done < n) then
        s.countStall.modCmd tag fun c => { c with stage := .running, started := true, moved := done }
      else s.endShare tag c (st.getD .ok) done n [] []
    | none =>
      if !s.isHere a then
        match rangeRules c.entry with
        | some st => s.finish tag (Res.err st)
        | none => s.forward tag c (Addr.sys a) (Addr.dev a)
      else match s.dataChecks c with
        | some st => (s.leaveAppends i tag).finish tag (Res.err st)
        | none => s.modCmd tag fun c => { c with stage := .running }

/-- The shares of an ordered append go to their devices; those of this device wait for its turn to write. -/
def State.planAppend (s : State) (tag : Nat) (c : Cmd) (i : Nat) : List (Nat × Nat × Nat × Nat) → State
  | [] => s
  | (ch, o, n, at') :: rest =>
    let r := s.streams.get i
    let d := r.stripe.getD (ch % max 1 r.stripe.length) 0
    let obj := Entry.object c.entry / 2 ^ 24 * 2 ^ 24 + o / r.rsize
    let data := s.source c (Entry.hostBuf c.entry + at') n
    let s :=
      if !s.mine d then s.sendWork tag c d obj n at' data
      else (s.addPart { cmd := tag, sys := s.sys, dev := s.dev, obj := obj, len := n, off := at', data := data }).1
    s.planAppend tag c i rest

/-- The shares of this device are written in order, as far as the log has room. -/
def State.runAppend (s : State) (i : Nat) : List (Nat × Part) → State
  | [] => s
  | (k, p) :: ps =>
    if p.done || decide (p.dev ≠ s.dev) then s.runAppend i ps
    else
      let r := (s.streams.get i).rsize
      let t := Addr.token p.obj
      let (s, m, st) := s.appendShare s.holdId i (t / 4096) (t * r + p.moved) (p.data.drop p.moved)
      let moved := p.moved + m
      let done := st.isSome || decide (moved = p.len)
      let s := { s with parts := s.parts.put k { p with moved := moved, done := done, status := st.getD .ok } }
      if done then s.runAppend i ps else s.countStall

/-- APPEND_ORDERED: every earlier append of the stream has committed or ended; the append takes its first token and writes (R223). -/
def execAppendOrdered (tag : Nat) (s : State) : Out :=
  let c := s.cmd tag
  let i := Addr.stream (Entry.object c.entry)
  let r := s.streams.get i
  if !c.live || decide (Entry.op c.entry ≠ 0x31) || decide (c.stage ≠ .running) || decide (r.waiting.head? ≠ some tag) || c.part.isSome then .next s
  else if r.ordered then .next (s.runAppend i (s.partsOf tag))
  else if s.abandoned c then .next ((s.leaveAppends i tag).finish tag (Res.err .deadlineMissed))
  else if bit (Entry.spec c.entry 40 1) 0 ∧ Addr.token (Entry.object c.entry) ≠ r.last then
    .next (((s.leaveAppends i tag).bump Fld.seqStatExactFail).finish tag (Res.moved .badField 0 (Entry.length c.entry)))
  else
    let n := min (Entry.length c.entry / r.rsize) (2 ^ 24 - r.last) * r.rsize
    let c := { c with first := r.last, started := true }
    let s := { s with streams := s.streams.put i { r with ordered := true }, cmds := s.cmds.put tag c }
    let s := s.planAppend tag c i (chunkShares r.rsize (Entry.length c.entry / (4096 * r.rsize) + 2) (r.last * r.rsize) n 0)
    .next (s.runAppend i (s.partsOf tag))

/-- APPEND_COMMIT: every record of an ordered append is durable, or the append ends early (R224, R225). -/
def execAppendCommit (tag : Nat) (s : State) : Out :=
  let c := s.cmd tag
  let r := s.streams.get (Addr.stream (Entry.object c.entry))
  if !c.live || decide (Entry.op c.entry ≠ 0x31) || decide (c.stage ≠ .running) || decide (r.waiting.head? ≠ some tag) || !r.ordered ||
      !s.partsDone tag then .next s
  else .next (s.commitAppend tag c .ok)

/-! ### SREAD, STRIM (R227, R229 to R231) -/

/-- The shares of an SREAD are read here or asked of their devices. -/
def State.planSread (s : State) (tag : Nat) (c : Cmd) (i : Nat) : List (Nat × Nat × Nat × Nat) → State
  | [] => s
  | (ch, o, n, at') :: rest =>
    let r := s.streams.get i
    let d := r.stripe.getD (ch % max 1 r.stripe.length) 0
    let obj := Entry.object c.entry / 2 ^ 24 * 2 ^ 24 + o / r.rsize
    let s :=
      if !s.mine d then s.sendWork tag c d obj n at' []
      else
        let (s, b, st, lim) := s.readChunk c s.holdId i o n
        s.localPart tag obj n at' (st.getD .ok) b.length b (degRecord (if lim then 2 else 0) 0)
    s.planSread tag c i rest

/-- SREAD ends with the prefix of its shares. -/
def State.joinSread (s : State) (tag : Nat) (c : Cmd) : State :=
  let ps := s.partsOf tag
  let (m, data, st) := prefixOf ps
  let lim := !(partRecs ps).isEmpty
  let s := if lim then s.bump Fld.seqStatDegraded else s
  let s := (s.deliver c (Entry.hostBuf c.entry) data).seqLate c
  (s.dropParts tag).finish tag (Res.moved (st.getD (if lim then .okPartial else .ok)) m (Entry.length c.entry))

/-- SREAD (R227, R229, R230). -/
def execSread (tag : Nat) (s : State) : Out :=
  s.serve tag 0x32 fun c s =>
    let a := Entry.object c.entry
    let i := Addr.stream a
    match c.part with
    | some (obj, n, _) =>
      let (s, b, st, lim) := s.readChunk c (Addr.dev a) i (Addr.token obj * (s.sinfoOf (Addr.dev a) i).rsize) n
      s.endShare tag c (st.getD .ok) b.length n b (degRecord (if lim then 2 else 0) 0)
    | none =>
      match (if s.isHere a then s.dataChecks c else rangeRules c.entry) with
      | some st => s.finish tag (Res.err st)
      | none =>
        if !s.isHere a then s.forward tag c (Addr.sys a) (Addr.dev a)
        else
          let r := (s.streams.get i).rsize
          let s := if c.stage = .running then s
            else s.planSread tag c i (chunkShares r (Entry.length c.entry / (4096 * r) + 2) (Addr.token a * r) (Entry.length c.entry) 0)
          let s := s.modCmd tag fun c => { c with stage := .running, started := true }
          if s.partsDone tag then s.joinSread tag c else s

/-- An SREAD of the stream accepted before has not ended. -/
def State.readsBefore (s : State) (c : Cmd) : Bool :=
  s.cmds.any fun e => e.2.live && decide (Entry.op e.2.entry = 0x32) && decide (e.2.stage ≠ .done) && decide (e.2.order < c.order) &&
    e.2.objs.any fun o => c.objs.contains o

/-- STRIM (R231). The first token moved at acceptance; the other devices of the list are told once the SREADs accepted before have
ended. -/
def execStrim (tag : Nat) (s : State) : Out :=
  s.serve tag 0x33 fun c s =>
    let a := Entry.object c.entry
    let i := Addr.stream a
    if !s.isHere a then s.forward tag c (Addr.sys a) (Addr.dev a)
    else match c.refuse with
      | some st => s.finish tag (Res.err st)
      | none =>
        let far := (s.streams.get i).stripe.any fun d => !s.mine d
        if far && decide (c.moved ≠ 0) && s.readsBefore c then s.modCmd tag fun c => { c with stage := .running }
        else
          let s := if far && decide (c.moved ≠ 0) then (s.tellChunks tag c i (Addr.token a)).dropAsks tag else s
          s.finish tag { r0 := c.moved }

/-- A share of a read from the chunk is in hand here, or a read of the stream homed here touches it. -/
def State.chunkRead (s : State) (home stream chunk : Nat) : Bool :=
  s.cmds.any fun e => e.2.live && decide (Entry.op e.2.entry = 0x32) && decide (e.2.stage ≠ .done) &&
    decide (Addr.dev (Entry.object e.2.entry) = home) && decide (Addr.stream (Entry.object e.2.entry) = stream) &&
    decide (e.2.refuse = none) &&
    (match e.2.part with
     | some (obj, _, _) => decide (Addr.token obj / 4096 = chunk)
     | none =>
       let r := max 1 (s.sinfoOf home stream).rsize
       rangesMeet (Addr.token (Entry.object e.2.entry)) (Entry.length e.2.entry / r) (4096 * chunk) 4096)

/-- CHUNK_FREE: every token of a chunk lies below the stream's first token, and no read of it is left: record and sectors are freed
(R231). -/
def execChunkFree (home stream gen chunk : Nat) (s : State) : Out :=
  let k := chunkKey home stream gen chunk
  let r := s.streams.get stream
  let below := if home = s.holdId then decide (r.state ≠ .free) && decide (r.gen = gen) && decide (4096 * (chunk + 1) ≤ r.first)
    else (s.chunks.get k).doomed
  if below && !s.chunkRead home stream chunk then .next (s.freeChunk k) else .next s

/-! ### SCLOSE and reclaim (R232, R233, R145) -/

/-- SCLOSE (R232): the stream entered CLOSING as the command was accepted. -/
def execSclose (tag : Nat) (s : State) : Out :=
  s.serve tag 0x34 fun c s =>
    let a := Entry.object c.entry
    let i := Addr.stream a
    if !s.isHere a then s.forward tag c (Addr.sys a) (Addr.dev a)
    else match c.refuse with
      | some st =>
        let r := s.streams.get i
        let s := s.countFree c.caller st
        let s := if st = .notOwner then s.logForeign 1 c.caller.fn r.opener a else s
        s.finish tag (Res.err st)
      | none =>
        if c.abort then (if s.asksDone tag then ((s.freeStream i).dropAsks tag).finish tag {} else s)
        else
          let s := s.dropWaiting i
          if s.objBusy (.stream s.dev i (Addr.gen a)) tag then s.modCmd tag fun c => { c with stage := .running }
          else
            let far := (s.streams.get i).stripe.any fun d => !s.mine d
            if far then (s.tellChunks tag c i (2 ^ 24)).modCmd tag fun c => { c with stage := .running, started := true, abort := true }
            else (s.freeStream i).finish tag {}

/-- ZERO_FILL_START: the drain of an ORPHANED or RELEASING extent is over and its zero-fill begins, under the reclaim blend; an ORPHANED
stream ends as a close without a reply (R15, R145, R233). -/
def execZeroFillStart (stream : Bool) (key : Nat) (s : State) : Out :=
  if stream then
    let r := s.streams.get key
    if r.state = .orphaned ∧ s.objBusy (.stream s.dev key r.gen) 0 = false then
      let a := Addr.seq s.sys s.holdId key r.gen 0
      let c : Cmd := { entry := 0x34 + a * 2 ^ 128, caller := r.opener }
      let s := ((s.dropWaiting key).tellChunks 0 c key (2 ^ 24)).dropAsks 0
      let s := s.freeStream key
      .next (s.log 0x0305 1 r.opener.fn (r.opener.dev + a * 2 ^ 64))
    else .next s
  else
    let e := s.extents.get key
    if (e.state = .orphaned ∨ e.state = .releasing) ∧ e.filling = false ∧ s.objBusy (.extent s.dev key) 0 = false then
      let (s, _) := s.chargeWork deviceAccount (s.fld Fld.poolCtrlReclaimBlend) (e.len * mib2)
      .next { s with extents := s.extents.put key { e with filling := true } }
    else .next s

end Sys2Proof.Machine
end

