-- ==== Sys2Proof/Machine/Urn.lean ====
section
/-! DEFINITION. The meanings of the Urn commands and events (spec/04 UALLOC and UFREE, spec/10). -/

namespace Sys2Proof.Machine

/-- UALLOC: the lowest free run, the lowest index, zero bytes (R107, R274, R275). -/
def execUalloc (tag : Nat) (s : State) : Out :=
  s.serve tag 0x06 fun c s =>
    let n := Entry.length c.entry
    if n % 4096 ≠ 0 ∨ n = 0 ∨ 2 ^ 26 < n then s.finish tag (Res.err .badField)
    else
      let k := n / 4096
      let quota := 256 * min 512 (s.fld Fld.urnFnQuotaMib c.fn)
      if quota < s.fld Fld.urnFnUsePages c.fn + k then s.finish tag (Res.err .noSpace)
      else match s.firstFit k, s.freeBuf with
        | some p, some i =>
          let g := (s.bufs.get i).gen
          let s := { s with bufs := s.bufs.put i { held := true, named := true, gen := g, owner := c.fn, page := p, pages := k } }
          let s := s.urnZero (4096 * p) n
          let s := { s with urnPoison := s.urnPoison.drop fun w _ => decide (64 * p ≤ w) && decide (w < 64 * (p + k)) }
          (s.countBufs c.fn).finish tag { r0 := bufHandle i g, r1 := 4096 * p }
        | _, _ => s.finish tag (Res.err .noSpace)

/-- A window in force covers a byte of the buffer (R278). -/
def State.windowUses (s : State) (b : Buf) : Bool :=
  (List.range 64).any fun w =>
    s.flag Fld.urnWinCtrlEnable w && rangesMeet (64 * s.fld Fld.urnWinBaseBase w) (s.winSize w) (4096 * b.page) (4096 * b.pages)

/-- Capture or replay runs on the buffer (R278). -/
def State.twbUses (s : State) (b : Buf) : Bool :=
  s.flag Fld.twbCtrlGo && rangesMeet (16 * s.fld Fld.twbBaseBase) 1 (4096 * b.page) (4096 * b.pages)

/-- A buffer is in use: by a command in flight, a run, a window, or trace capture or replay (R108, R278). -/
def State.bufBusy (s : State) (i t : Nat) : Bool :=
  let b := s.bufs.get i
  s.objBusy (.buffer i) t || s.dmaUses i || s.windowUses b || s.twbUses b

/-- A buffer's handle is freed; the buffer too, where nothing uses it (R274, R278). -/
def State.freeHandle (s : State) (i t : Nat) : State :=
  let s := { s with bufs := s.bufs.upd i fun b => { b with named := false, gen := (b.gen + 1) % 256 } }
  if s.bufBusy i t then s else s.dropBuf i

/-- UFREE (R108, R276 to R278). -/
def execUfree (tag : Nat) (s : State) : Out :=
  s.serve tag 0x07 fun c s =>
    let h := Entry.object c.entry
    match s.bufOf c.fn h with
    | .ok i => (s.freeHandle i tag).finish tag {}
    | .error st =>
      let s := match st with
        | .alreadyFree => s.bump Fld.urnFnStatDouble 1 c.fn
        | .notOwner => (s.bump Fld.urnFnStatForeign 1 c.fn).logForeign 2 c.fn ⟨s.dev, (s.bufs.get (h % 2 ^ 16)).owner⟩ h
        | .tenantReset => s.bump Fld.urnFnStatStale 1 c.fn
        | _ => s
      s.finish tag (Res.err st)

/-- BUFFER_DEFERRED_FREE: the last use of a buffer whose handle is free has ended (R278). -/
def execBufferDeferredFree (idx : Nat) (s : State) : Out :=
  let b := s.bufs.get idx
  if b.held && !b.named && !s.bufBusy idx 0 then .next (s.dropBuf idx) else .next s

/-- The page map enters DIRECT: every record of the log is applied to the DRAM copy first (R20, R178). -/
def State.enterDirect (s : State) : State :=
  let s := s.mapLog.foldl (fun (s : State) (r : LogRec) => s.putEntry r.page r.entry) { s with mapLog := [] }
  (s.setFld Fld.grdLogFill 0).setSeam 1 true

/-- The staged copy in the Urn tier that holds byte `off` is dropped (R279). -/
def State.dropStagedAt (s : State) (off : Nat) : State :=
  let hit := s.staged.filter fun e => decide (e.1 % 2 = 1) && e.2.present && rangesMeet off 1 (s.urnSlot e.2.slot) 65536
  let s := { s with staged := s.staged.drop fun k x => decide (k % 2 = 1) && x.present && rangesMeet off 1 (s.urnSlot x.slot) 65536 }
  s.setFld (tierFill 1) (s.fld (tierFill 1) - hit.length)

/-- The buffer that holds byte `off` is marked POISONED (R280). -/
def State.poisonBufAt (s : State) (off : Nat) : State :=
  match s.bufs.find? fun e => e.2.held && decide (4096 * e.2.page ≤ off) && decide (off < 4096 * (e.2.page + e.2.pages)) with
  | none => s
  | some (i, b) => ({ s with bufs := s.bufs.put i { b with poisoned := true } }).countBufs b.owner

/-- URN_SCRUB_PATROL: the word at `off` is read; bit i of `errs` says that lane i was corrected, bit 8 + i that it could not be (R279, R280).
The master that a patrol reads as is not stated: a free value. -/
def execUrnScrubPatrol (off errs : Nat) (s : State) : Out :=
  let o := off % 2 ^ 29 / 64 * 64
  let fixed := ((List.range 8).filter fun i => bit errs i).length
  let s := s.bump Fld.urnEccCorrected fixed
  if bits errs 8 8 = 0 then .next s
  else
    let s := (s.bump Fld.urnEccUncorr).log 0x0403 14 (s.free % 256) o
    let s := s.tookFree
    let stage := s.fld Fld.urnLayoutStageBase * 2 ^ 20
    let scratch := s.fld Fld.urnLayoutScratchBase * 2 ^ 20
    let area := s.fld Fld.urnLayoutBufBase * 2 ^ 20
    if 0x00800000 ≤ o ∧ o < 0x02800000 then .next s.enterDirect
    else if stage ≤ o then .next ((s.urnZero o 64).dropStagedAt o)
    else if area ≤ o ∧ o < scratch then .next ((s.urnZero o 64).poisonBufAt o)
    else .next { s with urnPoison := s.urnPoison.put (o / 64) true }

/-- URN_WIN_CTRL_WRITE: the fabric manager programs window `w` (R273). -/
def execUrnWinCtrlWrite (w value : Nat) (s : State) : Out :=
  let s := s.fmInput 0 8 value
  if 64 ≤ w then .next s
  else
    let s := (s.setFld Fld.urnWinCtrlOwner (bits value 8 8) w).setFld Fld.urnWinCtrlFm (bits value 16 1) w
    .next (s.setFld Fld.urnWinCtrlEnable (value % 2) w)

end Sys2Proof.Machine
end

