-- ==== Sys2Proof/Machine/Ending.lean ====
section
/-! DEFINITION. How work ends before its time: ABORT (R109), an SQ delete with ABORT (R70), a cancel from another device (R413), a host fault
(R91), a hung unit (R11), a function reset (R385). -/

namespace Sys2Proof.Machine

/-- The channel whose run answers a command. -/
def State.chanFor (s : State) (tag : Nat) : Option Nat := (s.chans.find? fun e => decide (e.2.tag = some tag)).map (·.1)

/-- Bytes that a command, or its share, asks for. -/
def Cmd.asked (c : Cmd) : Nat :=
  match c.part with
  | some (_, n, _) => n
  | none => Entry.length c.entry

/-- A DSTART ends: its run stops at the element boundary it stands at, with STOPPED or, where a unit hung, with INTERNAL (R321, R11). -/
def State.endStart (s : State) (tag : Nat) (st : Status) : State :=
  match s.chanFor tag with
  | some ch => if st = .internal then s.raise ch { fault := 0, cause := 0 } else s.haltNow ch
  | none => s.finish tag { status := st, r1 := if st = .aborted then 5 else 0, part := true }

/-- An SAPPEND ends: an ordered append commits its prefix, one that waits leaves its stream's appends (R226). -/
def State.endAppend (s : State) (tag : Nat) (c : Cmd) (st : Status) : State :=
  let i := Addr.stream (Entry.object c.entry)
  let r := s.streams.get i
  if r.waiting.head? = some tag ∧ r.ordered = true then s.commitAppend tag c st
  else ((s.leaveAppends i tag).dropParts tag).finish tag (Res.moved st 0 (Entry.length c.entry))

/-- An LLOAD ends on its planning device: the units stored in order count, and the new length goes to every listed device (R198). -/
def State.endLoadEarly (s : State) (tag : Nat) (c : Cmd) (st : Status) : State :=
  if c.objs = [] ∨ c.refuse.isSome = true ∨ (rowSix c.entry).isSome = true ∨ (rangeRules c.entry).isSome = true then
    s.finish tag (Res.moved st 0 (Entry.length c.entry))
  else if c.stage = .running ∧ c.moved = 0 then
    let vol := Addr.vol (Entry.object c.entry)
    let m := (prefixOf (s.partsOf tag)).1
    let len := Addr.libOff (Entry.object c.entry) + m
    let s := s.setLength vol len false
    let s := s.sendTables tag c 2 len (s.otherDevs (s.volumes.get vol))
    s.endLoad tag c st m
  else s.endLoad tag c st c.moved

/-- A read of several shares ends: the prefix that came whole goes to its reader (R101). -/
def State.endRead (s : State) (tag : Nat) (c : Cmd) (st : Status) : State :=
  let (m, data, _) := prefixOf (s.partsOf tag)
  let s := s.deliver c (Entry.hostBuf c.entry) data
  (s.dropParts tag).finish tag (Res.moved st m (Entry.length c.entry))

/-- A command's work ends here and now with that status, at the element boundary it stands at; work that other devices hold for it is
cancelled. -/
def State.endNow (s : State) (tag : Nat) (st : Status) : State :=
  let c := s.cmd tag
  let op := Entry.op c.entry
  if !c.live || decide (c.stage = .done) then s
  else
    let s := s.cancelParts c (s.partsOf tag)
    if op = 0x62 then s.endStart tag st
    else if op = 0x44 then ((s.dropParts tag).dropFrags tag).finish tag { status := st, part := true }
    else if op = 0x31 ∧ c.part.isNone = true ∧ s.isHere (Entry.object c.entry) = true then s.endAppend tag c st
    else if op = 0x22 ∧ c.part.isNone = true then s.endLoadEarly tag c st
    else if (op = 0x20 ∨ op = 0x32) ∧ c.part.isNone = true ∧ (s.partsOf tag).any (fun p => p.2.whole) = false then s.endRead tag c st
    else
      let m := if c.part.isNone ∧ !(s.partsOf tag).isEmpty then (prefixOf (s.partsOf tag)).1 else c.moved
      let s := (s.dropParts tag).dropAsks tag
      s.finish tag (if opMoves op then Res.moved st m c.asked else Res.err st)

/-- Work of the command lies with other devices and has not been answered. -/
def State.awaits (s : State) (tag : Nat) : Bool :=
  (s.partsOf tag).any fun p => !p.2.done && (decide (p.2.dev ≠ s.dev) || decide (p.2.sys ≠ s.sys))

/-- A command's work is to end at its next element boundary: at once where it lies here; where other devices hold some of it they are sent
CANCEL, and the command ends once each has answered (R109, R413). -/
def State.endCommand (s : State) (tag : Nat) (st : Status) : State :=
  let c := s.cmd tag
  if s.awaits tag then
    (s.modCmd tag fun c => { c with abort := true, reply := { c.reply with status := st } }).cancelParts c (s.partsOf tag)
  else s.endNow tag st

/-- A command that waits for its cancels ends once every one of them has been answered. -/
def State.settleEnd (s : State) (tag : Nat) : State :=
  let c := s.cmd tag
  if c.live && c.abort && decide (c.stage ≠ .done) && !s.awaits tag then s.endNow tag c.reply.status else s

/-- The command has an element boundary at which it can end: it has not begun, or it moves data or waits for a run, an extent or room. A STRIM or
SCLOSE takes effect as it is accepted, and a table change that has begun runs to its end (DEDUCED, log entry 30). -/
def State.abortable (s : State) (tag : Nat) : Bool :=
  let c := s.cmd tag
  let op := Entry.op c.entry
  c.live && decide (c.stage ≠ .done) && decide (op ∉ [0x33, 0x34]) &&
    (decide (c.stage = .accepted) || opMoves op || decide (op = 0x10) || (s.partsOf tag).any fun p => p.2.whole)

/-- Every command of a list ends as ABORT would end it. -/
def State.abortAll (s : State) : List Nat → State
  | [] => s
  | t :: ts => (if s.abortable t then s.endCommand t .aborted else s).abortAll ts

/-- Commands in flight that a queue or function accepted here. -/
def State.liveCmds (s : State) (p : Cmd → Bool) : List Nat := s.cmds.sel fun _ c => c.live && c.origin.isNone && p c

/-! ### HOST_FAULT (R91) -/

/-- The bus-error cause of a host fault (R312): UR 1, CA 2, timeout 3. -/
def hostCause (kind : Nat) : Nat := min kind 2 + 1

/-- HOST_FAULT: a host memory request of a command ended with UR (0), CA (1) or timeout (2) (R91). The fault of a reply's own
write is logged and the reply is lost (R67); a run's is a bus error (R312). -/
def execHostFault (tag kind addr : Nat) (s : State) : Out :=
  let c := s.cmd tag
  if !c.live then .next s
  else
    let s := s.log 0x0205 1 c.fn (kind % 2 ^ 8 + (addr % 2 ^ 64) * 2 ^ 64)
    if c.stage = .done then .next { s with cmds := s.cmds.put tag default }
    else match s.chanFor tag with
      | some ch => .next (s.raise ch { fault := 1, cause := hostCause kind, space := 2, addr := addr % 2 ^ 64 })
      | none => .next (s.endCommand tag .aborted)

end Sys2Proof.Machine
end

