-- ==== Sys2Proof/Machine/Admin.lean ====
section
/-! DEFINITION. The meanings of the admin commands (spec/04 group 0x0_, spec/03 R66 to R71) and of the blend queries (group 0x7_). -/

namespace Sys2Proof.Machine

/-- A command that only an admin SQ may carry: on any other SQ it is refused with BAD_FIELD (R104). -/
def State.adminOnly (s : State) (t op : Nat) (work : Cmd → State → State) : Out :=
  s.serve t op fun c s => if (s.sqs.get c.sq).loc ≠ 0 then s.finish t (Res.err .badField) else work c s

/-! ### IDENTIFY (R106) -/

/-- Baristas 0 to 14 in service, as a mask. -/
def State.baristaMask (s : State) : Nat := (List.range 15).foldl (fun m b => if s.unitIn 5 b then m + 2 ^ b else m) 0

/-- Version of the firmware that runs. -/
def State.fwVersion (s : State) : Nat :=
  if s.flag Fld.pwrFwStatActive then s.fld Fld.pwrFwVerBVersion else s.fld Fld.pwrFwVerAVersion

/-- Bytes of flash in the channels that answered at start-up: 64 KiB to a frame (DEDUCED, log entry 31). -/
def State.rawFlash (s : State) : Nat :=
  65536 * s.chFrames * ((List.range 32).filter fun ch => !s.flag Fld.libChStateAbsent ch).length

/-- The device structure. -/
def State.identDevice (s : State) : List Byte :=
  leBytes 2 0x4B59 ++ leBytes 1 (s.fld Fld.glbIdStep) ++ leBytes 1 (s.fld Fld.glbClkSpeed) ++ leBytes 2 s.dev ++ leBytes 1 s.sys ++
    zeroBytes 1 ++ leBytes 8 s.fwVersion ++ leBytes 8 (s.dramGib * 2 ^ 30) ++ leBytes 8 s.rawFlash ++
    leBytes 8 (s.fld Fld.poolLogicalGib * 2 ^ 30) ++ leBytes 2 s.baristaMask

/-- The function structure. -/
def State.identFn (s : State) (f : Nat) : List Byte :=
  leBytes 2 f ++ leBytes 1 (b2n (s.admittedNow f) + 2 * b2n (s.isPriv f)) ++ leBytes 1 (((s.fn f).domain).getD 0x80) ++ zeroBytes 4 ++
    leBytes 8 (s.blendsOf f) ++ leBytes 2 (min 256 (s.fld Fld.cmdFnQuotaSq f)) ++ leBytes 2 (min 256 (s.fld Fld.cmdFnQuotaCq f)) ++
    leBytes 2 (min 1024 (s.fld Fld.pourTrigQuotaQuota)) ++ zeroBytes 2 ++ leBytes 4 (s.partitions.get f).length

/-- The partition list from entry `first` on. -/
def State.identList (s : State) (f first : Nat) : List Byte :=
  let rs := if s.admittedNow f then ((s.partitions.get f).drop first).take 255 else []
  leBytes 4 rs.length ++ zeroBytes 12 ++
    rs.flatMap fun r => leBytes 8 (Addr.pool s.sys r.dev (r.start * gib)) ++ leBytes 8 (r.len * gib)

/-- IDENTIFY (R106). -/
def execIdentify (tag : Nat) (s : State) : Out :=
  s.serve tag 0x00 fun c s =>
    let cns := Entry.spec c.entry 40 1
    if 2 < cns then s.finish tag (Res.err .badField)
    else
      let bs := match cns with
        | 0 => s.identDevice
        | 1 => s.identFn c.fn
        | _ => s.identList c.fn (Entry.spec c.entry 44 4)
      (s.hostWrite c.fn (Entry.hostBuf c.entry) (bs ++ zeroBytes (4096 - bs.length))).finish tag { r0 := 4096 }

/-! ### Queues (R68 to R71) -/

/-- The lowest free global id of an SQ, from 256 to 1023. -/
def State.freeSq (s : State) : Option Nat := SMap.lowest (fun q => decide (q.state = .free)) s.sqs 256 768

/-- The lowest free global id of a CQ, from 256 to 1023. -/
def State.freeCq (s : State) : Option Nat := SMap.lowest (fun q => decide (q.state = .free)) s.cqs 256 768

/-- SQ_CREATE (R68, R69, R77). -/
def execSqCreate (tag : Nat) (s : State) : Out :=
  s.adminOnly tag 0x01 fun c s =>
    let i := Entry.spec c.entry 40 2
    let n := Entry.spec c.entry 42 2
    if i = 0 ∨ 255 < i ∨ (s.findSq c.fn i).isSome = true ∨ n < 2 ∨ 64 < n then s.finish tag (Res.err .badField)
    else match s.findCq c.fn (Entry.spec c.entry 44 2) with
      | none => s.finish tag (Res.err .badField)
      | some (cq, _) =>
        match (if min 256 (s.fld Fld.cmdFnQuotaSq c.fn) ≤ s.sqCount c.fn then none else s.freeSq) with
        | none => s.finish tag (Res.err .noSpace)
        | some q =>
          let b := s.newBarista false
          let r : Sq := { state := .active, owner := c.fn, loc := i, size := n, cq := cq, barista := b.getD 0, orphan := b.isNone }
          ({ s with sqs := s.sqs.put q r }).finish tag { r0 := q + b.getD 0 * 2 ^ 16 }

/-- SQ_DELETE (R70). Its reply follows those of the queue's commands. -/
def execSqDelete (tag : Nat) (s : State) : Out :=
  s.adminOnly tag 0x02 fun c s =>
    let i := Entry.spec c.entry 40 2
    match (if i = 0 then none else s.findSq c.fn i) with
    | none => s.finish tag (Res.err .badField)
    | some (q, _) =>
      let s :=
        if c.stage = .running then s
        else
          let s := s.modSq q fun r => { r with state := .deleting, tail := r.head }
          if bit (Entry.spec c.entry 42 1) 0 then s.abortAll (s.liveCmds fun k => decide (k.sq = q)) else s
      if s.sqBusy q then s.modCmd tag fun c => { c with stage := .running, started := true }
      else ({ s with sqs := s.sqs.put q default }).finish tag {}

/-- CQ_CREATE (R68, R69). -/
def execCqCreate (tag : Nat) (s : State) : Out :=
  s.adminOnly tag 0x03 fun c s =>
    let j := Entry.spec c.entry 40 2
    let n := Entry.spec c.entry 42 2
    if j = 0 ∨ 255 < j ∨ (s.findCq c.fn j).isSome = true ∨ n < 2 ∨ 4096 < n then s.finish tag (Res.err .badField)
    else if Entry.hostBuf c.entry % 4096 ≠ 0 then s.finish tag (Res.err .badAlign)
    else match (if min 256 (s.fld Fld.cmdFnQuotaCq c.fn) ≤ s.cqCount c.fn then none else s.freeCq) with
      | none => s.finish tag (Res.err .noSpace)
      | some q =>
        let r : Cq := { state := .active, owner := c.fn, loc := j, size := n, base := Entry.hostBuf c.entry,
                        vector := if Entry.specBits c.entry 44 7 1 = 1 then none else some (Entry.specBits c.entry 44 0 6) }
        ({ s with cqs := s.cqs.put q r }).finish tag { r0 := q }

/-- CQ_DELETE: refused while an SQ is bound to it (R70). -/
def execCqDelete (tag : Nat) (s : State) : Out :=
  s.adminOnly tag 0x04 fun c s =>
    let j := Entry.spec c.entry 40 2
    match (if j = 0 then none else s.findCq c.fn j) with
    | none => s.finish tag (Res.err .badField)
    | some (q, _) =>
      if !(s.boundSqs q).isEmpty then s.finish tag (Res.err .badField)
      else ({ s with cqs := s.cqs.put q default }).finish tag {}

/-! ### ABORT (R109) -/

/-- The oldest command of function `f`'s local SQ `i` with that CID that is outstanding, `t` itself apart. -/
def State.outstanding (s : State) (f i cid t : Nat) : Option Nat :=
  match s.findSq f i with
  | none => none
  | some (q, _) =>
    (s.cmds.find? fun e => decide (e.1 ≠ t) && e.2.live && e.2.origin.isNone && decide (e.2.sq = q) && decide (Entry.cid e.2.entry = cid)).map (·.1)

/-- ABORT: its reply follows that of the command it ended (R109). -/
def execAbort (tag : Nat) (s : State) : Out :=
  s.adminOnly tag 0x08 fun c s =>
    if c.stage = .running then
      (if (s.cmd c.first).live then s else s.finish tag { r0 := c.moved })
    else match s.outstanding c.fn (Entry.spec c.entry 40 2) (Entry.spec c.entry 42 2) tag with
      | none => s.finish tag {}
      | some t =>
        let found := s.abortable t
        let s := if found then s.endCommand t .aborted else s
        s.modCmd tag fun c => { c with stage := .running, started := true, first := t, moved := b2n found }

/-! ### The blend queries (R122) -/

/-- The 64-byte record of a blend for a function. -/
def State.blendRecord (s : State) (f b : Nat) : List Byte :=
  let p := s.pair f b
  leBytes 8 (s.guarOf b) ++ leBytes 8 (s.limitOf b) ++ leBytes 4 (s.fld Fld.bldCfgLatNs b) ++ leBytes 1 (s.fld Fld.bldCfgPolicy b) ++
    leBytes 1 (b2n (s.blendSet b) + 2 * b2n p.dec + 4 * b2n (s.seam 2)) ++ zeroBytes 2 ++ leBytes 8 p.winBytes ++ leBytes 8 p.winReqs ++
    leBytes 8 p.bytes ++ leBytes 8 p.reqs ++ leBytes 8 (s.fld Fld.bldMissTotal b)

/-- BQUERY (R122). -/
def execBquery (tag : Nat) (s : State) : Out :=
  s.serve tag 0x70 fun c s =>
    let b := Entry.specBits c.entry 40 0 6
    if Entry.length c.entry ≠ 64 then s.finish tag (Res.err .badField)
    else if !bit (s.blendsOf c.fn) b then s.finish tag (Res.err .notOwner)
    else (s.hostWrite c.fn (Entry.hostBuf c.entry) (s.blendRecord c.fn b)).finish tag { r0 := 64 }

/-- BLIST (R122). -/
def execBlist (tag : Nat) (s : State) : Out :=
  s.serve tag 0x71 fun c s => s.finish tag { r0 := s.blendsOf c.fn }

end Sys2Proof.Machine
end

