-- ==== Sys2Proof/Machine/Dram.lean ====
section
/-! DEFINITION. The meanings of the DRAM controller events (spec/12): refresh debt, row policy, heat, patrol scrub, the hash registers. -/

namespace Sys2Proof.Machine

/-! ### Refresh (R336 to R339) -/

/-- A controller runs its DRAM: trained, and the device ON (in DOZE and SLEEP it is in self-refresh, R351). -/
def State.dramAwake (s : State) (c : Nat) : Bool :=
  decide (c < 16) && s.flag Fld.drcStateTrained c && decide (s.fld Fld.pwrStateState = 0)

/-- Rank-subchannel `r` (8 × S + 4 × DIMM + rank) is populated. -/
def State.hasRank (s : State) (c r : Nat) : Bool :=
  decide (r < 16) && decide (r % 8 / 4 < max 1 (s.fld Fld.drcStateDimms c)) && decide (r % 4 < 2 ^ s.fld Fld.drcStateRanks c)

/-- The register that holds a rank-subchannel's debt. -/
def debtFld (r : Nat) : Fld := if r < 8 then Fld.drcRefDebtD0D7 else Fld.drcRefDebtHiD8D15

/-- Refresh debt D of a rank-subchannel, in quarters of an interval. -/
def State.debt (s : State) (c r : Nat) : Int :=
  let b := bits (s.fld (debtFld r) c) (8 * (r % 8)) 8
  if b < 128 then (b : Int) else (b : Int) - 256

/-- The debt is replaced. -/
def State.setDebt (s : State) (c r : Nat) (d : Int) : State :=
  s.setFld (debtFld r) (setBits (s.fld (debtFld r) c) (8 * (r % 8)) 8 (d % 256).toNat) c

/-- The limit L in intervals. -/
def State.refLimit (s : State) (c : Nat) : Nat := s.fld Fld.drcRefPostponeLimit c

/-- SOFT, held to 1 to L. -/
def State.refSoft (s : State) (c : Nat) : Nat := clamp 1 (s.refLimit c) (s.fld Fld.drcRefSoft c)

/-- The forcing threshold (R338). -/
def State.refThreshold (s : State) (c : Nat) : Nat :=
  if s.flag Fld.drcRtStatPanic c && s.flag Fld.drcRtSpend c then s.refLimit c else s.refSoft c

/-- The key of a bank. -/
def bankKey (c r b : Nat) : Nat := c * 512 + r * 32 + b

/-- The banks of a rank-subchannel that `p` selects are closed (R335). -/
def State.closeBanks (s : State) (c r : Nat) (p : Nat → Bool) : State :=
  (List.range 32).foldl (fun s b => if p b then { s with banks := s.banks.upd (bankKey c r b) fun x => { x with opened := false } } else s) s

/-- One all-bank refresh: it takes 4 quarters, not below −4L (R337, R339). -/
def State.refAb (s : State) (c r : Nat) : State :=
  let d := max (-(4 * (s.refLimit c : Int))) (s.debt c r - 4)
  ((s.setDebt c r d).tally Fld.drcRefStatRefab 1 c).closeBanks c r fun _ => true

/-- One same-bank refresh: it takes 1 quarter; bank indexes go round in order (R337). -/
def State.refSb (s : State) (c r : Nat) : State :=
  let k := s.refNext.get (c * 16 + r)
  let s := { s with refNext := s.refNext.put (c * 16 + r) ((k + 1) % 4) }
  ((s.setDebt c r (s.debt c r - 1)).tally Fld.drcRefStatRefsb 1 c).closeBanks c r fun b => b % 4 = k

/-- The refresh in use outside windows (R336): same-bank only in FGR with SAME_BANK. -/
def State.refOne (s : State) (c r : Nat) : State :=
  if s.refLimit c = 8 ∧ s.flag Fld.drcRefSameBank c = true then s.refSb c r else s.refAb c r

/-- Refreshes until the debt falls below a bound, `fuel` at most. -/
def State.refreshTo (s : State) (c r : Nat) (bound : Int) : Nat → State
  | 0 => s
  | n + 1 => if bound ≤ s.debt c r then (s.refOne c r).refreshTo c r bound n else s

/-- How many refreshes bring a debt below a bound. -/
def State.refreshesTo (s : State) (c r : Nat) (bound : Int) : Nat :=
  let each : Int := if s.refLimit c = 8 ∧ s.flag Fld.drcRefSameBank c = true then 1 else 4
  ((s.debt c r - bound) / each + 1).toNat

/-- All-bank refreshes of an open window, down to −4L (R339). -/
def State.pullIn (s : State) (c r : Nat) : Nat → State
  | 0 => s
  | n + 1 => if -(4 * (s.refLimit c : Int)) < s.debt c r then (s.refAb c r).pullIn c r n else s

/-- An open window makes up the debt of a rank-subchannel (R339). -/
def State.windowed (s : State) (c r : Nat) : State := if s.flag Fld.drcRefWindow c then s.pullIn c r 32 else s

/-- TREFI_ELAPSE: an interval elapses on rank-subchannel `r` of controller `c` (R337 to R339, R342). A change of MODE takes effect here. -/
def execTrefiElapse (c r : Nat) (s : State) : Out :=
  if !s.dramAwake c || !s.hasRank c r then .next s
  else
    let s := s.setFld Fld.drcRefPostponeLimit (if s.flag Fld.drcRefMode c then 8 else 4) c
    let l := s.refLimit c
    let s := s.setDebt c r (s.debt c r + 4)
    let panic := s.flag Fld.drcRtStatPanic c
    let s := if panic && decide (4 * (l : Int) ≤ s.debt c r) then s.bump Fld.drcRefPostponeForced (s.refreshesTo c r (4 * (l : Int))) c
      else if panic && s.flag Fld.drcRtSpend c && decide (4 * (s.refSoft c : Int) ≤ s.debt c r) then s.bump Fld.drcRefPostponePanicSpent 1 c
      else s
    .next ((s.refreshTo c r (4 * (s.refThreshold c : Int)) 32).windowed c r)

/-- OPPORTUNISTIC_REFRESH: a rank-subchannel idle for 256 cycles refreshes while its debt is above 0; a debt at the forcing threshold goes
first (R338). -/
def execOpportunisticRefresh (c r : Nat) (s : State) : Out :=
  if !s.dramAwake c || !s.hasRank c r then .next s
  else
    let s := s.refreshTo c r (4 * (s.refThreshold c : Int)) 32
    if 0 < s.debt c r then .next (s.refOne c r) else .next s

/-- REFRESH_OPEN or REFRESH_CLOSE of one controller; a controller that is not SERVING ignores it (R339). -/
def State.setWindow (s : State) (c : Nat) (open' : Bool) : State :=
  if s.unitState 0 c ≠ 3 then s
  else
    let s := s.setFld Fld.drcRefWindow (b2n open') c
    (List.range 16).foldl (fun s r => if s.hasRank c r then s.windowed c r else s) s

/-- Debts of a controller are zero and its window is closed, as at training and at self-refresh (R337, R339). -/
def State.clearRefresh (s : State) (c : Nat) : State :=
  ((s.setFld Fld.drcRefDebtD0D7 0 c).setFld Fld.drcRefDebtHiD8D15 0 c).setFld Fld.drcRefWindow 0 c

/-! ### Rows and heat (R335, R336) -/

/-- Ones in a 4-bit history. -/
def onesIn (h : Nat) : Nat := ((List.range 4).filter (bit h)).length

/-- A column access: hit or miss, the outcome of the last decision, and the next decision (R335). -/
def State.access (s : State) (x : Burst) : State :=
  let k := bankKey x.chan x.rsub x.bank
  let b := s.banks.get k
  let hit := decide (b.row = some x.row)
  let h := if b.row.isSome then (2 * b.hist + b2n hit) % 16 else b.hist
  let keep := decide (min 5 (s.fld Fld.drcPageKeepMin x.chan) ≤ onesIn h)
  let s := { s with banks := s.banks.put k { opened := keep, row := some x.row, hist := h } }
  if b.opened && hit then s.bump Fld.drcRowsHits 1 x.chan else s.bump Fld.drcRowsMisses 1 x.chan

/-- ROW_IDLE_CLOSE: a row kept open without an access for IDLE cycles is closed; nothing is recorded (R335). `bank`: rank-subchannel × 32 + bank. -/
def execRowIdleClose (c bank : Nat) (s : State) : Out :=
  .next { s with banks := s.banks.upd (c * 512 + bank % 512) fun b => { b with opened := false } }

/-- THERMAL_HOT: a DIMM of the channel reports above 85 °C (R336). -/
def execThermalHot (c : Nat) (s : State) : Out := if c < 16 then .next (s.setFld Fld.drcRefHot 1 c) else .next s

/-- THERMAL_HOT_END: no DIMM of the channel does any more (R336). -/
def execThermalHotEnd (c : Nat) (s : State) : Out := if c < 16 then .next (s.setFld Fld.drcRefHot 0 c) else .next s

/-! ### ECC and patrol (R343 to R346) -/

/-- The failed device of a rank-subchannel; 15 none. -/
def State.eccDev (s : State) (c r : Nat) : Nat := bits (s.fld Fld.drcEccDevDev c) (4 * r) 4

/-- A correction is attributed to device `d`; past DEV_LIMIT the device is marked, and a second one degrades the rank (R345). -/
def State.attribute (s : State) (c r d : Nat) : State :=
  let k := (c * 16 + r) * 16 + d
  let n := s.eccCount.get k + 1
  let s := { s with eccCount := s.eccCount.put k n }
  if n = s.fld Fld.drcEccCtrlDevLimit c + 1 then
    let old := s.eccDev c r
    if old = d then s
    else if old = 15 then
      (s.setFld Fld.drcEccDevDev (setBits (s.fld Fld.drcEccDevDev c) (4 * r) 4 d) c).log 0x0406 2 c (r + d * 2 ^ 8)
    else (s.log 0x0406 2 c (r + d * 2 ^ 8)).log 0x0407 2 c (r + d * 2 ^ 8)
  else s

/-- The page space of a map key, and the page that it is in it: what a rewrite of that page is coded and encrypted with (R173). -/
def State.spaceOfKey (s : State) (k : Nat) : PageSpace × Nat :=
  if k < 2 ^ 40 then (s.poolSpace, k)
  else
    let c := s.chunks.get ((k - 2 ^ 40) / 2 ^ 16)
    (seqSpace c.home c.stream (s.sinfoOf c.home c.stream), c.chunk * c.rsize + k % 2 ^ 16)

/-- A page whose sectors cannot be read is reconstructed and rewritten, or poisoned (R168, R346). -/
def State.patrolPage (s : State) (k : Nat) : State :=
  let e := s.mapEntry k
  if !e.mapped || decide (e.codec = 0) then s
  else
    let (ps, n) := s.spaceOfKey k
    match s.recoverPage k (ps.addrOf n) e 0 with
    | (s, .error _) => s
    | (s, .ok p) => match s.storePage ps n p with
      | .ok s => s
      | .error _ => s

/-- The four map entries of a burst of the DRAM copy are rebuilt from the log or the cache, or poisoned; what the cache holds is a free
value (R344). -/
def State.patrolMap (s : State) (k : Nat) : State :=
  (List.range 4).foldl (fun (s : State) i =>
    let p := 4 * (k / 4) + i
    if (s.mapLog.any fun r => r.page = p) || decide (s.mapDram.get p = default) then s
    else if s.free % 2 = 0 then s.tookFree
    else
      let s := s.tookFree
      ({ s with mapDram := s.mapDram.put p { poison := true } }).log 0x0402 0 0 (p * 2 ^ 64)) s

/-- An uncorrectable burst is handled by where it lies: page sectors, the map's DRAM copy, the staging tier or record cache, parity frames. The
device lays out its DRAM itself, so which of them, and which page, are free values (R344, R346). -/
def State.patrolBad (s : State) : State :=
  let w := s.free % 4
  let n := s.tookFree.free
  let s := s.tookFree.tookFree
  let keys := (s.mapDram.map (·.1) ++ s.mapLog.map (·.page)).eraseDups
  let key := keys.getD (n % max 1 keys.length) 0
  match w with
  | 0 => s.patrolPage key
  | 1 => s.patrolMap key
  | 2 =>
    let st := s.staged.filter fun e => decide (e.1 % 2 = 0) && e.2.present
    match st[n % max 1 st.length]? with
    | none => s
    | some e => ({ s with staged := s.staged.put e.1 default }).setFld (tierFill 0) (s.fld (tierFill 0) - 1)
  | _ => s

/-- DRAM_PATROL_SCRUB: the burst at physical address `addr`, on controller `c`, is read; `errs` 0 clean, 1 + d corrected in device d (0 to 9), 11
or more uncorrectable (R343 to R346). A patrol pass begins at address 0. -/
def execDramPatrolScrub (c addr errs : Nat) (s : State) : Out :=
  let a := addr / 64 * 64
  let x := s.burstAt a
  if !s.dramAwake c || decide (x.chan ≠ c) || !s.initialised a || decide (2 ^ s.capBits ≤ a) then .next s
  else
    let s := if a = 0 then { s with eccCount := [] } else s
    let s := (s.chargeWork deviceAccount (s.fld Fld.drcScrubBlend) 64).1
    let s := s.access x
    if errs = 0 then .next s
    else if errs ≤ 10 then .next ((s.bump Fld.drcEccCorrected 1 c).attribute c x.rsub (errs - 1))
    else
      let s := s.bump Fld.drcEccUncorr 1 c
      let s := if s.flag Fld.drcEccAddrValid c then s else (s.setFld Fld.drcEccAddrAddr (a / 64) c).setFld Fld.drcEccAddrValid 1 c
      .next ((s.log 0x0405 2 c (x.rsub + a * 2 ^ 64)).patrolBad)

/-! ### Configuration and initialisation (R333, R347) -/

/-- DRC_HASH_NEXT_WRITE: hash register `i`, checked under R333. -/
def execDrcHashNextWrite (i value : Nat) (s : State) : Out :=
  let s := s.fmInput 0 8 value
  if 5 ≤ i then .next s
  else if s.hashOk value then .next (s.setFld Fld.drcHashNextSel0Sel7 value i)
  else .next (s.logIgnored (0x203040 + 8 * i) 0 value)

/-- DRAM_INIT_DONE: the controllers have written zeros up to `gib` GiB; the point never goes back, and at the capacity it is done (R347). -/
def execDramInitDone (gib : Nat) (s : State) : Out :=
  let n := max (s.fld Fld.drcInitDoneGib) (min gib s.dramGib)
  if s.dramGib = 0 ∨ s.flag Fld.drcInitDone = true then .next s
  else .next ((s.setFld Fld.drcInitDoneGib n).setFld Fld.drcInitDone (b2n (decide (s.dramGib ≤ n))))

end Sys2Proof.Machine
end

