-- ==== Sys2Proof/Machine/LinkRx.lean ====
section
/-! DEFINITION. The receiver of a link (R403 to R406, R409, R412), its training parameters (R415, R417, R427), retrains (R416, R418 to R420)
and the loss of a link (R421). -/

namespace Sys2Proof.Machine

/-! ### Received messages and slots -/

/-- Message bytes received on a virtual channel. -/
def Link.rxBuf (l : Link) (v : Nat) : List Byte := match v with
  | 0 => l.rx0 | 1 => l.rx1 | _ => l.rx3

/-- Place in its flit of the first of them. -/
def Link.rxPos (l : Link) (v : Nat) : Nat := match v with
  | 0 => l.pos0 | 1 => l.pos1 | _ => l.pos3

/-- Both are replaced. -/
def Link.setRx (l : Link) (v : Nat) (bs : List Byte) (p : Nat) : Link := match v with
  | 0 => { l with rx0 := bs, pos0 := p } | 1 => { l with rx1 := bs, pos1 := p } | _ => { l with rx3 := bs, pos3 := p }

/-- Slots of a virtual channel are freed (R406). -/
def Link.free (l : Link) (v n : Nat) : Link := { l with freed := l.freed.set v ((l.freed.getD v 0 + n) % 1024) }

/-- The first `n` bytes of a virtual channel are consumed: every flit used up frees its slot (R405). -/
def Link.eat (l : Link) (v n : Nat) : Link :=
  let p := l.rxPos v + n
  (l.setRx v ((l.rxBuf v).drop n) (p % 240)).free v (p / 240)

/-- Padding at the front of a virtual channel is passed over: a header of KIND 0 ends its flit (R409); `n` flits at most. -/
def Link.skipPad (l : Link) (v : Nat) : Nat → Link
  | 0 => l
  | n + 1 =>
    if decide (16 ≤ (l.rxBuf v).length) && decide ((l.rxBuf v).getD 4 0 = 0) then (l.eat v (240 - l.rxPos v)).skipPad v n else l

/-- A message is consumed where it stands first in the buffer of its virtual channel. -/
def State.consume (s : State) (k vc : Nat) (msg : List Byte) : State :=
  if decide (64 ≤ k) || msg.isEmpty || decide (((s.link k).rxBuf vc).take msg.length ≠ msg) then s
  else s.modLink k fun l => (l.eat vc msg.length).skipPad vc (l.rxBuf vc).length

/-- The slots of the notice at the front of a list. -/
def noticeLen : List RxSlot → Nat
  | [] => 0
  | _ :: r => 1 + (r.takeWhile fun x => x.kind = 0x0F).length

/-- A notice is consumed where it stands first among the slots received. -/
def State.takeSlots (s : State) (k kind : Nat) (body : List Byte) : State :=
  let q := (s.link k).rx2
  match q.head? with
  | none => s
  | some x =>
    if decide (64 ≤ k) || decide (x.kind ≠ kind) || decide (x.body ≠ body.take 16) then s
    else
      let n := noticeLen q
      s.modLink k fun l => ({ l with rx2 := l.rx2.drop n }).free 2 ((q.take n).filter fun (x : RxSlot) => x.last).length

/-- The control-slot kinds that the device implements (R412). -/
def knownSlot (k : Nat) : Bool := decide (1 ≤ k) && decide (k ≤ 0x0B)

/-- The slots of a CTRL flit that are kept, those of unknown notices left out; `keep`: the notice in hand is known. -/
def keepSlots (keep : Bool) : List (Nat × List Byte) → List (Nat × List Byte)
  | [] => []
  | (k, b) :: r =>
    let ok := if k = 0x0F then keep else knownSlot k
    if ok then (k, b) :: keepSlots ok r else keepSlots ok r

/-- Unknown notices in a list of slots. -/
def unknownSlots (l : List (Nat × List Byte)) : Nat := (l.filter fun x => decide (x.1 ≠ 0x0F) && !knownSlot x.1).length

/-- The slots of an accepted CTRL flit are stored, the last of them marked; a flit of which nothing is kept frees its slot (R405, R413). -/
def State.storeSlots (s : State) (k : Nat) (p : List Byte) : State :=
  let all := ctrlSlots p
  let kept := keepSlots false all
  let s := s.bump Fld.wlkErr2Protocol (unknownSlots all) k
  if kept.isEmpty then s.modLink k fun l => l.free 2 1
  else s.modLink k fun l =>
    { l with rx2 := l.rx2 ++ ((List.range kept.length).zip kept).map fun x => ⟨x.2.1, x.2.2, decide (x.1 + 1 = kept.length)⟩ }

/-! ### Training states -/

/-- TSTATE of a link. -/
def State.tstate (s : State) (k : Nat) : Nat := s.fld Fld.wlkStateTstate k

/-- A link enters a training state now. -/
def State.setTstate (s : State) (k t : Nat) : State := (s.setFld Fld.wlkStateTstate t k).modLink k fun l => { l with since := s.us }

/-- The partner of a link as training gave it. -/
def State.partnerOf (s : State) (k : Nat) : Nat × Nat × Nat :=
  (s.fld Fld.wlkStatePartnerDev k, s.fld Fld.wlkStatePartnerSys k, s.fld Fld.wlkStatePartnerLink k)

/-- A fast retrain begins (R416); the partner is recorded (R418). -/
def State.beginFast (s : State) (k : Nat) : State :=
  if s.tstate k = 5 ∨ s.tstate k = 6 then
    let p := s.partnerOf k
    (((s.setTstate k 7).bump Fld.wlkErrFastrt 1 k).modLink k fun l => { l with partner := some p, resume := false }).noteLinks s
  else s

/-- A cold retrain begins (R416). -/
def State.beginCold (s : State) (k : Nat) : State :=
  if s.tstate k = 0 ∨ s.unitState 3 k = 0 then s
  else
    let p := if s.tstate k = 5 ∨ s.tstate k = 6 then some (s.partnerOf k) else (s.link k).partner
    (((s.setTstate k 8).bump Fld.wlkErrColdrt 1 k).modLink k fun l => { l with partner := p, resume := false, lanes := 3 }).noteLinks s

/-- The mode of a link: 0 for links 0 to 61; 3 acts as 0 (R426). -/
def State.linkMode (s : State) (k : Nat) : Nat := if k < 62 then 0 else s.fld Fld.wlkModeMode k % 3

/-- The slots that this end advertises for its virtual channels (WLK_CREDIT). -/
def State.ownSlots (s : State) (k : Nat) : List Nat :=
  [s.fld Fld.wlkCreditVc0 k, s.fld Fld.wlkCreditVc1 k, s.fld Fld.wlkCreditVc2 k, s.fld Fld.wlkCreditVc3 k]

/-- A division keeps the bounds of R405. -/
def divisionOk (l : List Nat) : Bool := l.all (8 ≤ ·) && decide (32 ≤ l.getD 2 0) && decide (l.sum ≤ 768)

/-- The parameters of this end in a TRAIN flit (R415, R427). -/
def State.trainPayload (s : State) (k : Nat) (pack : Bool) : List Byte :=
  let l := s.link k
  leBytes 2 1 ++ nameBytes s.dev s.sys ++ leBytes 1 k ++ leBytes 1 l.lanes ++ leBytes 1 (b2n pack + 2 * b2n l.resume) ++ zeroBytes 1 ++
    (s.ownSlots k).flatMap (leBytes 2) ++ leBytes 2 (l.expected + 2 ^ 15) ++ leBytes 2 l.next ++ leBytes 2 0x4B59 ++
    leBytes 1 (b2n (s.flag Fld.wlkNapCtrlEnable k) + 2 * b2n (decide (s.linkMode k = 1)))

/-- A TRAIN flit goes out. -/
def State.sendTrain (s : State) (k : Nat) (pack : Bool) : State := s.sendFlit k 4 0 0 (s.trainPayload k pack)

/-- A link passes ALIGN and enters PARAM: its first TRAIN flit goes out (R416). -/
def State.enterParam (s : State) (k : Nat) : State := (s.setTstate k 4).sendTrain k false

/-- What a partner's TRAIN flit says. -/
structure Train where
  version : Nat
  dev : Nat
  sys : Nat
  link : Nat
  lanes : Nat
  pack : Bool
  resume : Bool
  slots : List Nat
  expected : Nat
  nap : Bool
  fed : Bool
  deriving DecidableEq, Repr

/-- The fields of a TRAIN payload (R415). -/
def Train.of (p : List Byte) : Train :=
  let n := fun (o k : Nat) => leNat ((p.drop o).take k)
  { version := n 0 2, dev := n 2 2 % 1024, sys := n 2 2 / 1024, link := n 4 1, lanes := n 5 1 % 4, pack := bit (n 6 1) 0, resume := bit (n 6 1) 1,
    slots := [n 8 2, n 10 2, n 12 2, n 14 2], expected := n 16 2 % 4096, nap := bit (n 22 1) 0, fed := bit (n 22 1) 1 }

/-- The link of the partner that link `k` of device `x` is wired to (R425). -/
def partnerLink (x k : Nat) : Option Nat := linkNo (wiredTo x k) x

/-- The wiring check of a link (R427). -/
def State.wiringOk (s : State) (k : Nat) (t : Train) : Bool :=
  if k < 62 then decide (t.sys = s.sys) && decide (t.dev = wiredTo s.dev k) && decide (some t.link = partnerLink s.dev k)
  else
    let atEnd := decide (t.link = 62 ∨ t.link = 63)
    match s.linkMode k with
    | 1 => atEnd && decide (t.sys ≠ s.sys) && t.fed
    | 2 => atEnd && !t.fed
    | _ => false

/-- The checks of R417. -/
def State.trainOk (s : State) (k : Nat) (t : Train) : Bool := decide (t.version = 1) && s.wiringOk k t && divisionOk t.slots

/-! ### Loss of a link (R421) -/

/-- The messages that end in flits outstanding, each with the sequence number of its last flit; `q` numbers the first flit. -/
def lastFlits : Nat → List TxFlit → List (Nat × Item)
  | _, [] => []
  | q, f :: fs => (match f.item with
    | some it => [(q, it)]
    | none => []) ++ lastFlits ((q + 1) % 4096) fs

/-- Messages whose last flit has not been sent. -/
def itemsOf (fs : List TxFlit) : List Item := fs.filterMap fun f => f.item

/-- A message of a lost link goes out again by a detour; a notice for the link's partner goes in an envelope (R421, R439). -/
def State.reroute (s : State) (k : Nat) (it : Item) : State :=
  if it.vc ≠ 2 then
    let h := MsgHead.of it.bytes
    let s := s.putPins (s.pins.filter fun p => !(decide (p.link = k) && decide (p.orgSys = h.orgSys) && decide (p.org = h.orgDev) &&
      decide (p.tag = h.tag) && decide (p.dstSys = h.sys) && decide (p.dst = h.dev) && decide (p.vc = it.vc)))
    s.sendItem false k it
  else if it.kind = 0x09 ∧ it.bytes.head? = some 1#8 then
    match s.choose false s.dev it.sys it.dev false (selfEnvelope it.bytes) with
    | some c => s.enqueue c.link c.hops it
    | none => s.bump Fld.wlkRtStatDiscards
  else
    let d := if it.sys = 0 ∧ it.dev = 0 then s.fld Fld.wlkStatePartnerDev k else it.dev
    s.sendNotice it.kind s.sys d it.bytes

/-- Every message of a list goes out again. -/
def State.rerouteAll (s : State) (k : Nat) : List Item → State
  | [] => s
  | it :: r => (s.reroute k it).rerouteAll k r

/-- The exchange of a link has ended: the messages that the partner did not take whole go first, then those that were held (R421, R436). -/
def State.endLost (s : State) (k : Nat) (again : List Item) : State :=
  let l := s.link k
  (s.modLink k fun l => { l with lost := [], held := [], lostWait := none }).rerouteAll k (again ++ l.held)

/-- Messages lost with a link whose last flit lies after `last` (R421). -/
def lostAfter (last : Nat) (l : List (Nat × Item)) : List Item :=
  (l.filter fun x => decide (1 ≤ (x.1 + 4096 - last) % 4096) && decide ((x.1 + 4096 - last) % 4096 ≤ 2047)).map (·.2)

/-- A link is lost: what was partly received goes, what was outstanding or waited is kept for the exchange, LINK_LOST leaves by a detour to the
partner, and its answer is awaited (R421). -/
def State.loseLink (s : State) (k : Nat) : State :=
  let l := s.link k
  let p := l.partner.getD (s.partnerOf k)
  let s := s.modLink k fun l =>
    { l with rx0 := [], rx1 := [], rx3 := [], rx2 := [], pos0 := 0, pos1 := 0, pos3 := 0, lostWait := some s.us,
             lost := lastFlits l.base l.replay, held := l.held ++ itemsOf l.waiting, replay := [], waiting := [], base := l.next }
  let s := s.sendNotice 0x0A p.2.1 p.1 (slot16 (nameBytes s.dev s.sys ++ leBytes 1 k ++ leBytes 1 p.2.2 ++ leBytes 2 ((l.expected + 4095) % 4096)))
  match l.early with
  | none => s
  | some x => (s.modLink k fun l => { l with early := none }).endLost k (lostAfter x (s.link k).lost)

/-- A link goes OUT (R416, R417, R420, R421); `ordered`: by UNIT_SERVICE, else by the device. -/
def State.linkOut (s : State) (k : Nat) (ordered : Bool := false) : State :=
  if s.unitState 3 k = 0 then s
  else
    let old := s.unitState 3 k
    let had := s.tstate k
    let s' := (s.setTstate k 0).modUnit 3 k fun u => { u with state := 0 }
    let s' := (s'.setFld Fld.wlkStateService 0 k).log 0x0105 5 k (old + b2n (!ordered) * 2 ^ 16)
    let s' := if had = 5 ∨ had = 6 ∨ (s.link k).partner.isSome then s'.loseLink k else s'
    s'.noteLinks s

/-- A lane fails: the link retrains onto the other lane, or goes OUT with none left (R419, R420). -/
def State.loseLane (s : State) (k lane : Nat) : State :=
  let left := (s.fld Fld.wlkStateLanes k) &&& (3 - 2 ^ (lane % 2))
  if left = 0 then s.linkOut k
  else if left = s.fld Fld.wlkStateLanes k then s
  else
    let s := (s.bump Fld.wlkErr2Degrade 1 k).log 0x0502 5 k left
    (s.modLink k fun l => { l with lanes := left, degraded := some s.us }).beginFast k

/-- Traffic goes on where it stood (R418): what the partner has not accepted is sent again. -/
def State.resumeLink (s : State) (k expected : Nat) : State :=
  let l := s.link k
  let n := (l.next + 4096 - l.base) % 4096
  let d := (expected + 4096 - l.base) % 4096
  let s := if d ≤ n then s.modLink k fun l => { l with base := expected, replay := l.replay.drop d } else s
  let l := s.link k
  (s.resend k l.base l.replay).flush k

/-- Counters and credits of a link are set anew (R401, R406, R418). -/
def State.resetLink (s : State) (k : Nat) (slots : List Nat) : State :=
  let s := s.modLink k fun l => { l with next := 0, base := 0, expected := 0, freed := [0, 0, 0, 0], reports := [0, 0, 0, 0], slots := slots,
                                         cvc := 0, replay := [] }
  (s.wr .wlkTxcred k 0 (slots.getD 0 0 + slots.getD 1 0 * 2 ^ 16 + slots.getD 2 0 * 2 ^ 32 + slots.getD 3 0 * 2 ^ 48)).flush k

/-- The link enters ACTIVE with its partner's parameters: it resumes where both ends can (R418), else its counters and credits are set anew and
what was outstanding is lost (R421). A lane that did not train has failed (R419). -/
def State.enterActive (s : State) (k : Nat) (t : Train) : State :=
  let old := s
  let l := s.link k
  let resume := l.resume && t.resume
  let mask := l.lanes &&& t.lanes
  let s := if !resume && l.partner.isSome then s.loseLink k else s
  let s := ((((s.setTstate k 5).setFld Fld.wlkStateLanes mask k).setFld Fld.wlkStatePartnerDev t.dev k).setFld
    Fld.wlkStatePartnerSys t.sys k).setFld Fld.wlkStatePartnerLink t.link k
  let s := if mask ≠ 3 ∧ l.degraded.isNone = true then (s.bump Fld.wlkErr2Degrade 1 k).log 0x0502 5 k mask else s
  let s := s.modLink k fun l => { l with napOk := t.nap, partner := none, resume := false, used := s.us, rx := .ok, fails := 0, timer := s.us, early := none,
                                         degraded := if mask = 3 then none else some (l.degraded.getD s.us) }
  let s := if resume then s.resumeLink k t.expected else s.resetLink k t.slots
  s.noteLinks old

end Sys2Proof.Machine
end

