-- ==== Sys2Proof/Machine/Links.lean ====
section
/-! DEFINITION. The meanings of the link-layer commands (spec/15): flits, training, retrains, the loss of a link. -/

namespace Sys2Proof.Machine

/-! ### Flits (R398 to R406) -/

/-- Codewords of one lane in 1 ms (R397, the frame interval of two lanes). -/
def codewordsPerMs : Nat := 20588

/-- An uncorrectable codeword is counted against DEGRADE_PM over 1 ms; which lane carried it is left free (R419). -/
def State.countBad (s : State) (k : Nat) : State :=
  let l := s.link k
  let fresh := decide (l.badFrom + 1000 ≤ s.us)
  let n := (if fresh then 0 else l.bad) + 1
  let s := s.modLink k fun l => { l with bad := n, badFrom := if fresh then s.us else l.badFrom }
  if clamp 1 1000 (s.fld Fld.wlkCtrlDegradePm k) * codewordsPerMs < n * 1000 then
    (s.tookFree.modLink k fun l => { l with bad := 0, badFrom := s.us }).loseLane k (s.free % 2)
  else s

/-- The receiver asks for a replay, once per loss (R403). -/
def State.nak (s : State) (k : Nat) : State := s.modLink k fun l => { l with rx := if l.rx = .ok then .nakDue else l.rx }

/-- The credit report of a flit (R406). -/
def State.takeCredit (s : State) (k : Nat) (h : FlitHead) : State :=
  let r := (s.link k).reports.getD h.cvc 0
  let s := s.setCredit k h.cvc (s.credit k h.cvc + (h.ccount + 1024 - r % 1024) % 1024)
  s.modLink k fun l => { l with reports := l.reports.set h.cvc h.ccount }

/-- The acknowledgement of a flit (R402). -/
def State.takeAck (s : State) (k ack : Nat) : State :=
  let l := s.link k
  let n := (l.next + 4096 - l.base) % 4096
  let d := (ack + 4097 - l.base) % 4096
  if d ≤ n then s.modLink k fun l => { l with base := (ack + 1) % 4096, replay := l.replay.drop d, fails := 0, timer := s.us } else s

/-- Everything outstanding is sent again (R402). -/
def State.replayAll (s : State) (k : Nat) : State :=
  let l := s.link k
  if l.replay.isEmpty then s
  else ((s.bump Fld.wlkErrReplay 1 k).modLink k fun l => { l with timer := s.us }).resend k l.base l.replay

/-- A sequenced flit in order is accepted: its payload goes to the buffer of its virtual channel (R403, R404). -/
def State.acceptFlit (s : State) (k : Nat) (h : FlitHead) (p : List Byte) : State :=
  let s := s.modLink k fun l => { l with expected := (l.expected + 1) % 4096, rx := .ok, used := if h.typ = 3 then l.used else s.us }
  let s := s.tally Fld.wlkBytesRxBytes 240 k
  if h.typ = 1 then s.modLink k fun l => (l.setRx h.vc (l.rxBuf h.vc ++ p) (l.rxPos h.vc)).skipPad h.vc (l.rxBuf h.vc).length.succ
  else if h.typ = 2 then s.storeSlots k p
  else s

/-- A flit that passed its checks (R402, R403, R406). -/
def State.goodFlit (s : State) (k : Nat) (h : FlitHead) (p : List Byte) : State :=
  let s := s.takeCredit k h
  let s := if h.typ = 4 then s else (let s := s.takeAck k h.ack; if h.nak then s.replayAll k else s)
  if h.typ = 0 ∨ h.typ = 4 then s
  else
    let gap := (h.seq + 4096 - (s.link k).expected) % 4096
    if gap = 0 then s.acceptFlit k h p else if gap ≤ 2047 then s.nak k else s

/-- Flits waiting go out; where none did, a NULL flit carries what is to be reported (R400, R403). -/
def State.answerFlit (s old : State) (k : Nat) : State :=
  let s := s.flush k
  if s.out.length = old.out.length ∧ s.tstate k = 5 then s.sendFlit k 0 0 0 [] else s

/-- FLIT_RECEIVE: a flit arrives on an ACTIVE link; `corrected` codewords were corrected, `uncorrectable` tells that one could not be (R398 to
R406). -/
def execFlitReceive (link : Nat) (data : List Byte) (corrected : Nat) (uncorrectable : Bool) (s : State) : Out :=
  let s := s.capture 1 link data
  if s.tstate link ≠ 5 then .next s
  else
    let s0 := s
    let s := s.bump Fld.wlkFecCorr corrected link
    let s := if uncorrectable then s.bump Fld.wlkFecUncorr 1 link else s
    let word := leNat (data.take 8)
    if uncorrectable || decide (data.length ≠ 256) || decide (leNat (data.drop 248) ≠ crc64 (data.take 248)) then
      let s := (s.bump Fld.wlkErrCrc 1 link).nak link
      let s := if uncorrectable then s.countBad link else s
      .next (s.answerFlit s0 link)
    else if !flitHeadOk word then .next ((s.bump Fld.wlkErr2Protocol 1 link).beginFast link)
    else .next ((s.goodFlit link (FlitHead.of word) ((data.drop 8).take 240)).answerFlit s0 link)

/-- REPLAY_TIMER_EXPIRY: the replay timer has run out with flits outstanding (R402). -/
def execReplayTimerExpiry (link : Nat) (s : State) : Out :=
  let l := s.link link
  if decide (s.tstate link ≠ 5) || l.replay.isEmpty || decide ((s.us - l.timer) * 10 < clamp 5 640 (s.fld Fld.wlkCtrlReplay100ns link)) then .next s
  else
    let s := s.modLink link fun l => { l with fails := l.fails + 1 }
    if max 1 (s.fld Fld.wlkCtrlRetryLimit link) < (s.link link).fails then .next (s.beginFast link) else .next (s.replayAll link)

/-! ### Retrains (R416 to R420) -/

/-- FAST_RETRAIN: from ACTIVE a fast retrain begins; in FAST the link passes ALIGN and enters PARAM, or after 20 µs begins a cold retrain (R416). -/
def execFastRetrain (link : Nat) (s : State) : Out :=
  if s.tstate link = 7 then
    .next (if (s.link link).since + 20 < s.us then s.beginCold link else s.enterParam link)
  else .next (s.beginFast link)

/-- COLD_RETRAIN: a cold retrain begins; in COLD the link enters DETECT, from PHY_TRAIN it passes ALIGN and enters PARAM; a retrain that has taken
5 ms puts it OUT (R416). -/
def execColdRetrain (link : Nat) (s : State) : Out :=
  let t := s.tstate link
  if t = 8 then .next (s.setTstate link 1)
  else if t = 2 then .next (if (s.link link).since + 5000 < s.us then s.linkOut link else s.enterParam link)
  else if t = 1 then .next (if (s.link link).since + 5000 < s.us ∧ (s.link link).partner.isSome = true then s.linkOut link else s)
  else .next (s.beginCold link)

/-- DETECT_TIMEOUT: no signal for 1 ms; detection starts over (R416). -/
def execDetectTimeout (link : Nat) (s : State) : Out :=
  if s.tstate link = 1 ∧ (s.link link).since + 1000 ≤ s.us then .next (s.setTstate link 1) else .next s

/-- SIGNAL_DETECT: signal on the lanes of the mask: DETECT ends (R416). -/
def execSignalDetect (link lanes : Nat) (s : State) : Out :=
  if s.tstate link = 1 ∧ lanes % 4 ≠ 0 then .next ((s.setTstate link 2).modLink link fun l => { l with lanes := lanes % 4 })
  else .next s

/-- TRAIN_FLIT: a partner's parameters arrive in PARAM (R415, R417, R418, R427). -/
def execTrainFlit (link : Nat) (data : List Byte) (s : State) : Out :=
  let s := s.capture 1 link data
  let word := leNat (data.take 8)
  if decide (s.tstate link ≠ 4) || decide (data.length ≠ 256) || decide (leNat (data.drop 248) ≠ crc64 (data.take 248)) ||
      decide ((FlitHead.of word).typ ≠ 4) then .next s
  else
    let t := Train.of (data.drop 8)
    if !s.trainOk link t then
      let s := s.setFld Fld.wlkStateMiswire 1 link
      .next (s.log 0x0501 5 link ((t.dev + t.sys * 1024) + t.link * 2 ^ 16))
    else
      let s := s.modLink link fun l => { l with resume := decide (l.partner = some (t.dev, t.sys, t.link)) }
      let s := s.sendTrain link true
      if t.pack then .next (s.enterActive link t) else .next s

/-- PARAM_TIMEOUT: a link held in PARAM goes OUT after 5 ms (R417). -/
def execParamTimeout (link : Nat) (s : State) : Out :=
  if s.tstate link = 4 ∧ (s.link link).since + 5000 ≤ s.us then .next (s.linkOut link) else .next s

/-- REUP_TIMER: a link degraded for REUP_S seconds makes a cold retrain; another follows after the same time (R420). -/
def execReupTimer (link : Nat) (s : State) : Out :=
  let p := s.fld Fld.wlkCtrlReupS link
  match (s.link link).degraded with
  | none => .next s
  | some t =>
    if p = 0 ∨ s.us < t + p * 1000000 ∨ s.tstate link ≠ 5 then .next s
    else .next ((s.modLink link fun l => { l with degraded := some s.us }).beginCold link)

/-- WLK_CTRL_FAST: WLK_CTRL.FAST is written (R416). -/
def execWlkCtrlFast (link : Nat) (s : State) : Out :=
  let s := s.fmInput 0 8 (2 ^ 16)
  .next (s.beginFast link)

/-- WLK_CTRL_COLD: WLK_CTRL.COLD is written (R416, R420). -/
def execWlkCtrlCold (link : Nat) (s : State) : Out :=
  let s := s.fmInput 0 8 (2 ^ 17)
  .next (s.beginCold link)

/-- WLK_CREDIT_WRITE: a division that keeps R405 and whose sum is at most 768 is taken, for the next PARAM; any other write is ignored and logged
(R405, R423). -/
def execWlkCreditWrite (link value : Nat) (s : State) : Out :=
  let s := s.fmInput 0 8 value
  let d := [bits value 0 10, bits value 16 10, bits value 32 10, bits value 48 10]
  if divisionOk d then .next (s.wr .wlkCredit link 0 value) else .next (s.logIgnored (0x300010 + 0x1000 * link) 0 value)

/-- FAST_REQ: the partner asks for a fast retrain (R414). -/
def execFastReq (link : Nat) (s : State) : Out := .next (s.beginFast link)

/-- COLD_REQ: the partner asks for a cold retrain (R414). -/
def execColdReq (link : Nat) (s : State) : Out := .next (s.beginCold link)

/-- LANE_SIGNAL_LOSS: a lane loses its signal or markers (R419, R420). -/
def execLaneSignalLoss (link lane : Nat) (s : State) : Out :=
  if s.tstate link = 5 ∨ s.tstate link = 6 then .next (s.loseLane link lane) else .next s

/-! ### The LINK_LOST exchange (R421) -/

/-- LINK_LOST: the partner tells the last flit it accepted of this device's link; what it did not take goes out again (R421). -/
def execLinkLost (link : Nat) (slot : List Byte) (s : State) : Out :=
  let k := leNat ((slot.drop 3).take 1) % 64
  let last := leNat ((slot.drop 4).take 2) % 4096
  let s := s.takeSlots link 0x0A slot
  let l := s.link k
  let p := l.partner.getD (s.partnerOf k)
  let name := leNat (slot.take 2)
  if decide (name ≠ p.1 + p.2.1 * 1024) || decide (leNat ((slot.drop 2).take 1) ≠ p.2.2) then .next s
  else if l.lostWait.isNone then .next (s.modLink k fun l => { l with early := some last })
  else .next (s.endLost k (lostAfter last l.lost))

/-- LINK_LOST_TIMEOUT: no LINK_LOST within 1 ms: the messages that were outstanding are discarded (R421). -/
def execLinkLostTimeout (link : Nat) (s : State) : Out :=
  match (s.link link).lostWait with
  | none => .next s
  | some t =>
    if s.us < t + 1000 then .next s
    else
      let s := (s.bump Fld.wlkErr2Lost 1 link).log 0x0503 5 link (s.link link).lost.length
      .next (s.endLost link [])

/-- TEST: a self-test message arrives; its body is discarded (R410, R422). -/
def execTest (link : Nat) (msg : List Byte) (s : State) : Out := .next (s.consume link 3 msg)

end Sys2Proof.Machine
end

