-- ==== Sys2Proof/Machine/ParityRx.lean ====
section
/-! DEFINITION. The parity holder's and the survivor's side of spec/17: applying deltas (R461 to R464), flash stripes at their holder (R465),
SOURCE messages and the stripe in hand of a rebuild (R473, R478), members and their states (R466, R468). -/

namespace Sys2Proof.Machine

/-! ### Applying a delta -/

/-- Bytes of a table of bytes changed by exclusive-or from `k` on. -/
def xorInto (m : SMap Byte) (k : Nat) (bs : List Byte) : SMap Byte := m.putN k (xorLists (m.getN k bs.length) bs)

/-- The first byte of sector `first` of the sector frame that holds an area's frame of a stripe with that role. -/
def State.frameByte (s : State) (area role stripe first : Nat) : Nat :=
  if area = 1 then 65536 * s.metaParity role stripe + 256 * first else 65536 * stripe + 256 * first

/-- The bit mask of all data indices. -/
def State.allIndices (s : State) : Nat := 2 ^ s.gk - 1

/-- A flash stripe's parity frame is programmed once no index is pending (R465 step 2); when every index is dead the P holder frees the stripe
(step 4). -/
def State.closeStripe (s : State) (stripe : Nat) : State :=
  let x := s.flashStripes.get stripe
  let key := frameKey (stripe % 32) (stripe / 32)
  let s :=
    if decide ((x.here ||| x.dead) &&& s.allIndices = s.allIndices) && !x.closed then
      let bs := s.flashPar.getN (65536 * stripe) 65536
      { s with flash := s.flash.putN (key * 65536) bs, flashPar := s.flashPar.drop fun k _ => decide (k / 65536 = stripe),
               frames := s.frames.upd key fun f => { f with used := true },
               flashStripes := s.flashStripes.put stripe { x with closed := true } }
    else s
  if x.dead &&& s.allIndices = s.allIndices then
    let slot := recoverySlot 9 0 s.holdId s.dev s.sys 2 0 stripe
    let s := if s.roleOf s.myPos 2 stripe = 16 then
        ((List.range s.gn).filter fun p => p ≠ s.myPos).foldl (fun s p => s.sendNotice 0x08 s.sys (s.memberId p) slot) s
      else s
    { s with flashStripes := s.flashStripes.put stripe default, frames := s.frames.upd key fun f => { f with used := false, stale := true } }
  else s

/-- An index of a flash stripe becomes live or dead at a holder (R465). -/
def State.markIndex (s : State) (stripe d : Nat) (dead : Bool) : State :=
  let x := s.flashStripes.get stripe
  let y : FlashStripe := { x with opened := true, since := if x.opened then x.since else s.us, here := if dead then x.here else x.here ||| 2 ^ d,
                                  dead := if dead then x.dead ||| 2 ^ d else x.dead }
  ({ s with flashStripes := s.flashStripes.put stripe y }).closeStripe stripe

/-- A delta is applied: by exclusive-or, scaled for Q (R461). -/
def State.applyDelta (s : State) (role area d stripe first : Nat) (bs : List Byte) : State :=
  let v := if role = 1 then rsScale (rsPow d) bs else bs
  if area = 2 then
    let s := { s with flashPar := xorInto s.flashPar (65536 * stripe + 256 * first) v }
    let x := s.flashStripes.get stripe
    let s := if x.opened then s else { s with flashStripes := s.flashStripes.put stripe { x with opened := true, since := s.us } }
    if 256 ≤ first + bs.length / 256 then s.markIndex stripe d false else s
  else
    let at' := s.frameByte area (16 + role) stripe first
    let s := { s with sectors := xorInto s.sectors at' v }
    s.alsoCopy area stripe first (s.sectors.getN at' v.length)

/-! ### Frames sent and received as SOURCE (R462, R473) -/

/-- The bytes of this device's frame of a stripe. A table-area frame's are private. -/
def State.frameBytes (s : State) (area stripe : Nat) : List Byte :=
  let role := s.roleOf s.myPos area stripe
  match area with
  | 0 => s.sectors.getN (65536 * stripe) 65536
  | 1 =>
    if 16 ≤ role then s.sectors.getN (65536 * s.metaParity role stripe) 65536
    else
      let x := s.metaFrame s.myPos stripe
      if x < 1024 then ((List.range 256).flatMap fun i => (Config.tableBytes (x * 256 + i) ++ zeroBytes 256).take 256)
      else (List.range 4096).flatMap fun i => (s.mapDram.get ((x - 1024) * 4096 + i)).bytes
  | _ =>
    if decide (16 ≤ role) && !(s.flashStripes.get stripe).closed then s.flashPar.getN (65536 * stripe) 65536
    else s.flash.getN (frameKey (stripe % 32) (stripe / 32) * 65536) 65536

/-- A metadata stripe where this device has no frame behind its data slot (R458). -/
def State.noFrame (s : State) (p area stripe : Nat) : Bool :=
  decide (area = 1) && decide (s.roleOf p area stripe < 16) && decide (s.fld Fld.protSizeF ≤ s.metaFrame p stripe)

/-- This device's frame of a stripe goes to a device. -/
def State.sendFrame (s : State) (dev area stripe : Nat) : State :=
  if s.noFrame s.myPos area stripe then s
  else s.sendSource dev area (s.roleOf s.myPos area stripe) stripe 18 0 (s.frameBytes area stripe)

/-- Bytes of the frame that position `pos` has in a stripe are written where this device holds it (R473, R479). -/
def State.putFrame (s : State) (pos area role stripe first : Nat) (bs : List Byte) : State :=
  match area with
  | 0 => { s with sectors := s.sectors.putN (65536 * stripe + 256 * first) bs }
  | 1 =>
    if 16 ≤ role then { s with sectors := s.sectors.putN (s.frameByte 1 role stripe first) bs }
    else
      let x := s.metaFrame pos stripe
      if x < 1024 then s
      else
        let page := (x - 1024) * 4096 + 16 * first
        (List.range (bs.length / 16)).foldl (fun (s : State) i =>
          { s with mapDram := s.mapDram.put (page + i) (PageEntry.ofBytes (bs.drop (16 * i))) }) s
  | _ => { s with flash := s.flash.putN (frameKey (stripe % 32) (stripe / 32) * 65536 + 256 * first) bs }

/-! ### The stripe in hand -/

/-- The stripe that a rebuild or a resync is at: the resync list first, then PROT_REBUILD. -/
def State.itemInHand (s : State) : Nat × Nat :=
  match s.resync with
  | x :: _ => x
  | [] => (s.fld Fld.protRebuildArea, s.fld Fld.protRebuildStripe)

/-- There is a stripe to rebuild or to compute again (R472, R473, R478). -/
def State.rebuildDue (s : State) : Bool := !s.resync.isEmpty || (s.rebuildOn && !s.rebuildOver)

/-- The members that can give frames: in service, and not this device. -/
def State.survivors (s : State) : List Nat := (List.range s.gn).filter fun p => s.memberIn p && decide (p ≠ s.myPos)

/-- LOCK or UNLOCK of a stripe goes to the survivors. -/
def State.lockNotice (s : State) (sub area stripe : Nat) : State :=
  s.survivors.foldl (fun s p => s.sendNotice 0x08 s.sys (s.memberId p) (recoverySlot sub 0 s.holdId s.dev s.sys area 0 stripe)) s

/-- The stripe in hand is locked and its sources are awaited. -/
def State.beginItem (s : State) : State :=
  let (a, x) := s.itemInHand
  ({ s with srcBytes := [], srcGot := [], rebuilding := true }).lockNotice 5 a x

/-- The whole frame of an index has come, or there is none behind its slot. -/
def State.hasSource (s : State) (area stripe i : Nat) : Bool :=
  decide (256 ≤ s.srcGot.get i) || (decide (i < 16) && s.noFrame (s.posOfIndex i area stripe) area stripe)

/-- The frame of an index as it came. -/
def State.source64k (s : State) (i : Nat) : List Byte := s.srcBytes.getN (i * 65536) 65536

/-- The frames of the data indices, those missing solved from P and Q (R460); none where too few came. -/
def State.solve (s : State) (area stripe : Nat) : Option (List (Nat × List Byte)) :=
  let ds := List.range s.gk
  let have' := fun d => s.hasSource area stripe d
  let known := (ds.filter have').map fun d => (d, s.source64k d)
  let p := xorLists (s.source64k 16) (paritySum false known)
  let q := xorLists (s.source64k 17) (paritySum true known)
  match ds.filter fun d => !have' d with
  | [] => some known
  | [a] =>
    if have' 16 then some ((a, p) :: known)
    else if s.gm = 2 ∧ have' 17 = true then some ((a, rsScale (rsInv (rsPow a)) q) :: known)
    else none
  | [a, b] =>
    if decide (s.gm = 2) && have' 16 && have' 17 then
      let c := rsInv (rsPow a ^^^ rsPow b)
      let x := rsScale c (xorLists q (rsScale (rsPow b) p))
      some ((a, x) :: (b, xorLists p x) :: known)
    else none
  | _ => none

/-- The frame of a role in a stripe, from the data frames. -/
def roleFrame (role : Nat) (ds : List (Nat × List Byte)) : List Byte :=
  if 16 ≤ role then paritySum (decide (role = 17)) ds else ((ds.find? fun x => x.1 = role).map (·.2)).getD []

/-! ### Members (R466, R467) -/

/-- The coordinator, and what the group's state is now: DEGRADED with a member ABSENT or FAILED, REBUILDING where a spare answers for one that
failed, else WHOLE. -/
def State.groupState (s : State) : State :=
  let ps := List.range s.gn
  let s := s.setFld Fld.protStateCoord ((ps.find? fun p => s.memberState p = 0).getD 0)
  if decide (s.fld Fld.protStateState < 2) || s.flag Fld.protEvacBusy then s
  else
    let bad := ps.filter fun p => s.memberState p = 1 ∨ s.memberState p = 2
    let re := bad.any fun p => decide (s.memberState p = 2) &&
      decide (s.aliasOf (s.memberId p) ≠ s.memberId (s.fld Fld.protStateCoord))
    s.setFld Fld.protStateState (if bad.isEmpty then 2 else if re then 4 else 3)

/-- A member changes its state: it is logged with the device that answers (R466). -/
def State.setMember (s : State) (p st : Nat) : State :=
  let d := s.memberId p
  let a := s.aliasOf d
  let s := (s.setFld Fld.protMemberState st p).setFld Fld.protMemberAlias (if a = d then 0 else a) p
  (s.log 0x0603 0 0 (p + st * 2 ^ 8 + a * 2 ^ 16)).groupState

/-- This device is the coordinator of its group. -/
def State.coordinates (s : State) : Bool :=
  s.grouped && decide (s.fld Fld.protStateCoord = s.fld Fld.protGroupPosition) && decide (s.memberState (s.fld Fld.protGroupPosition) = 0)

/-- A RECOVERY notice is flooded (R466, R472, R478). -/
def State.floodRecovery (s : State) (sub subject other : Nat) : State :=
  s.flood 0x08 (recoverySlot sub 0 subject other s.sys 0 0 0) (List.range 62)

/-- PSCAN fragments at an absent device go out again, once, under a new tag, and the first sending is cancelled (R476, R563). -/
def State.resendFrags (s : State) (d : Nat) : List (Nat × Part) → State
  | [] => s
  | (k, p) :: r =>
    let c := s.cmd p.cmd
    let s :=
      if p.live && !p.done && !p.again && decide (p.dev = d) && decide (p.sys = s.sys) && c.live && decide (Entry.op c.entry = 0x44) && c.part.isNone then
        let s := s.sendNotice 0x02 s.sys d (cancelSlot s.dev s.sys c.caller.fn c.epoch (partTag k))
        ({ s with parts := s.parts.put k default }).sendShare p.cmd c 0x03 p.sys d p.obj p.len p.off p.data true
      else s
    s.resendFrags d r

/-- A device answers for an id from now on: messages for the id go to it, pins to the id are deleted (R467); with itself the alias ends
(R480). -/
def State.setAlias (s : State) (d dst : Nat) : State :=
  { s with aliases := s.aliases.put d (if d = dst then none else some dst) }.putPins
    (s.pins.filter fun p => !(decide (p.dstSys = s.sys) && decide (p.dst = d)))

/-- ABSENT is applied: the proxy answers, and fragments at the absent device go out again (R466, R467, R476). -/
def State.applyAbsent (s : State) (d proxy : Nat) : State :=
  let s := s.setAlias d proxy
  let s := match s.posOf d with
    | some p => if s.memberState p = 2 then s else
        ({ s with absentAt := s.absentAt.put p (if s.memberState p = 1 then s.absentAt.get p else s.us) }).setMember p 1
    | none => s
  s.resendFrags d s.parts

/-- A device of this system is seen out of service or silent: a member becomes ABSENT, and the coordinator floods it with itself as proxy
(R466). -/
def State.seenOut (s : State) (d : Nat) : State :=
  match s.posOf d with
  | none => s
  | some p =>
    if !s.grouped || decide (s.memberState p ≠ 0) || s.devIn d || decide (d = s.dev) then s
    else
      let s := ({ s with absentAt := s.absentAt.put p s.us }).setMember p 1
      if s.coordinates then (s.floodRecovery 2 d s.dev).applyAbsent d s.dev else s

end Sys2Proof.Machine
end

