-- ==== Sys2Proof/Machine/Tenant.lean ====
section
/-! DEFINITION. The meanings of the tenant commands (spec/14): admission, keys, function and port resets, virtual functions, the fabric manager's
identity. -/

namespace Sys2Proof.Machine

/-! ### Functions of ports and attachments (R373) -/

/-- The split of a port. -/
def State.splitOf (s : State) (port : Nat) : Nat := s.fld Fld.tenPortSplit port

/-- Function index `f` is the PF of an attachment (R373). -/
def State.isPf (s : State) (f : Nat) : Bool :=
  decide (f < 256) && (match s.splitOf (f / 64) with
    | 0 => decide (f % 64 = 0)
    | 1 => decide (f % 32 = 0)
    | _ => decide (f % 16 = 0))

/-- TotalVFs of a port's PFs. -/
def State.totalVfs (s : State) (port : Nat) : Nat :=
  match s.splitOf port with
  | 0 => 63
  | 1 => 31
  | _ => 15

/-- The PF whose block of function numbers holds `f`. -/
def State.pfOf (s : State) (f : Nat) : Nat := f / (s.totalVfs (f / 64) + 1) * (s.totalVfs (f / 64) + 1)

/-- Attachment of a function: port × 4 + sub-port. -/
def State.attachOf (s : State) (f : Nat) : Nat := f / 64 * 4 + s.pfOf f % 64 / 16

/-- The PF of an attachment, where it exists. -/
def State.pfAt (s : State) (att : Nat) : Option Nat :=
  let f := att / 4 * 64 + att % 4 * 16
  if att < 16 ∧ s.isPf f = true then some f else none

/-- Existing VFs of a PF. -/
def State.vfsOf (s : State) (pf : Nat) : List Nat :=
  ((List.range (s.totalVfs (pf / 64))).map (pf + 1 + ·)).filter fun f => (s.fn f).present

/-! ### ADMIT, UPDATE, EXPEL (R123, R381, R382) -/

/-- An ADMIT command of op `sub`; an op above 2 is refused by the ADMIT row. A target under reset comes before every other refusal (R123). -/
def State.serveAdmit (s : State) (t sub : Nat) (work : Cmd → Nat → State → State) : Out :=
  s.serveFm t 0x81 fun c s =>
    let op := Entry.spec c.entry 40 1
    let f := Entry.spec c.entry 42 1
    if op = sub then (if (s.fn f).resetState ≠ 0 then s.finish t (Res.err .tenantReset) else work c f s)
    else if sub = 0 && decide (2 < op) then s.finish t (Res.err (if (s.fn f).resetState ≠ 0 then .tenantReset else .badField))
    else s

/-- The domain and blend set of an ADMIT or UPDATE are ones that a function can have. -/
def State.admitFields (s : State) (e : Nat) : Bool :=
  decide (Entry.spec e 48 8 ≠ 0) && (decide (Entry.specBits e 44 7 1 = 1) || decide ((s.dom (Entry.specBits e 44 0 6)).state ≠ .off))

/-- ADMIT: takes effect with its reply (R381). -/
def execAdmit (tag : Nat) (s : State) : Out :=
  s.serveAdmit tag 0 fun c f s =>
    if s.admittedNow f || !s.admitFields c.entry then s.finish tag (Res.err .badField) else s.finish tag {}

/-- UPDATE: takes effect with its reply (R381). -/
def execUpdate (tag : Nat) (s : State) : Out :=
  s.serveAdmit tag 2 fun c f s =>
    if !s.admittedNow f || !s.admitFields c.entry then s.finish tag (Res.err .badField) else s.finish tag {}

/-- Commands of function `f` accepted before `c` have not all ended; of the named function, those of the privileged queue do not count. -/
def State.expelWaits (s : State) (c : Cmd) (f : Nat) : Bool :=
  s.cmds.any fun e => e.2.live && e.2.origin.isNone && decide (e.2.fn = f) && decide (e.2.order < c.order) && decide (e.2.stage ≠ .done) &&
    !s.privSq e.2.sq

/-- EXPEL: the record is cleared at once, the reply follows the commands accepted before it (R381, R382). -/
def execExpel (tag : Nat) (s : State) : Out :=
  s.serveAdmit tag 1 fun c f s =>
    if c.stage = .accepted ∧ s.admittedNow f = false then s.finish tag (Res.err .badField)
    else
      let s := s.modFn f fun r => { r with admitted := false, domain := none }
      if s.expelWaits c f then s.modCmd tag fun c => { c with stage := .running, started := true } else s.finish tag {}

/-! ### Keys (R123, R180) -/

/-- A KEY_LOAD command of op `sub`; an op above 1 is refused by the LOAD row. -/
def State.serveKey (s : State) (t sub : Nat) (work : Cmd → Nat → State → State) : Out :=
  s.serveFm t 0x82 fun c s =>
    let e := c.entry
    let op := Entry.spec e 42 1
    let reset := decide (Entry.specBits e 45 0 1 = 0) && decide ((s.fn (Entry.spec e 44 1)).resetState ≠ 0)
    if op = sub then (if reset then s.finish t (Res.err .tenantReset) else work c (Entry.specBits e 40 0 10) s)
    else if sub = 0 && decide (1 < op) then s.finish t (Res.err (if reset then .tenantReset else .badField))
    else s

/-- The loaded bit of a key slot. -/
def State.keyLoaded (s : State) (slot v : Nat) : State :=
  s.wr .grdKeys (slot / 64) 0 (setBits (s.rd .grdKeys (slot / 64) 0) (slot % 64) 1 v)

/-- KEY_LOAD: the wrapped pair is unwrapped into an empty slot (R180). -/
def execKeyLoad (tag : Nat) (s : State) : Out :=
  s.serveKey tag 0 fun c slot s =>
    let e := c.entry
    if Entry.length e ≠ 72 ∨ (s.keys.get slot).loaded = true then s.finish tag (Res.err .badField)
    else match keyUnwrap Config.deviceKek (s.source c (Entry.hostBuf e) 72) with
      | none => s.finish tag (Res.err .badFormat)
      | some k =>
        let s := s.capture 4 slot []
        let r : KeySlot := { loaded := true, key1 := natsLe (k.take 32), key2 := natsLe (k.drop 32), owner := Entry.spec e 44 1,
                             fm := decide (Entry.specBits e 45 0 1 = 1) }
        (({ s with keys := s.keys.put slot r }).keyLoaded slot 1).finish tag {}

/-- An extent or stream in force is stored under a key slot. -/
def State.keyUsed (s : State) (slot : Nat) : Bool :=
  (s.extents.any fun x => decide (x.2.state ≠ .free) && x.2.enc && decide (x.2.key = slot)) ||
    s.streams.any fun x => decide (x.2.state ≠ .free) && x.2.enc && decide (x.2.key = slot)

/-- KEY_LOAD ERASE (R123). -/
def execKeyErase (tag : Nat) (s : State) : Out :=
  s.serveKey tag 1 fun c slot s =>
    if Entry.length c.entry ≠ 0 then s.finish tag (Res.err .badField)
    else if !(s.keys.get slot).loaded then s.finish tag (Res.err .alreadyFree)
    else if s.keyUsed slot then s.finish tag (Res.err .badField)
    else (({ s with keys := s.keys.put slot default }).keyLoaded slot 0).finish tag {}

/-! ### The reset order (R385) -/

/-- A command of a function under reset is left to run to its end, its reply discarded: a group 0x8_ command served here (R388), or one whose table
change has begun. It leaves its queue. -/
def State.detaches (s : State) (tag : Nat) : Bool :=
  let c := s.cmd tag
  decide (c.stage ≠ .done) && !(s.partsOf tag).any (fun p => p.2.whole) &&
    (decide (Entry.op c.entry / 16 = 8 ∧ c.stage = .running) || !s.abortable tag)

/-- Step 3 for one command: it is detached, or its work ends and it is forgotten. -/
def State.resetCmd (s : State) (tag : Nat) : State :=
  if s.detaches tag then s.modCmd tag fun c => { c with sq := 2 ^ 20 + 1 }
  else
    let s := s.endNow tag .aborted
    let s := (s.dropParts tag).dropAsks tag
    { s with cmds := s.cmds.put tag default }

/-- Step 3 for every command of a list. -/
def State.resetCmds (s : State) : List Nat → State
  | [] => s
  | t :: ts => (s.resetCmd t).resetCmds ts

/-- Devices on which commands of a list have unanswered work; group 0x8_ commands are not cancelled (R388). -/
def State.cancelTargets (s : State) (ts : List Nat) : List (Nat × Nat) :=
  ((s.parts.filter fun p => p.2.live && !p.2.done && decide (p.2.cmd ∈ ts) && decide (Entry.op (s.cmd p.2.cmd).entry / 16 ≠ 8) &&
    (decide (p.2.dev ≠ s.dev) || decide (p.2.sys ≠ s.sys))).map fun p => (p.2.sys, p.2.dev)).eraseDups

/-- Step 4: a cancel of every command of the function and epoch goes to each device of a list. -/
def State.sendCancels (s : State) (f epoch : Nat) : List (Nat × Nat) → State
  | [] => s
  | (y, d) :: ds => (s.sendNotice 0x02 y d (cancelSlot s.dev s.sys f epoch 0xFFFF)).sendCancels f epoch ds

/-- Step 3 for what the function holds: its trigger entries, DMA channels and Urn buffers are freed (R58, R277, R288). -/
def State.freeHeld (s : State) (f : Nat) : State :=
  let es := s.trigs.sel fun _ t => t.valid && !t.fm && decide (t.owner = f)
  let s := { s with trigs := s.trigs.drop fun k _ => decide (k ∈ es), batch := s.batch.filter fun x => x.entry ∉ es,
                    dueNext := s.dueNext.filter fun x => x.entry ∉ es }
  let s := (s.chansOf f).foldl (fun s ch => s.freeChan ch (some (f, s.chGen ch))) s
  (s.bufs.sel fun _ b => b.named && decide (b.owner = f)).foldl
    (fun (s : State) i => ({ s with bufs := s.bufs.upd i fun b => { b with resetBy := some (f, b.gen) } }).freeHandle i 0) s

/-- Steps 1 to 4 of the reset of one function (R385): `kind` 1 FLR, 2 port reset. That of the privileged function ends the staging of an image (R529). -/
def State.enterReset (s : State) (f kind : Nat) : State :=
  let old := (s.fn f).epoch
  let s := if s.isPriv f then s.dropStaging 6 else s
  let s := s.modFn f fun r => { r with resetState := kind, epoch := (r.epoch + 1) % 256, resetStart := s.us }
  let ts := s.liveCmds fun c => decide (c.fn = f)
  let ds := s.cancelTargets ts
  let s := { s with parts := s.parts.map fun (e : Nat × Part) => if e.2.cmd ∈ ts then (e.1, { e.2 with cancelled := true }) else e }
  let s := (s.freeHeld f).resetCmds ts
  (s.modFn f fun r => { r with cancels := ds.length }).sendCancels f old ds

/-- Steps 5 to 8 (R385). -/
def State.tearDown (s : State) (f : Nat) : State :=
  let s := { s with coal := s.coal.drop fun k _ => decide (k / 64 = f),
                    sqs := s.sqs.drop fun _ q => decide (q.owner = f), cqs := s.cqs.drop fun _ q => decide (q.owner = f),
                    cmds := (s.cmds : SMap Cmd).drop fun _ (c : Cmd) => decide (c.fn = f) && c.origin.isNone && decide (c.stage = Stage.done) }
  let s := (List.range 64).foldl (fun (s : State) v => s.wr .cmdVecCoal f v Reg.cmdVecCoal.resetValue) (s.resetPairs f)
  let s := (List.range 4).foldl (fun (s : State) k => (s.wr .cmdSqErr f k 0).wr .cmdCqErr f k 0) s
  let s := (s.wr .cmdAcqBase f 0 Reg.cmdAcqBase.resetValue).wr .cmdAcqCfg f 0 Reg.cmdAcqCfg.resetValue
  (s.setFld Fld.cmdFnStatusReady 0 f).modFn f fun r =>
    { r with msixEnable := false, msixMaskAll := false, vecUnmasked := 0, pba := 0, busMaster := false, ready := false, acqDeleting := false }

/-- Step 9: exit, its count, its duration and its event; a VF whose PF's VF Enable is clear ceases to exist (R385, R389, R391, R565). -/
def State.exitReset (s : State) (f : Nat) : State :=
  let r := s.fn f
  let us := max 1 (s.us - r.resetStart)
  let how := if r.resetState = 2 then 1 else if r.removed then 2 else 0
  let s := if how = 0 then s.bump Fld.tenFnStatFlr 1 f else if how = 1 then s.bump Fld.tenFnStatPerst 1 f else s
  let s := (s.setFld Fld.tenFlrTimeLastUs (min us (2 ^ 20 - 1))).setFld Fld.tenFlrTimeMaxUs (max (s.fld Fld.tenFlrTimeMaxUs) (min us (2 ^ 20 - 1)))
  let gone := decide (r.vf ≠ 0) && !(s.fn (s.pfOf f)).vfEnable
  let s := s.modFn f fun r => { r with resetState := 0, removed := false, cancels := 0, present := r.present && !gone }
  s.log 0x0202 1 f (us % 2 ^ 32 + how * 2 ^ 32)

/-- The reset of one function ends where its cancels have been answered and, of a PF, its VFs have left theirs (R389). -/
def State.tryExit (s : State) (f : Nat) : State :=
  let r := s.fn f
  if r.resetState = 0 ∨ r.cancels ≠ 0 ∨ (r.vf = 0 ∧ (s.vfsOf f).any (fun v => decide ((s.fn v).resetState ≠ 0)) = true) then s
  else (s.tearDown f).exitReset f

/-- The resets of a list of functions end where they can, and then those of their PFs. -/
def State.tryExits (s : State) (fs : List Nat) : State :=
  let s := fs.foldl State.tryExit s
  ((fs.map s.pfOf).eraseDups).foldl State.tryExit s

/-- Functions of a list enter a reset; one already under reset goes on with it, as a port reset where `kind` is 2 (R390). -/
def State.enterResets (s : State) (kind : Nat) : List Nat → State
  | [] => s
  | f :: fs =>
    (if (s.fn f).resetState = 0 then s.enterReset f kind
     else if kind = 2 then s.modFn f fun r => { r with resetState := 2, removed := false }
     else s).enterResets kind fs

/-- FLR: Initiate Function Level Reset is written (R385, R389). -/
def execFlr (f : Nat) (s : State) : Out :=
  let s := s.hostInput f []
  if !s.hostMay f || (decide ((s.fn f).vf ≠ 0) && decide ((s.fn (s.pfOf f)).resetState ≠ 0)) then .next s
  else
    let fs := (if (s.fn f).vf = 0 then s.vfsOf f else []) ++ [f]
    let s := if (s.fn f).vf = 0 then s.modFn f fun r => { r with vfEnable := false, numVfs := 0 } else s
    .next ((s.enterResets 1 fs).tryExits fs)

/-- FLR_CANCEL_TIMEOUT: 50 ms after step 4 began the reset goes on without the cancels still unanswered (R385). -/
def execFlrCancelTimeout (f : Nat) (s : State) : Out :=
  let r := s.fn f
  if decide (r.resetState = 0) || decide (r.cancels = 0) || decide (s.us < r.resetStart + 50000) then .next s
  else .next ((s.modFn f fun r => { r with cancels := 0 }).tryExits [f])

/-- A CANCEL_ACK of every command of a function and epoch is counted against the function's reset. -/
def State.resetAck (s : State) (f epoch : Nat) : State :=
  let r := s.fn f
  if r.resetState = 0 ∨ r.cancels = 0 ∨ (epoch + 1) % 256 ≠ r.epoch then s
  else (s.modFn f fun r => { r with cancels := r.cancels - 1 }).tryExits [f]

/-- PORT_RESET: every function of an attachment is reset, its SR-IOV settings cleared, its link down until PERST_RELEASE (R391). -/
def execPortReset (att : Nat) (s : State) : Out :=
  match s.pfAt att with
  | none => .next s
  | some pf =>
    if !(s.fn pf).present then .next s
    else
      let p := s.rd .tenPort (att / 4) 0
      let s := s.wr .tenPort (att / 4) 0 (setBits (setBits p (4 + att % 4) 1 0) (8 + att % 4) 1 1)
      let fs := s.vfsOf pf ++ [pf]
      let s := s.modFn pf fun r => { r with vfEnable := false, numVfs := 0 }
      .next ((s.enterResets 2 fs).tryExits fs)

/-- PERST_RELEASE: the attachment trains its link again (R391). -/
def execPerstRelease (att : Nat) (s : State) : Out :=
  match s.pfAt att with
  | none => .next s
  | some pf =>
    let p := s.rd .tenPort (att / 4) 0
    .next (s.wr .tenPort (att / 4) 0 (setBits (setBits p (4 + att % 4) 1 (b2n (s.fn pf).present)) (8 + att % 4) 1 0))

/-! ### Virtual functions (R374, R565) -/

/-- VF_ENABLE_SET: the VFs within NumVFs come to exist (R374). -/
def execVfEnableSet (pf : Nat) (s : State) : Out :=
  let s := s.hostInput pf []
  if !s.hostMay pf || !s.isPf pf || (s.fn pf).vfEnable then .next s
  else
    let n := (s.fn pf).numVfs
    let s := s.modFn pf fun r => { r with vfEnable := true }
    .next ((List.range n).foldl (fun (s : State) i =>
      s.modFn (pf + 1 + i) fun r => { r with present := true, vf := i + 1, attach := s.attachOf pf }) s)

/-- VF_ENABLE_CLEAR: the VFs go through the reset order and cease to exist (R565). -/
def execVfEnableClear (pf : Nat) (s : State) : Out :=
  let s := s.hostInput pf []
  if !s.hostMay pf || !s.isPf pf || !(s.fn pf).vfEnable then .next s
  else
    let fs := s.vfsOf pf
    let s := s.modFn pf fun r => { r with vfEnable := false }
    let s := fs.foldl (fun (s : State) f => if (s.fn f).resetState = 0 then s.modFn f fun r => { r with removed := true } else s) s
    .next ((s.enterResets 1 fs).tryExits fs)

/-- NUMVFS_WRITE: ignored while VF Enable is set and above TotalVFs (R374). -/
def execNumvfsWrite (pf n : Nat) (s : State) : Out :=
  let s := s.hostInput pf (leBytes 2 n)
  if !s.hostMay pf || !s.isPf pf || (s.fn pf).vfEnable || decide (s.totalVfs (pf / 64) < n) then .next s
  else .next (s.modFn pf fun r => { r with numVfs := n })

/-! ### The fabric manager's identity (R377, R379) -/

/-- The admin SQ of `f`, if it exists, is served by Barista `b`. -/
def State.moveAdmin (s : State) (f : Nat) (b : Option Nat) : State :=
  if (s.sqs.get f).state = .free then s else s.modSq f fun q => { q with barista := b.getD 0, orphan := b.isNone }

/-- TEN_FM takes a value: LOCAL follows, and the Baristas of the admin SQs of the old and the new function (R77, R377). -/
def State.setFm (s : State) (v : Nat) : State :=
  let old := s.privFn
  let s := s.wr .tenFm 0 0 v
  let here := decide (s.flag Fld.tenFmValid = true) && decide (s.fld Fld.tenFmDevid = s.dev)
  let pf := s.isPf (s.fld Fld.tenFmFunc)
  let s := s.setFld Fld.tenFmLocal (b2n (here && pf))
  let s := { s with fmNext := none }
  let s := match old with
    | some f => if s.privFn = some f then s else s.moveAdmin f (s.pickBarista 15)
    | none => s
  let s := match s.privFn with
    | some f => s.moveAdmin f (some 15)
    | none => s
  if here && !pf then s.log 0x010C 1 (s.fld Fld.tenFmFunc) (2 ^ 24) else s

/-- The privileged queue in force has no command in flight. -/
def State.privIdle (s : State) : Bool :=
  match s.privFn with
  | none => true
  | some f => !s.sqBusy f

/-- TEN_FM_WRITE: a new value comes from the management bus (`src` 1 or 2) or from the privileged function's BAR0 (`src` 0); it takes effect once the
privileged queue is idle (R379). -/
def execTenFmWrite (src value : Nat) (s : State) : Out :=
  let s := s.fmInput src 8 value
  if 2 < src ∨ (src = 0 ∧ s.privFn = none) then .next s
  else
    let s := { s with fmNext := some (value % 2 ^ 64) }
    .next (if s.privIdle then s.setFm (value % 2 ^ 64) else s)

/-- TEN_FM_HANDOVER: the privileged queue has fallen idle (R379). -/
def execTenFmHandover (s : State) : Out :=
  match s.fmNext with
  | none => .next s
  | some v => if s.privIdle then .next (s.setFm v) else .next s

end Sys2Proof.Machine
end

