-- ==== Sys2Proof/Machine/Messages.lean ====
section
/-! DEFINITION. The meanings of the messages and notices that devices send one another about commands and tables (spec/15, R410 to R413;
R126, R149, R198, R221, R254, R378, R387). -/

namespace Sys2Proof.Machine

/-! ### Arrival of a message (R409, R410) -/

/-- The bytes are a message of that kind for this device, or for an id that it answers for (R467). -/
def State.msgHere (s : State) (kind : Nat) (msg : List Byte) : Bool :=
  let h := MsgHead.of msg
  decide (16 ≤ msg.length) && decide (h.kind = kind) && decide (msg.length = 16 + 16 * h.len) &&
    s.forMe (selfMessage msg) h.sys h.dev

/-- A message row: the message is taken from its buffer and acted on; one that is not of that kind or not for this device is left alone. -/
def State.onMessage (s : State) (link kind : Nat) (msg : List Byte) (act : MsgHead → List Byte → State → State) : Out :=
  if s.msgHere kind msg then .next (act (MsgHead.of msg) (msgBody msg) (s.consume link (kindVc kind) msg)) else .next s

/-- Bytes of a body as a number. -/
def bodyNat (b : List Byte) (off n : Nat) : Nat := leNat ((b.drop off).take n)

/-- The origin of a message: device and 1024 times its system. -/
def MsgHead.origin (h : MsgHead) : Nat := h.orgDev + 1024 * h.orgSys

/-! ### CMD_FWD and WORK (R35, R127, R378, R410, R411) -/

/-- Opcodes that a device serves for another: whole commands, and parts. -/
def servedOps (part : Bool) : List Nat :=
  if part then [0x13, 0x14, 0x20, 0x21, 0x22, 0x31, 0x32, 0x41, 0x42, 0x44]
  else [0x05, 0x10, 0x11, 0x12, 0x13, 0x14, 0x20, 0x21, 0x22, 0x30, 0x31, 0x32, 0x33, 0x34, 0x40, 0x41, 0x42, 0x43, 0x44,
    0x80, 0x81, 0x82, 0x83, 0x84, 0x85, 0x86]

/-- The message carries the identity in TEN_FM (R378). -/
def State.fromFm (s : State) (sys dev fn : Nat) : Bool :=
  s.flag Fld.tenFmValid && decide (sys = s.sys) && decide (dev = s.fld Fld.tenFmDevid) && decide (fn = s.fld Fld.tenFmFunc)

/-- The deadline that a binding carries (R54, R410). -/
def boundBy (e : Nat) (b : List Byte) : Option Deadline :=
  let d := bodyNat b 66 1
  if Entry.dlMode e = 0 ∨ bit d 7 = true then none
  else some ⟨d % 64, bodyNat b 64 2, bits (Entry.deadline e) 16 16, bits (Entry.deadline e) 0 16⟩

/-- The command that a CMD_FWD or WORK brings. -/
def State.sentCmd (s : State) (h : MsgHead) (b : List Byte) (part : Bool) : Cmd :=
  let e := bodyNat b 0 64
  let dl := boundBy e b
  let home := bodyNat b 74 4
  { live := true, fn := h.fn, sq := 2 ^ 20 + 2, order := s.nextTag, entry := e, epoch := h.epoch, deadline := dl,
    missed := (match dl with
      | none => false
      | some d => s.deadlineMissed d),
    origin := some (h.origin, h.tag), caller := s.whoNamed (if home = 0 then h.origin else home - 1) h.fn, since := s.us, tier := h.tier,
    part := if part then some (bodyNat b 80 8, bodyNat b 88 8, bodyNat b 96 8) else none,
    proxy := if s.mine h.dev then none else some h.dev }

/-- A command sent here is accepted: refused where its opcode is not served (R411) or it is of group 0x8_ without the fabric manager's identity
(R378), else bound to the tables as it stands (R13, R128). -/
def State.takeCmd (s : State) (h : MsgHead) (b : List Byte) (part : Bool) : State :=
  let c := s.sentCmd h b part
  let op := Entry.op c.entry
  let t := s.nextTag
  let s := { s with nextTag := t + 1, cmds := s.cmds.put t c }
  if op ∉ servedOps part then s.finish t (Res.err .badOpcode)
  else if decide (op / 16 = 8) && !s.fromFm h.orgSys h.orgDev h.fn then
    (s.log 0x010C 1 h.fn (h.origin + op * 2 ^ 16)).finish t (Res.err .fmOnly)
  else if part then { s with cmds := s.cmds.put t (if op ∈ [0x13, 0x14, 0x41, 0x42] then s.bindTable c else c) }
  else
    let c := s.bindTable c
    ({ s with cmds := s.cmds.put t c }).acceptEffect t c

/-- CMD_FWD: a forwarded command arrives (R410). -/
def execCmdFwd (link : Nat) (msg : List Byte) (s : State) : Out := s.onMessage link 0x01 msg fun h b s => s.takeCmd h b false

/-- WORK: a part of a command's work arrives (R410). -/
def execWork (link : Nat) (msg : List Byte) (s : State) : Out := s.onMessage link 0x02 msg fun h b s => s.takeCmd h b true

/-! ### WRITE_DATA and BULK (R410, R461, R462, R473) -/

/-- The command that an origin sent here under a tag. -/
def State.cmdFrom (s : State) (origin tag : Nat) : Option (Nat × Cmd) :=
  s.cmds.find? fun e => e.2.live && decide (e.2.stage ≠ .done) && decide (e.2.origin = some (origin, tag))

/-- Data for a command with the message's origin and tag. -/
def State.takeData (s : State) (h : MsgHead) (b : List Byte) : State :=
  match s.cmdFrom h.origin h.tag with
  | none => s
  | some (t, c) => { s with cmds := s.cmds.put t { c with inData := c.inData ++ b } }

/-- WRITE_DATA: data for a WORK, or for a command forwarded whole, arrives (R410). -/
def execWriteData (link : Nat) (msg : List Byte) (s : State) : Out := s.onMessage link 0x03 msg fun h b s => s.takeData h b

/-- The answer of a parity holder to a delta (R461, R462). -/
def State.ackDelta (s : State) (h : MsgHead) (st : Status) (moved : Nat) : State :=
  s.sendMsg { s.recoveryHead h.orgDev h.tag with sys := h.orgSys, kind := 0x11 } (leBytes 1 st.code ++ zeroBytes 7 ++ leBytes 8 moved)

/-- A delta for a stripe whose parity this device holds: held under a LOCK or until its own frame has been rebuilt, else applied and acknowledged
(R461, R473). -/
def State.takeDelta (s : State) (link : Nat) (msg : List Byte) (h : MsgHead) (b : List Byte) : State :=
  let role := bodyNat b 0 1
  let area := bodyNat b 1 1
  let stripe := bodyNat b 4 8
  let n := bodyNat b 14 2
  if !s.grouped || decide (s.roleOf s.myPos area stripe ≠ 16 + role) then s
  else if (s.locks.get (areaKey area stripe)).isSome then { s with heldDeltas := s.heldDeltas ++ [(link, msg)] }
  else if s.awaiting area stripe then ({ s with heldDeltas := s.heldDeltas ++ [(link, msg)] }).wantStripe area stripe
  else (s.applyDelta role area (bodyNat b 2 1) stripe (bodyNat b 12 2) ((b.drop 32).take (256 * n))).ackDelta h .ok (256 * n)

/-- Bytes of a frame: for the stripe in hand of a rebuild (R473), or for the target of an evacuation (R479). -/
def State.takeSource (s : State) (h : MsgHead) (b : List Byte) : State :=
  let area := bodyNat b 1 1
  let d := bodyNat b 2 1
  let stripe := bodyNat b 4 8
  let first := bodyNat b 12 2
  let bs := (b.drop 32).take (256 * bodyNat b 14 2)
  if s.rebuilding ∧ s.itemInHand = (area, stripe) then
    { s with srcBytes := s.srcBytes.putN (d * 65536 + 256 * first) bs, srcGot := s.srcGot.upd d fun x => x + bodyNat b 14 2 }
  else if s.fld Fld.protSpareState = 1 then s.putFrame ((s.posOf h.orgDev).getD 0) area d stripe first bs
  else s

/-- A message of parity or rebuild: its header must pass its check (R462). -/
def State.takePiece (s : State) (link : Nat) (msg : List Byte) (h : MsgHead) (b : List Byte) : State :=
  if bodyNat b 20 4 ≠ crc32c (b.take 20) then s.ackDelta h .badFormat 0
  else if bodyNat b 0 1 = 2 then s.takeSource h b
  else s.takeDelta link msg h b

/-- BULK: PCOPY data for a tag, or a delta or frame of parity work (R410, R461, R462, R473). -/
def execBulk (link : Nat) (msg : List Byte) (s : State) : Out :=
  s.onMessage link 0x30 msg fun h b s => if h.devwork then s.takePiece link msg h b else s.takeData h b

/-! ### REPLY, PART_DONE and READ_DATA (R410, R387) -/

/-- A response belongs to the command as it stands: its epoch is the function's (R387). -/
def State.inEpoch (s : State) (h : MsgHead) (c : Cmd) : Bool :=
  c.live && decide (h.epoch = c.epoch) && (c.origin.isSome || decide (2 ^ 20 ≤ c.sq) || decide (c.epoch = (s.fn c.fn).epoch))

/-- What a whole command's answer changes at the caller's home: its lease index and its counts of refused frees (R137, R152). -/
def State.afterReply (s : State) (c : Cmd) (st : Status) (r0 : Nat) : State :=
  let op := Entry.op c.entry
  let a := Entry.object c.entry
  if c.origin.isSome then s
  else if st = .ok ∧ op = 0x10 then s.addLease c.caller ⟨s.devName (Addr.sys a) (Addr.dev a), a⟩
  else if st = .ok ∧ op = 0x30 then s.addLease c.caller ⟨s.devName (Addr.sys a) (Addr.dev a), r0⟩
  else if op = 0x11 ∨ op = 0x12 ∨ op = 0x34 then s.countFree c.caller st
  else s

/-- REPLY: the reply of a forwarded command arrives: the command ends with it (R410, R387). -/
def execReplyMsg (link : Nat) (msg : List Byte) (s : State) : Out :=
  s.onMessage link 0x10 msg fun h b s =>
    match s.partAt h.tag with
    | none => s
    | some (_, p) =>
      let c := s.cmd p.cmd
      if !p.whole || !s.inEpoch h c || decide (c.stage = .done) then s
      else
        let st := (Status.ofCode (bodyNat b 2 1)).getD .internal
        let s := (s.dropParts p.cmd).afterReply c st (bodyNat b 8 8)
        (s.finish p.cmd { status := st, r0 := bodyNat b 8 8, r1 := bodyNat b 16 8, part := bit (bodyNat b 3 1) 1 }).flushAcks

/-- The command of a part goes on: it ends where it was to end and every device has answered, and a PSCAN merges or fails (R109, R254, R255). -/
def State.partEnded (s : State) (tag : Nat) : State :=
  let c := s.cmd tag
  let s :=
    if c.abort then s.settleEnd tag
    else if c.live && decide (Entry.op c.entry = 0x44) && c.part.isNone && decide (c.stage = .running) then s.scanJoin tag c
    else s
  s.flushAcks

/-- A parity holder has answered a delta: it is done with, or sent again where its header came damaged (R461, R462). -/
def State.deltaAnswered (s : State) (h : MsgHead) (st : Nat) : State :=
  match s.deltas.find? fun e => e.2.live && decide (partTag e.1 = h.tag) with
  | none => s
  | some (k, d) =>
    if st = Status.badFormat.code then
      s.sendPiece d.pos (d.head % 256) d.area (bits d.head 8 8) d.stripe (d.head / 2 ^ 16) h.tag d.body
    else { s with deltas := s.deltas.put k default }

/-- PART_DONE: a part's answer arrives, or a parity holder's to a delta (R410, R254, R387, R461). -/
def execPartDone (link : Nat) (msg : List Byte) (s : State) : Out :=
  s.onMessage link 0x11 msg fun h b s =>
    if h.devwork then s.deltaAnswered h (bodyNat b 0 1)
    else match s.partAt h.tag with
    | none => s
    | some (k, p) =>
      if p.whole || p.done || !s.inEpoch h (s.cmd p.cmd) then s
      else
        let st := (Status.ofCode (bodyNat b 0 1)).getD .internal
        let q := { p with done := true, status := st, moved := bodyNat b 8 8, recs := b.drop 16, util := bodyNat b 2 1 }
        ({ s with parts := s.parts.put k q }).partEnded p.cmd

/-- Bytes that a forwarded command can return at most. -/
def returned (e : Nat) : Nat :=
  if Entry.op e = 0x42 then cmpAsked e
  else if Entry.op e ∈ [0x43, 0x44] then 16 * pressK e + 16
  else Entry.length e

/-- READ_DATA: data of a part arrives: of a forwarded command it goes on to the reader at once, else it waits in its part (R410). -/
def execReadData (link : Nat) (msg : List Byte) (s : State) : Out :=
  s.onMessage link 0x12 msg fun h b s =>
    match s.partAt h.tag with
    | none => s
    | some (k, p) =>
      let c := s.cmd p.cmd
      if p.done || !s.inEpoch h c then s
      else if p.whole then
        let bs := b.take (returned c.entry - p.moved)
        let s := { s with parts := s.parts.put k { p with moved := p.moved + bs.length } }
        s.deliver c (Entry.hostBuf c.entry + p.moved) bs
      else { s with parts := s.parts.put k { p with data := (p.data ++ b).take p.len } }

/-! ### Notices (R412, R413) -/

/-- The device at the other end of what a notice came by: a link, this device itself (64), or the origin of an envelope (65 and its name). -/
def State.sender (s : State) (link : Nat) : Nat × Nat :=
  if link < 64 then (s.fld Fld.wlkStatePartnerSys link, s.fld Fld.wlkStatePartnerDev link)
  else if link = 64 then (s.sys, s.dev)
  else ((link - 65) / 1024, (link - 65) % 1024)

/-- Every command of a list that can end does. -/
def State.cancelAll (s : State) : List Nat → State
  | [] => s
  | t :: ts => (if s.abortable t then s.endCommand t .aborted else s).cancelAll ts

/-- CANCEL: the named work ends, what was sent on is cancelled there, and the acknowledgement follows once all of it has ended (R413, R387). -/
def State.onCancel (s : State) (slot : List Byte) : State :=
  let x := (bodyNat slot 0 2, bodyNat slot 2 1, bodyNat slot 3 1, bodyNat slot 4 2)
  let ts := s.cmds.sel fun _ c => c.cancelled x && decide (c.stage ≠ .done)
  ((({ s with cancels := s.cancels ++ [x] }).cancelAll ts)).flushAcks

/-- CANCEL: a CANCEL slot arrives (R413). -/
def execCancel (link : Nat) (slot : List Byte) (s : State) : Out := .next ((s.takeSlots link 0x02 slot).onCancel slot)

/-- CANCEL_ACK: an acknowledgement of a reset's cancels is counted (R385); a part that was cancelled has ended there (R413). -/
def State.onCancelAck (s : State) (slot : List Byte) : State :=
  let tag := bodyNat slot 4 2
  if bodyNat slot 0 2 ≠ s.dev + 1024 * s.sys then s
  else if tag = 0xFFFF then s.resetAck (bodyNat slot 2 1) (bodyNat slot 3 1)
  else match s.partAt tag with
    | none => s
    | some (k, p) =>
      if p.done || !p.cancelled then s
      else ({ s with parts := s.parts.put k { p with done := true, status := .aborted } }).partEnded p.cmd

/-- CANCEL_ACK: a CANCEL_ACK slot arrives (R413). -/
def execCancelAck (link : Nat) (slot : List Byte) (s : State) : Out := .next ((s.takeSlots link 0x03 slot).onCancelAck slot)

/-- The leases on this device that `w` holds, as its home's index names them. -/
def State.leasesHeld (s : State) (w : Who) : List LeaseRef :=
  (s.extents.sel fun _ e => decide (e.state ≠ .free) && decide (e.claimant = w)).map (fun k => ⟨s.holdId, s.extentAddr k⟩) ++
    (s.streams.filter fun e => decide (e.2.state ≠ .free) && decide (e.2.opener = w)).map fun e =>
      ⟨s.holdId, Addr.seq s.sys s.holdId e.1 e.2.gen 0⟩

/-- REVOKE: the holder's lease, or all of them, end here, and their number is acknowledged to its home (R149, R151, R412). -/
def State.onRevoke (s : State) (slot : List Byte) : State :=
  let a := bodyNat slot 0 8
  let home := bodyNat slot 8 2
  let w := s.whoNamed home (bodyNat slot 10 1)
  let (s, n) := s.revokeHere ((s.leasesHeld w).filter fun r => decide (a = 0) || decide (r.addr = a))
  s.sendNotice 0x05 (home / 1024) (home % 1024) (slot16 (slot.take 14 ++ leBytes 2 n))

/-- REVOKE: a REVOKE slot arrives (R149). -/
def execRevoke (link : Nat) (slot : List Byte) (s : State) : Out := .next ((s.takeSlots link 0x04 slot).onRevoke slot)

/-- The table change, or revocation, that a tag of an acknowledgement names. -/
def State.askAt (s : State) (t : Nat) : Option (Nat × Ask) :=
  s.asks.find? fun e => e.2.live && e.2.status.isNone && decide (partTag e.1 = t)

/-- REVOKE_ACK: a holding device has revoked; its count goes into the SEIZE reply (R149). -/
def State.onRevokeAck (s : State) (slot : List Byte) : State :=
  match s.askAt (bodyNat slot 12 2) with
  | none => s
  | some (k, a) =>
    if a.code ≠ 0x100 then s else { s with asks := s.asks.put k { a with status := some .ok, count := bodyNat slot 14 2 } }

/-- REVOKE_ACK: a REVOKE_ACK slot arrives (R149). -/
def execRevokeAck (link : Nat) (slot : List Byte) (s : State) : Out := .next ((s.takeSlots link 0x05 slot).onRevokeAck slot)

/-! ### TABLE (R126, R130, R198, R221, R225, R231, R232) -/

/-- The acknowledgement of a TABLE notice. -/
def State.ackTable (s : State) (sys dev tag : Nat) (st : Status) : State :=
  s.sendNotice 0x07 sys dev (slot16 (nameBytes s.dev s.sys ++ leBytes 1 st.code ++ zeroBytes 1 ++ leBytes 2 tag))

/-- Chunks held here of the stream that an address names, below or from a token on, are to end; those that no read touches are freed at once
(R225, R231, R232). -/
def State.endChunks (s : State) (a : Nat) (p : Nat → Bool) : State :=
  let ks := s.chunksOf (Addr.dev a) (Addr.stream a) (Addr.gen a) p
  ks.foldl (fun (s : State) k =>
    let r := s.chunks.get k
    if s.chunkRead r.home r.stream r.chunk then { s with chunks := s.chunks.put k { r with doomed := true } } else s.freeChunk k) s

/-- A change that SOPEN, PARTITION or VOLUME makes in this device's tables. Of PARTITION and VOLUME it becomes a command of this device, whose
answer is the acknowledgement. -/
def State.applyTable (s : State) (sys dev tag e len : Nat) (w : Who) : State :=
  if Entry.op e = 0x30 then
    match s.sopenHere w e (Addr.dev (Entry.object e)) (len % 2 ^ 16) (len / 2 ^ 16) with
    | .ok s => s.ackTable sys dev tag .ok
    | .error st => s.ackTable sys dev tag st
  else
    let c : Cmd := { live := true, fn := w.fn, sq := 2 ^ 20 + 2, order := s.nextTag, entry := e, origin := some (dev + 1024 * sys, tag), caller := w,
                     since := s.us, table := some (0, len) }
    { s with nextTag := s.nextTag + 1, cmds := s.cmds.put s.nextTag c }

/-- TABLE: a change of this device's tables arrives (R126, R130, R147, R198, R221, R225, R231, R232). -/
def State.onTable (s : State) (link : Nat) (slot : List Byte) : State :=
  let (sys, dev) := s.sender link
  let e := bodyNat slot 0 64
  let tag := bodyNat slot 72 2
  let code := bodyNat slot 80 1
  let w := s.whoNamed (bodyNat slot 82 2) (bodyNat slot 81 1)
  let len := bodyNat slot 88 8
  let a := Entry.object e
  let ack := fun (s : State) => s.ackTable sys dev tag .ok
  match code with
  | 0 => s.applyTable sys dev tag e len w
  | 1 => ack (s.volUndo (Addr.vol a))
  | 2 => ack (s.setLength (Addr.vol a) len false)
  | 3 => ack (s.setLength (Addr.vol a) len true)
  | 4 => s.dropLease ⟨s.dev, w.fn⟩ ⟨s.devName (Addr.sys len) (Addr.dev len), len⟩
  | 5 => ack (s.endChunks a fun k => decide (4096 * (k + 1) ≤ len))
  | 6 => ack ((s.endChunks a fun k => decide (len ≤ 4096 * k)).zeroPast (Addr.dev a) (Addr.stream a) (Addr.gen a) len)
  | _ => s.ackTable sys dev tag .badField

/-- TABLE: a TABLE notice arrives (R126). -/
def execTable (link : Nat) (slot : List Byte) (s : State) : Out := .next ((s.takeSlots link 0x06 slot).onTable link slot)

/-- TABLE_ACK: the answer of one device to a table change (R126). -/
def State.onTableAck (s : State) (slot : List Byte) : State :=
  match s.askAt (bodyNat slot 4 2) with
  | none => s
  | some (k, a) =>
    if a.code = 0x100 ∨ a.dev ≠ bodyNat slot 0 2 % 1024 then s
    else { s with asks := s.asks.put k { a with status := some ((Status.ofCode (bodyNat slot 2 1)).getD .internal) } }

/-- TABLE_ACK: a TABLE_ACK slot arrives (R126). -/
def execTableAck (link : Nat) (slot : List Byte) (s : State) : Out := .next ((s.takeSlots link 0x07 slot).onTableAck slot)

end Sys2Proof.Machine
end

