-- ==== Sys2Proof/Machine/Protect.lean ====
section
/-! DEFINITION. The meanings of the protection commands (spec/17): forming a group, members lost and returned, spares, rebuild, flash stripes,
evacuation; SPARE (R123). -/

namespace Sys2Proof.Machine

/-! ### RECOVERY slots (R481) -/

/-- Sub-kind, subject and other device, area, data index and stripe of a RECOVERY slot. -/
def slotSub (b : List Byte) : Nat := bodyNat b 0 1
def slotSubject (b : List Byte) : Nat := bodyNat b 2 2 % 1024
def slotOther (b : List Byte) : Nat := bodyNat b 4 2 % 1024
def slotArea (b : List Byte) : Nat := bodyNat b 6 1
def slotIndex (b : List Byte) : Nat := bodyNat b 7 1
def slotStripe (b : List Byte) : Nat := bodyNat b 8 8

/-- A RECOVERY notice of a sub-kind: its slot is taken from the buffer and acted on; another sub-kind is left alone. -/
def State.onRecovery (s : State) (link sub : Nat) (slots : List Byte) (act : State → State) : Out :=
  if slotSub slots = sub then .next (act (s.takeSlots link 0x08 slots)) else .next s

/-- A flooded notice that came on a cross-shelf link goes on over the in-shelf links (R429, R481). -/
def State.floodOn (s : State) (link kind : Nat) (slots : List Byte) : State :=
  if crossShelf link then s.flood kind slots (List.range 31) else s

/-- A RECOVERY notice to every other member. -/
def State.tellMembers (s : State) (sub area d stripe : Nat) : State :=
  ((List.range s.gn).filter fun p => p ≠ s.myPos).foldl
    (fun s p => s.sendNotice 0x08 s.sys (s.memberId p) (recoverySlot sub 0 s.holdId s.dev s.sys area d stripe)) s

/-! ### Forming a group (R453, R454) -/

/-- The size check of JOIN: CRC-32C of PROT_SIZE and PROT_SIZE_FL (R454). -/
def State.sizeCheck (s : State) : Nat := crc32c (leBytes 8 (s.rd .protSize 0 0) ++ leBytes 8 (s.rd .protSizeFl 0 0))

/-- A JOIN slot of this device. -/
def State.joinSlot (s : State) (kept : Bool) : List Byte :=
  slot16 (leBytes 1 1 ++ leBytes 1 (b2n kept) ++ nameBytes s.dev s.sys ++ nameBytes s.dev s.sys ++ zeroBytes 2 ++ leBytes 4 s.sizeCheck)

/-- JOIN goes to every other member. -/
def State.sendJoins (s : State) (kept : Bool) : State :=
  ((List.range s.gn).filter fun p => s.memberId p ≠ s.dev).foldl (fun s p => s.sendNotice 0x08 s.sys (s.memberId p) (s.joinSlot kept)) s

/-- COMMIT is refused (R454). -/
def State.groupRefused (s : State) : Bool :=
  let ids := (List.range s.gn).map s.memberId
  let reserve := s.fld Fld.poolSectorsRsvRsv / 256
  decide ((ids.map (· / 32)).eraseDups.length ≠ ids.length) || !ids.contains s.dev || decide (ids.eraseDups.length ≠ ids.length) ||
    (s.owners.any fun e => e.2.isSome) || (s.partitions.any fun e => !e.2.isEmpty) || (s.volumes.any fun e => e.2.present) ||
    (s.streams.any fun e => decide (e.2.state ≠ .free)) || decide (reserve < 1024 + s.gm * s.metaRegion)

/-- The group forms once every other member's JOIN has come with an equal size check: SYNCING, the sector area zeroed (R454). -/
def State.tryForm (s : State) : State :=
  let others := ((List.range s.gn).map s.memberId).filter (· ≠ s.dev)
  if s.joining && others.all fun d => decide (s.joins.get d = some s.sizeCheck) then
    let s := { s with joining := false, joins := [], sectors := [], flashPar := [], flashStripes := [], dirty := [], lostFrames := [], absentAt := [] }
    let s := (List.range s.gn).foldl (fun (s : State) p => (s.setFld Fld.protMemberState 0 p).setFld Fld.protMemberAlias 0 p) s
    ((s.setFld Fld.protStateState 1).setFld Fld.protDirtyEntries 0).groupState
  else s

/-- WIDTH and the members' ids may be written: no group is formed, and no partition range and no volume exists (R482). -/
def State.groupOpen (s : State) : Bool :=
  decide (s.fld Fld.protStateState = 0) && !(s.owners.any fun e => e.2.isSome) && !(s.partitions.any fun e => !e.2.isEmpty) &&
    !s.volumes.any fun e => e.2.present

/-- PROT_COMMIT: PROT_GROUP is written with WIDTH and COMMIT (R453, R454, R482). -/
def execProtCommit (width : Nat) (s : State) : Out :=
  let s := s.fmInput 0 8 (width % 8 + 2 ^ 16)
  let s := if s.groupOpen then (s.setFld Fld.protGroupWidth (width % 8)).sizeParity
    else if width % 8 = s.fld Fld.protGroupWidth then s
    else s.logIgnored 0x400008 0 (width % 8 + 2 ^ 16)
  if s.fld Fld.protStateState ≠ 0 ∨ s.fld Fld.protGroupWidth = 0 then .next s
  else if s.groupRefused then .next ((s.setFld Fld.protStateMismatch 1).log 0x0604 0 0 0)
  else
    let s := s.setFld Fld.protGroupPosition ((s.posOf s.dev).getD 0)
    .next (({ s with joining := true }).sendJoins false).tryForm

/-- The stripes in this device's dirty list for a position: area and stripe. -/
def State.dirtyOf (s : State) (pos : Nat) : List (Nat × Nat) :=
  (s.dirty.filter fun e => decide (e.1 / 2 ^ 72 = pos)).map fun e => (e.1 % 2 ^ 72 / 2 ^ 64, e.1 % 2 ^ 64)

/-- DIRTY for every listed stripe of a position goes to its device (R478). -/
def State.sendDirty (s : State) (d : Nat) : List (Nat × Nat) → State
  | [] => s
  | (a, x) :: r => (s.sendNotice 0x08 s.sys d (recoverySlot 10 0 d s.dev s.sys a 0 x)).sendDirty d r

/-- A stripe leaves the dirty and lost lists of a position. -/
def State.cleanFrame (s : State) (pos area stripe : Nat) : State :=
  let k := frameOf pos area stripe
  let s := { s with dirty := s.dirty.put k false, lostFrames := s.lostFrames.put k false }
  s.setFld Fld.protDirtyEntries s.dirty.length

/-! ### Which device answers for an id (R467, R471, R472, R479, R480) -/

/-- The tables that this device held for another id go. -/
def State.dropTables (s : State) : State :=
  { s with extents := [], streams := [], volumes := [], owners := [], unitRecs := [], chunks := [], sinfo := [] }

/-- Numbers of a restored row. -/
def rowN (r : List Nat) (i : Nat) : Nat := r.getD i 0

/-- Grants in a restored row, three numbers each. -/
def grantsFrom : List Nat → List Grant
  | d :: f :: w :: r => ⟨⟨d, f⟩, decide (w = 1)⟩ :: grantsFrom r
  | _ => []

/-- The lease state of a restored row: 1 LIVE, 2 EXPIRED, 3 ORPHANED, 4 RELEASING. `fresh`: under the rules of R472. -/
def leaseFrom (fresh : Bool) (n : Nat) : LeaseState :=
  match n with
  | 1 => .live
  | 2 => if fresh then .orphaned else .expired
  | 3 => .orphaned
  | _ => .releasing

/-- A restored extent (R472): state, length, claimant, length of the lease and what was left of it in ms, hint, key slot, ENCRYPT, grants. -/
def extentFrom (fresh : Bool) (ms : Nat) (r : List Nat) : Extent :=
  { state := leaseFrom fresh (rowN r 0), len := rowN r 1, claimant := ⟨rowN r 2, rowN r 3⟩, leaseMs := rowN r 4,
    expiry := ms + (if fresh then rowN r 4 else rowN r 5), hint := rowN r 6, key := rowN r 7, enc := decide (rowN r 8 = 1),
    grants := if leaseFrom fresh (rowN r 0) = .orphaned then [] else grantsFrom (r.drop 9) }

/-- A restored stream (R472): its end is the last committed one, and no append waits. -/
def streamFrom (fresh : Bool) (ms : Nat) (r : List Nat) : Stream :=
  let st : StreamState := match leaseFrom fresh (rowN r 0) with
    | .live => .opened | .expired => .expired | .orphaned => .orphaned | _ => .closing
  { state := st, gen := rowN r 1, opener := ⟨rowN r 2, rowN r 3⟩, leaseMs := rowN r 4, expiry := ms + (if fresh then rowN r 4 else rowN r 5),
    hint := rowN r 6, key := rowN r 7, enc := decide (rowN r 8 = 1), rsize := rowN r 9, first := rowN r 10, last := rowN r 11,
    stripe := (r.drop 13).take (rowN r 12), grants := if st = .orphaned then [] else grantsFrom (r.drop (13 + rowN r 12)) }

/-- A restored volume entry. -/
def volumeFrom (r : List Nat) : Volume :=
  { present := true, length := rowN r 0, sealed := decide (rowN r 1 = 1), writer := ⟨rowN r 2, rowN r 3⟩,
    shadow := if rowN r 4 = 0 then none else some (rowN r 4 - 1), start := rowN r 5, planned := rowN r 0, stripe := (r.drop 7).take (rowN r 6),
    readers := (grantsFrom (r.drop (7 + rowN r 6))).map (·.who) }

/-- Page entries in a restored row, two numbers each. -/
def pagesFrom : List Nat → List PageEntry
  | a :: b :: r => PageEntry.ofBytes (leBytes 8 a ++ leBytes 8 b) :: pagesFrom r
  | _ => []

/-- A table filled from restored rows. -/
def fillFrom {β : Type} [Inhabited β] [DecidableEq β] (f : List Nat → β) (rows : List (Nat × List Nat)) : SMap β :=
  rows.foldl (fun m r => SMap.put m r.1 (f r.2)) []

/-- The tables of an id come into force on this device (R472); `fresh`: with the lease rules of a failure. -/
def State.restoreTables (s : State) (d : Nat) (fresh : Bool) : State :=
  let t := Config.restored d
  let s := { s with
    extents := fillFrom (extentFrom fresh s.ms) (t 0), streams := fillFrom (streamFrom fresh s.ms) (t 1), volumes := fillFrom volumeFrom (t 2),
    owners := fillFrom (fun r => some ⟨rowN r 0, rowN r 1⟩) (t 3),
    unitRecs := fillFrom (fun r => ⟨true, rowN r 0, pagesFrom (r.drop 1)⟩) (t 4),
    chunks := fillFrom (fun r => { present := true, home := rowN r 0, stream := rowN r 1, gen := rowN r 2, chunk := rowN r 3, rsize := rowN r 4,
                                   bases := r.drop 5 }) (t 5) }
  let s := { s with sinfo := s.streams.foldl (fun (m : SMap SInfo) (e : Nat × Stream) =>
    SMap.put m (d * 2 ^ 16 + e.1) { gen := e.2.gen, rsize := e.2.rsize, hint := e.2.hint, key := e.2.key, enc := e.2.enc }) s.sinfo }
  let s := (s.setFld Fld.libVolumesCount s.volumes.length).setFld Fld.seqStreamsOpen s.streams.length
  let s := s.setFld Fld.poolTablesExtentFree ((s.fld Fld.poolTablesExtentFree) - s.extents.length)
  s.setFld Fld.seqChunksFree (s.fld Fld.seqChunksFree - s.chunks.length)

/-- This device begins to rebuild the frames of an id (R472). -/
def State.beginRebuild (s : State) : State :=
  let s := { s with built := [], resync := [], rebuilding := false }
  ((s.setFld Fld.protRebuildArea 1).setFld Fld.protRebuildStripe 0).beginItem

/-- What ASSUME does on the device that answers from now on, and on the one that answered before (R472, R478 to R480). `moved`: the id was
evacuated, not failed. -/
def State.takeOver (s : State) (d x : Nat) (moved : Bool) : State :=
  if x = s.dev ∧ d = s.dev then (if moved then s.restoreTables d false else s.beginRebuild)
  else if x = s.dev then
    if s.fld Fld.protSpareState ≠ 1 then s
    else
      let s := s.setFld Fld.protSpareFor d
      if moved then
        ((((s.setFld Fld.protSpareState 3).setFld Fld.protRebuildArea 2).setFld Fld.protRebuildStripe (s.areaStripes 2)).restoreTables d false)
      else (s.setFld Fld.protSpareState 2).beginRebuild
  else if 2 ≤ s.fld Fld.protSpareState ∧ s.fld Fld.protSpareFor = d then
    ((s.dropTables.setFld Fld.protSpareState 1).setFld Fld.protSpareFor 0)
  else s

/-- ASSUME is applied: messages for the id go to the device named, and its member's state follows (R466, R467, R472, R479, R480). -/
def State.applyAssume (s : State) (d x : Nat) : State :=
  let old := (s.posOf d).map s.memberState
  let moved := decide (old = some 0 ∨ old = some 3)
  let s := s.setAlias d x
  let s := match s.posOf d with
    | none => s
    | some p => s.setMember p (if moved then (if x = d then 0 else 3) else 2)
  s.takeOver d x moved

/-- ASSUME: an ASSUME notice arrives (R472). -/
def execAssume (link : Nat) (slots : List Byte) (s : State) : Out :=
  s.onRecovery link 3 slots fun s => (s.floodOn link 0x08 slots).applyAssume (slotSubject slots) (slotOther slots)

/-- ABSENT: an ABSENT notice arrives (R466, R467, R476). -/
def execAbsent (link : Nat) (slots : List Byte) (s : State) : Out :=
  s.onRecovery link 2 slots fun s => (s.floodOn link 0x08 slots).applyAbsent (slotSubject slots) (slotOther slots)

/-- RETURN is applied: no alias, the member IN, nothing of it stale (R478). -/
def State.applyReturn (s : State) (d : Nat) : State :=
  let s := s.setAlias d d
  match s.posOf d with
  | none => s
  | some p =>
    let s := { s with dirty := s.dirty.drop fun k _ => decide (k / 2 ^ 72 = p), absentAt := s.absentAt.put p 0 }
    (s.setFld Fld.protDirtyEntries s.dirty.length).setMember p 0

/-- RETURN: a RETURN notice arrives (R478). -/
def execReturn (link : Nat) (slots : List Byte) (s : State) : Out :=
  s.onRecovery link 4 slots fun s => (s.floodOn link 0x08 slots).applyReturn (slotSubject slots)

/-- An ABSENT member is seen in service again: the coordinator floods RETURN (R478). -/
def State.seenIn (s : State) (d : Nat) : State :=
  match s.posOf d with
  | none => s
  | some p => if s.coordinates && decide (s.memberState p = 1) && s.devIn d then (s.floodRecovery 4 d s.dev).applyReturn d else s

/-- A member that JOINs again (R478): with its DRAM kept it is told its stale stripes; without, the coordinator declares it FAILED and it rebuilds
itself. -/
def State.rejoin (s : State) (d p : Nat) (kept : Bool) : State :=
  if kept then s.sendDirty d (s.dirtyOf p)
  else
    let s := if s.memberState p = 0 then s.setMember p 1 else s
    if s.coordinates then (s.floodRecovery 3 d d).applyAssume d d else s

/-- JOIN: a JOIN arrives (R454, R478). -/
def execJoin (link : Nat) (slots : List Byte) (s : State) : Out :=
  s.onRecovery link 1 slots fun s =>
    let d := slotSubject slots
    if s.fld Fld.protStateState = 0 then ({ s with joins := s.joins.put d (some (bodyNat slots 8 4)) }).tryForm
    else match s.posOf d with
      | none => s
      | some p => s.rejoin d p (bit (bodyNat slots 1 1) 0)

/-- GROUP_SYNC_DONE: every member has finished SYNCING (R454). -/
def execGroupSyncDone (s : State) : Out :=
  if s.fld Fld.protStateState = 1 then .next ((s.setFld Fld.protStateState 2).groupState) else .next s

/-! ### Deltas that are not answered (R464) -/

/-- DELTA_ACK_TIMEOUT: deltas of a stripe older than DELTA_MS are given up, and their holders' frames go stale (R464). -/
def execDeltaAckTimeout (stripe : Nat) (s : State) : Out :=
  let old := s.deltas.filter fun e => e.2.live && decide (e.2.stripe = stripe) &&
    decide (e.2.sent + 1000 * clamp 1 4095 (s.fld Fld.protCtrlDeltaMs) ≤ s.us)
  .next (old.foldl (fun (s : State) (e : Nat × Delta) => ({ s with deltas := s.deltas.put e.1 default }).markDirty e.2.pos e.2.area e.2.stripe) s)

/-! ### Failure (R471, R475) -/

/-- The spare that the coordinator names for a failed id: which READY spares there are, no notice tells it, so the device is free among those that
R471 allows. -/
def State.spareFor (s : State) (d : Nat) : Option Nat :=
  let x := s.free / 2 % 1024
  let ids := (List.range s.gn).map s.memberId
  let shelf := decide (x / 32 = d / 32) || !(ids.any fun i => decide (i / 32 = x / 32))
  if decide (s.free % 2 = 1) && shelf && !ids.contains x && s.devIn x then some x else none

/-- FAIL_TIMEOUT: a member has been ABSENT for FAIL_MS: the coordinator declares it FAILED and names a spare; with none it stays FAILED, and the
choice is made again (R471). -/
def execFailTimeout (pos : Nat) (s : State) : Out :=
  let d := s.memberId pos
  let due := decide (s.memberState pos = 1) &&
    decide (s.absentAt.get pos + 1000 * clamp 100 600000 (s.fld Fld.protCtrlFailMs) ≤ s.us)
  let again := decide (s.memberState pos = 2) && decide (s.aliasOf d = s.dev)
  if !s.coordinates || decide (s.gn ≤ pos) || !(due || again) then .next s
  else
    let s := if due then s.setMember pos 2 else s
    match s.spareFor d with
    | none => .next s.tookFree
    | some x => .next ((s.tookFree.floodRecovery 3 d x).applyAssume d x)

/-! ### Rebuild (R472 to R475, R478) -/

/-- Map entries `[k, k + n)` are written as poisoned pages of CODEC 0 (R169, R474). -/
def poisonEntries (m : SMap PageEntry) (k : Nat) : Nat → SMap PageEntry
  | 0 => m
  | n + 1 => poisonEntries (SMap.put m (k + n) { mapped := true, poison := true }) k n

/-- What a lost metadata frame of this device leaves: a table that could not be rebuilt, or poisoned map entries (R474). -/
def State.loseMeta (s : State) (x : Nat) : State :=
  if x < 1024 then s.log 0x0309 0 0 1 else { s with mapDram := poisonEntries s.mapDram ((x - 1024) * 4096) 4096 }

/-- This device has a metadata frame in a metadata stripe. -/
def State.holdsMeta (s : State) (stripe : Nat) : Bool := decide (s.roleOf s.myPos 1 stripe < 16) && !s.noFrame s.myPos 1 stripe

/-- A frame of this device cannot be rebuilt (R474): it is marked lost, counted and logged, and the members are told; map entries in it are
written as poisoned. -/
def State.loseFrame (s : State) (area stripe : Nat) : State :=
  let s := { s with lostFrames := s.lostFrames.put (frameOf s.myPos area stripe) true }
  let s := ((s.bump Fld.protStatLost).log 0x0602 0 0 (area * 2 ^ 8 + stripe * 2 ^ 64)).tellMembers 11 area 0 stripe
  if decide (area = 1) && s.holdsMeta stripe then s.loseMeta (s.metaFrame s.myPos stripe) else s

/-- Held deltas and writes of a stripe are released: its deltas are applied as they came (R473). -/
def State.releaseHeld (s : State) (area stripe : Nat) : State :=
  let here := fun (x : Nat × List Byte) => decide (bodyNat (msgBody x.2) 1 1 = area) && decide (bodyNat (msgBody x.2) 4 8 = stripe)
  let go := s.heldDeltas.filter here
  go.foldl (fun (s : State) (x : Nat × List Byte) => s.takeDelta x.1 x.2 (MsgHead.of x.2) (msgBody x.2))
    { s with heldDeltas := s.heldDeltas.filter fun x => !here x }

/-- The last stripe in the order of rebuild. -/
def State.lastStripe (s : State) : Nat × Nat := if s.areaStripes 2 = 0 then (0, s.areaStripes 0 - 1) else (2, s.areaStripes 2 - 1)

/-- The rebuild of the id's last stripe ends its time as FAILED: the spare has replaced it, or it has rebuilt itself (R466). -/
def State.rebuiltAll (s : State) (d : Nat) : State :=
  match s.posOf d with
  | none => s
  | some p => if s.memberState p = 2 then s.setMember p (if s.aliasOf d = d then 0 else 3) else s

/-- The rebuild moves on from the stripe in hand: to the next of those wanted out of order, else to the next in the order of R473. -/
def State.nextItem (s : State) : State :=
  match s.resync with
  | (a, x) :: r => { s with resync := r, built := if s.rebuildOn then s.built.put (areaKey a x) true else s.built }
  | [] =>
    let a := s.fld Fld.protRebuildArea
    let x := s.fld Fld.protRebuildStripe + 1
    if a = 0 ∧ s.areaStripes 0 ≤ x then (s.setFld Fld.protRebuildArea 2).setFld Fld.protRebuildStripe 0
    else s.setFld Fld.protRebuildStripe x

/-- The next stripe is begun, where one may be: metadata wait for the end of the restore once all of them are rebuilt. -/
def State.beginNext (s : State) : State :=
  let s := { s with rebuilding := false }
  let (a, x) := s.itemInHand
  if s.rebuildDue && decide (x < s.areaStripes a) then s.beginItem else s

/-- The stripe in hand is rebuilt from what came, or lost; its LOCK ends (R460, R473, R474). -/
def State.endItem (s : State) : State :=
  let (a, x) := s.itemInHand
  let role := s.roleOf s.myPos a x
  let (s, _) := s.chargeWork deviceAccount (s.fld Fld.protCtrlRebuildBlend) (65536 * s.gk)
  let s := match s.solve a x with
    | some ds => (s.putFrame s.myPos a role x 0 (roleFrame role ds)).cleanFrame s.myPos a x
    | none => s.loseFrame a x
  let s := (s.lockNotice 6 a x).nextItem
  let s := s.releaseHeld a x
  let s := if s.rebuildOn && decide ((a, x) = s.lastStripe) then s.rebuiltAll s.holdId else s
  s.beginNext

/-- STRIPE_REBUILD: the stripe in hand is begun, or ends once every survivor's frame has come (R473, R478). -/
def execStripeRebuild (s : State) : Out :=
  let (a, x) := s.itemInHand
  if !s.rebuildDue || decide (s.areaStripes a ≤ x) then .next s
  else if !s.rebuilding then .next s.beginItem
  else if s.survivors.all fun p => s.hasSource a x (s.roleOf p a x) then .next s.endItem
  else .next s

/-- SPARE_RESTORE_DONE: tables and map are restored: leases run again, the id is served, and its other frames follow (R472 to R474). -/
def execSpareRestoreDone (s : State) : Out :=
  if !s.rebuildOn || decide (s.fld Fld.protRebuildArea ≠ 1) || decide (s.fld Fld.protRebuildStripe < s.areaStripes 1) || !s.resync.isEmpty then .next s
  else
    let d := if s.fld Fld.protSpareState = 2 then s.fld Fld.protSpareFor else s.dev
    let s := s.restoreTables d true
    let s := if s.fld Fld.protSpareState = 2 then s.setFld Fld.protSpareState 3 else s
    .next ((s.setFld Fld.protRebuildArea 0).setFld Fld.protRebuildStripe 0).beginNext

/-- LOCK: a survivor holds what is new for a stripe and sends its frame (R473). -/
def execLock (link : Nat) (slots : List Byte) (s : State) : Out :=
  s.onRecovery link 5 slots fun s =>
    if !s.grouped then s
    else ({ s with locks := s.locks.put (areaKey (slotArea slots) (slotStripe slots)) (some (slotOther slots)) }).sendFrame (slotOther slots)
      (slotArea slots) (slotStripe slots)

/-- UNLOCK: what was held is released; the stripe's frame is rebuilt (R473). -/
def execUnlock (link : Nat) (slots : List Byte) (s : State) : Out :=
  s.onRecovery link 6 slots fun s =>
    let a := slotArea slots
    let x := slotStripe slots
    let d := slotSubject slots
    if !s.grouped then s
    else
      let s := { s with locks := s.locks.put (areaKey a x) none }
      let s := match s.posOf d with
        | some p => s.cleanFrame p a x
        | none => s
      let s := s.releaseHeld a x
      if (a, x) = s.lastStripe then s.rebuiltAll d else s

/-- LOST: a member reports a frame of its own lost (R474, R481). -/
def execLost (link : Nat) (slots : List Byte) (s : State) : Out :=
  s.onRecovery link 11 slots fun s =>
    match s.posOf (slotSubject slots) with
    | some p => { s with lostFrames := s.lostFrames.put (frameOf p (slotArea slots) (slotStripe slots)) true }
    | none => s

/-- DIRTY: a stale stripe of this returning member is to be computed again (R478). -/
def execDirty (link : Nat) (slots : List Byte) (s : State) : Out :=
  s.onRecovery link 10 slots fun s =>
    if !s.grouped || decide (slotSubject slots ≠ s.holdId) then s
    else (s.wantStripe (slotArea slots) (slotStripe slots))

/-! ### Flash stripes (R465) -/

/-- FLASH_STRIPE_CLOSE_TIMEOUT: a flash stripe pending for CLOSE_MS is sent WAIT by its P holder (R465 step 3). -/
def execFlashStripeCloseTimeout (stripe : Nat) (s : State) : Out :=
  let x := s.flashStripes.get stripe
  if !s.grouped || decide (s.roleOf s.myPos 2 stripe ≠ 16) || !x.opened || x.closed || decide ((x.here ||| x.dead) &&& s.allIndices = s.allIndices) ||
      decide (s.us < x.since + 1000 * clamp 10 65535 (s.fld Fld.protCtrlCloseMs)) then .next s
  else .next (s.tellMembers 7 2 0 stripe)

/-- RECOVERY_WAIT: a data member whose index is still free programs a zero pad frame there and sends DEAD (R465 step 3). -/
def execRecoveryWait (link : Nat) (slots : List Byte) (s : State) : Out :=
  s.onRecovery link 7 slots fun s =>
    let x := slotStripe slots
    let k := frameKey (x % 32) (x / 32)
    if !s.grouped || !s.holdsData 2 x || (s.frames.get k).used then s
    else
      let (t, l) := s.pickLun (x % 32)
      let s := { s.tookFree with frames := s.frames.put k { used := true, target := t, lun := l },
                                 flash := s.flash.drop fun b _ => decide (b / 65536 = k) }
      (s.setFld Fld.libFlashFree (s.fld Fld.libFlashFree - 1)).sendDead x

/-- DEAD: a data index of a flash stripe is dead at a parity holder (R465). -/
def execDead (link : Nat) (slots : List Byte) (s : State) : Out :=
  s.onRecovery link 8 slots fun s =>
    let x := slotStripe slots
    if s.grouped && decide (slotArea slots = 2) && decide (16 ≤ s.roleOf s.myPos 2 x) then s.markIndex x (slotIndex slots % 16) true else s

/-- FREE: every member frees its frame of a flash stripe whose data are all dead (R465 step 4). -/
def execFree (link : Nat) (slots : List Byte) (s : State) : Out :=
  s.onRecovery link 9 slots fun s =>
    let x := slotStripe slots
    let k := frameKey (x % 32) (x / 32)
    if !s.grouped then s
    else
      let s := if (s.frames.get k).used ∧ s.holdsData 2 x = true then s.setFld Fld.libFlashFree (s.fld Fld.libFlashFree + 1) else s
      { s with frames := s.frames.upd k fun f => { f with used := false, stale := f.stale || f.used },
               flashStripes := s.flashStripes.put x default }

/-! ### Evacuation (R479, R480) -/

/-- This device's frames of an area go to a device. -/
def State.copyArea (s : State) (dst area : Nat) : State := (List.range (s.areaStripes area)).foldl (fun s x => s.sendFrame dst area x) s

/-- PROT_EVAC_GO: a member begins to copy its frames to a spare, in the order of R472 and R473 (R479). -/
def execProtEvacGo (target : Nat) (s : State) : Out :=
  let s := s.fmInput 0 8 (target % 1024 + 2 ^ 15)
  let s := s.setFld Fld.protEvacTarget (target % 1024)
  if !s.grouped || s.flag Fld.protEvacBusy || decide (s.memberState s.myPos = 1 ∨ s.memberState s.myPos = 2) || s.rebuildDue then .next s
  else
    let s := (s.setFld Fld.protEvacBusy 1).setFld Fld.protStateState 5
    .next (((s.copyArea (target % 1024) 1).copyArea (target % 1024) 0).copyArea (target % 1024) 2)

/-- EVACUATION_DONE: the copy has ended: the member stops accepting commands; once those it had accepted have ended it floods ASSUME, and leaves
service, or, being a spare, is READY again (R479, R480). -/
def execEvacuationDone (s : State) : Out :=
  if !s.flag Fld.protEvacBusy then .next s
  else if s.cmds.any fun e => e.2.live then .next { s with draining := true }
  else
    let d := s.holdId
    let x := s.fld Fld.protEvacTarget
    let spare := decide (2 ≤ s.fld Fld.protSpareState)
    let old := s.unitState 6 0
    let s := (({ s with draining := false }).setFld Fld.protEvacBusy 0).setFld Fld.protStateState 2
    let s := (s.floodRecovery 3 d x).applyAssume d x
    if spare then .next s
    else
      let s := ((s.modUnit 6 0 fun u => { u with state := 0 }).setFld Fld.pwrStateService 0).log 0x0105 0 0 (old + 1 * 2 ^ 16)
      .next s.floodState

/-! ### SPARE (R123, R471) -/

/-- A SPARE command of op `sub`; an op above 1 is refused by the DESIGNATE row. -/
def State.serveSpare (s : State) (t sub : Nat) (work : State → State) : Out :=
  s.serveFm t 0x83 fun c s =>
    let op := Entry.spec c.entry 40 1
    if op = sub then work s
    else if sub = 0 && decide (1 < op) then s.finish t (Res.err .badField)
    else s

/-- DESIGNATE: this device becomes a hot spare of its shelf. How many others there are, no notice tells it: a free value (R123, R471). -/
def execDesignate (tag : Nat) (s : State) : Out :=
  s.serveSpare tag 0 fun s =>
    let others := s.free % 3
    if (s.owners.any fun e => e.2.isSome) || (s.unitRecs.any fun e => e.2.present) || (s.volumes.any fun e => e.2.present && e.2.stripe.contains s.dev) then
      s.finish tag (Res.err .badField)
    else if s.fld Fld.protSpareState ≠ 0 then
      (if s.fld Fld.protSpareState = 1 then s.tookFree.finish tag { r0 := s.free % 2 + 1 } else s.finish tag (Res.err .badField))
    else if others = 2 then s.tookFree.finish tag (Res.err .noSpace)
    else (s.tookFree.setFld Fld.protSpareState 1).finish tag { r0 := others + 1 }

/-- WITHDRAW: this device is a spare no more (R123). -/
def execWithdraw (tag : Nat) (s : State) : Out :=
  s.serveSpare tag 1 fun s =>
    if s.fld Fld.protSpareState ≠ 1 then s.finish tag (Res.err .badField)
    else (s.tookFree.setFld Fld.protSpareState 0).finish tag { r0 := s.free % 2 }

end Sys2Proof.Machine
end

