-- ==== Sys2Proof/Machine/PowerOps.lean ====
section
/-! DEFINITION. What the power and service rows share (spec/19): service states of units (R527), the device's own and its lease clock (R521, R522), OFF
(R511), the steps of a start (R513, R515, R518, R530, R531), device reset (R524, R525). -/

namespace Sys2Proof.Machine

/-! ### Service states (R124, R527, R528) -/

/-- The register that shows a unit's service state follows. A Barista has none. -/
def State.showService (s : State) (cls i st : Nat) : State :=
  match cls with
  | 0 => s.setFld Fld.drcStateService st i
  | 1 => s.setFld Fld.prsStateService st i
  | 2 =>
    if i < 64 then s.setFld Fld.grdLanesLo (setBits (s.fld Fld.grdLanesLo) i 1 (b2n (decide (2 ≤ st))))
    else s.setFld Fld.grdLanesHiHi (setBits (s.fld Fld.grdLanesHiHi) (i - 64) 1 (b2n (decide (2 ≤ st))))
  | 3 => s.setFld Fld.wlkStateService st i
  | 4 => s.setFld Fld.dmaEngStateService st i
  | 6 => s.setFld Fld.pwrStateService st
  | 7 => s.setFld Fld.libChStateService st i
  | _ => s

/-- A unit enters a service state: shown and logged as UNIT_STATE (R528); `ordered`: by the fabric manager, else by the device itself. -/
def State.moveUnit (s : State) (cls i new : Nat) (ordered : Bool) : State :=
  let old := s.unitState cls i
  let s := (s.modUnit cls i fun u => { u with state := new, ordered := if new = 0 then ordered else u.ordered }).showService cls i new
  if old = new then s else s.log 0x0105 (unitKind cls) i (old + new * 2 ^ 8 + b2n (!ordered) * 2 ^ 16)

/-- At the step into WARM every LIVE lease held here expires its granted length from now, and every EXPIRED one is ORPHANED (R522). -/
def State.wakeLeases (s : State) : State :=
  let gone := s.extents.filter fun e => decide (e.2.state = .expired)
  let s := { s with
    extents := s.extents.map fun (e : Nat × Extent) => (e.1, match e.2.state with
      | .live => { e.2 with expiry := s.ms + e.2.leaseMs }
      | .expired => { e.2 with state := .orphaned, grants := [] }
      | _ => e.2)
    streams := s.streams.map fun (e : Nat × Stream) => (e.1, match e.2.state with
      | .opened => { e.2 with expiry := s.ms + e.2.leaseMs }
      | .expired => { e.2 with state := .orphaned, grants := [] }
      | _ => e.2) }
  gone.foldl (fun (s : State) (e : Nat × Extent) =>
    s.log 0x0302 1 e.2.claimant.fn (e.2.claimant.dev + s.extentAddr e.1 * 2 ^ 64)) s

/-- The device enters a service state: its lease clock stops below WARM and runs from there on (R522), and LINK_STATE tells of it (R521). -/
def State.setDevice (s : State) (new : Nat) (ordered : Bool) : State :=
  let was := s.unitIn 6 0
  let s := s.moveUnit 6 0 new ordered
  let s := if new < 2 then { s with clockStop := some s.ms }
    else if was then s else ({ s with clockStop := none }).wakeLeases
  s.floodState

/-- A change of power state is logged, and sets CAUSE.POWER (R512). -/
def State.powerChange (s : State) (new : Nat) : State :=
  let old := s.fld Fld.pwrStateState
  ((s.setFld Fld.pwrStateState new).log 0x0103 0 0 (old + new * 2 ^ 8 + s.fld Fld.pwrCauseLast * 2 ^ 16)).attend 2

/-- The step of a UNIT_SERVICE that waits for a unit ends: its reply carries the prior state that it noted (R527). -/
def State.endStep (s : State) (cls i : Nat) (st : Status) (code : Nat) : State :=
  match (s.svc.get (unitKey cls i)).waiting with
  | none => s
  | some t =>
    let c := s.cmd t
    let s := s.modUnit cls i fun u => { u with waiting := none }
    if c.live then s.finish t { status := st, r0 := if st = .ok then c.reply.result0 else 0, r1 := code } else s

/-! ### The configuration area (R431, R507) -/

/-- What the configuration area would hold now. -/
def State.configNow (s : State) (seq : Nat) : NorConfig :=
  { seq := seq, fm := s.rd .tenFm 0 0, system := s.fld Fld.wlkSysSysid, order := s.fld Fld.drcMapNextOrder,
    hash := (List.range 5).map fun i => s.fld Fld.drcHashNextSel0Sel7 i, starts := s.lsCount }

/-- Copy A is the newer one. -/
def State.newerA (s : State) : Bool :=
  match s.norA, s.norB with
  | some a, some b => decide (b.seq ≤ a.seq)
  | some _, none => true
  | none, _ => false

/-- The valid copy with the higher sequence. -/
def State.config (s : State) : Option NorConfig := if s.newerA then s.norA else s.norB

/-- The older copy is written with the sequence advanced by one (R507). -/
def State.saveConfig (s : State) : State :=
  let c := s.configNow (match s.config with
    | some c => c.seq + 1
    | none => 1)
  if s.newerA then { s with norB := some c } else { s with norA := some c }

/-- The configuration loaded: TEN_FM, WLK_SYS, the next mapping, and the start count advanced by one; with no valid copy zeros and order 2, and
CONFIG_EMPTY (R431, R507). -/
def State.loadConfig (s : State) : State :=
  let c := s.config.getD { seq := 0, fm := 0, system := 0, order := 2, hash := [0, 0, 0, 0, 0], starts := 0 }
  let s := if s.config.isNone then s.log 0x0109 0 0 0 else s
  let s := ((s.wr .tenFm 0 0 c.fm).setFld Fld.tenFmLocal 0).setFld Fld.wlkSysSysid c.system
  let s := s.setFld Fld.drcMapNextOrder c.order
  let s := (List.range 5).foldl (fun (s : State) i => s.setFld Fld.drcHashNextSel0Sel7 (c.hash.getD i 0) i) s
  ({ s with lsCount := (c.starts + 1) % 256, lsSeq := 0 }).saveConfig

/-! ### Image slots (R529 to R531) -/

/-- A slot may be booted: its image verifies and meets MIN_SVN. -/
def State.slotOk (s : State) (n : Nat) : Bool := (s.fwSlot n).verified && decide (s.minSvn ≤ (s.fwSlot n).svn)

/-- PWR_FW_STAT and PWR_FW_VER show the slots. -/
def State.showFw (s : State) : State :=
  let s := (s.setFld Fld.pwrFwStatActive s.bootSlot).setFld Fld.pwrFwStatMinSvn s.minSvn
  let s := (s.setFld Fld.pwrFwStatSvnA s.slotA.svn).setFld Fld.pwrFwStatSvnB s.slotB.svn
  (s.setFld Fld.pwrFwVerAVersion s.slotA.version).setFld Fld.pwrFwVerBVersion s.slotB.version

/-- FW_ROLLBACK: the version rejected and the slot booted. -/
def State.rollBack (s : State) (rejected booted : Nat) : State :=
  ((s.setFld Fld.pwrFwStatRolledBack 1).setFld Fld.pwrFwStatTrial 0).log 0x0108 0 0 ((s.fwSlot rejected).version % 2 ^ 64 + booted * 2 ^ 64)

/-- A slot is booted outside a trial: the active one, else the other with FW_ROLLBACK, else none (R531). -/
def State.bootActive (s : State) : Option State :=
  let a := s.bootSlot
  if s.slotOk a then some s
  else if s.slotOk (1 - a) then some (({ s with bootSlot := 1 - a }).rollBack a (1 - a))
  else none

/-- The slot is chosen: a trial where one is due and its image verifies, else the active slot (R530, R531); none where no slot qualifies. -/
def State.pickImage (s : State) : Option State :=
  match s.trial with
  | none => s.bootActive.map State.showFw
  | some t =>
    if s.slotOk t then some (s.showFw.setFld Fld.pwrFwStatTrial 1)
    else ({ s with trial := none }).bootActive.map fun (s : State) => (s.rollBack t s.bootSlot).showFw

/-- The trial slot becomes the active one (R530). -/
def State.confirmTrial (s : State) : State :=
  match s.trial with
  | none => s
  | some t =>
    let s := { s with trial := none, bootSlot := t % 2 }
    ((s.setFld Fld.pwrFwStatTrial 0).setFld Fld.pwrFwStatActive (t % 2)).log 0x0107 0 0 ((s.fwSlot t).version % 2 ^ 64)

/-! ### The parts of the register store that survive -/

/-- Registers of the kinds listed, as they stand. -/
def State.onlyRegs (s : State) (rs : List Reg) : SMap (Option Word) := s.regs.filter fun e => (rs.map Reg.ord).contains (e.1 % 512)

/-! ### OFF (R511, R546) -/

/-- Registers kept through OFF: the standby domain's PWR_FAULT, what media management knows of LUNs, and of a parity group member its group's
configuration, without which it could not return as R517 says (DESIGN CHOICE, log entry 35). -/
def State.offRegs (s : State) : List Reg :=
  [.pwrFault] ++ (if s.fld Fld.protStateState = 0 then [] else [.protGroup, .protMember, .protCtrl, .protState])

/-- The main rails are gone: DRAM, Urn, key slots, queues and registers are lost; flash, SPI NOR and the standby domain remain (R511, R546). -/
def State.powerOff (s : State) : State :=
  let s := s.dropStaging 0
  let failed := (List.range 32).map fun ch =>
    s.fld Fld.libChStateFailed ch ^^^ (s.fld Fld.libChStateFailed ch &&& (s.svc.get (unitKey 7 ch)).marks)
  let t : State := { State.reset with
    pending := s.pending, regs := s.onlyRegs s.offRegs, us := s.us, freeCtr := s.freeCtr, out := s.out, hostMem := s.hostMem
    volumes := s.volumes.map fun (e : Nat × Volume) => (e.1, { e.2 with deleting := false, planned := e.2.length })
    unitRecs := s.unitRecs, frames := s.frames, chFrames := s.chFrames, flash := s.flash, lunFails := s.lunFails
    nextTag := s.nextTag, nextPart := s.nextPart, halted := s.halted, standby := s.standby, straps := s.straps, pwrgood := s.pwrgood
    faultN := s.faultN, thermtrip := s.thermtrip, spiHiz := s.spiHiz, norA := s.norA, norB := s.norB, slotA := s.slotA, slotB := s.slotB
    minSvn := s.minSvn, bootSlot := s.bootSlot, trial := s.trial, clockStop := some s.ms }
  (List.range 32).foldl (fun (t : State) ch => t.setFld Fld.libChStateFailed (failed.getD ch 0) ch) t

/-- PWR_FAULT records a rail. -/
def State.recordRail (s : State) (rail : Nat) : State := (s.setFld Fld.pwrFaultRailFault 1).setFld Fld.pwrFaultRail rail

/-! ### Steps of a start (R513) -/

/-- A start-up step's duration (PWR_STEP_US), a free value within its budget in µs. -/
def State.stepTime (s : State) (n budget : Nat) : State := s.tookFree.setFld Fld.pwrStepUsUs (1 + s.free % budget) (n - 4)

/-- The last step reached. -/
def State.atStep (s : State) (n : Nat) : State := s.setFld Fld.pwrStartStep n

/-- A failure exit: 1 RAIL, 2 PLL, 3 URN, 4 BOOT, 5 DRAM, 6 FLASH; the start stops and FAULT_N goes low (R515, R532, R558). -/
def State.failStart (s : State) (exit step : Nat) : State :=
  let s := (((s.atStep step).setFld Fld.pwrStartFail 1).setFld Fld.pwrStartExit exit)
  let s := if exit = 1 then s.recordRail 7 else if exit = 2 then s.setFld Fld.pwrFaultPllFault 1 else s
  ({ s with starting := none, faultN := true }).log 0x0102 0 0 (step + exit * 2 ^ 8)

/-- Step 3: the PLL locks at 1.2 GHz, GLB_CYCLE starts, the bus is served at the strapped address (R26, R484, R502). -/
def State.startPll (s : State) : State :=
  let s := ((s.setFld Fld.glbClkSpeed 2).setFld Fld.glbClkLock 1).setFld Fld.glbCycleCycle 0
  (s.setFld Fld.pwrMbStatusAddr (0x58 + s.straps % 8)).atStep 3

/-- Step 4: every Urn word is zero (R282). -/
def State.startUrn (s : State) : State :=
  (({ s with urn := [], urnPoison := [] }).setFld Fld.urnStatusCleared 1).stepTime 4 20 |>.atStep 4

/-- Step 5: an image is chosen and booted, the event log opens and the configuration is loaded; none where no slot qualifies (R513, R530, R531,
R536). At a cold start the ring opens empty. -/
def State.startBoot (s : State) : Option State := (({ s with evOpen := true }).pickImage).map fun (s : State) => (s.loadConfig.stepTime 5 300000).atStep 5

/-- The facts of a start, as COLD_START lists them (log entry 36): DIMMs of a channel, die density in Gb, ranks, lowest rated speed, a population that
R326 or R327 does not admit, a training step that failed thrice, the fast-boot record matches, frames of a flash channel, absent flash channels, the
failed Urn bank, attachments under PERST#, targets present. -/
def fact (pop : List Nat) (i : Nat) : Nat := pop.getD i 0

/-- Population check: R326 to R328 admit what is installed. -/
def populationOk (pop : List Nat) : Bool :=
  decide (fact pop 0 = 1 ∨ fact pop 0 = 2) && decide (fact pop 1 = 16 ∨ fact pop 1 = 32) && decide (fact pop 2 = 1 ∨ fact pop 2 = 2 ∨ fact pop 2 = 4) &&
    decide (4800 ≤ fact pop 3) && decide (fact pop 4 = 0)

/-- The speed code of R26 for R328's choice. -/
def speedCode (pop : List Nat) : Nat :=
  if 6400 ≤ fact pop 3 ∧ fact pop 0 = 1 then 0 else if 5600 ≤ fact pop 3 then 1 else 2

/-- The base-2 logarithm of 1, 2 or 4. -/
def log2of (n : Nat) : Nat := if n = 4 then 2 else if n = 2 then 1 else 0

/-- DRC_TRAIN shows the last training step that the controllers reached (R348). -/
def State.trainedTo (s : State) (step : Nat) : State :=
  (List.range 16).foldl (fun (s : State) c => (s.setFld Fld.drcTrainStep step c).setFld Fld.drcTrainFail 0 c) s

/-- A step failed on a channel, at a rank-subchannel and a lane: DRC_TRAIN of that channel (R348, R350). -/
def State.trainFailed (s : State) (c step index lane : Nat) : State :=
  (((s.trainedTo step).setFld Fld.drcTrainFail 1 c).setFld Fld.drcTrainIndex index c).setFld Fld.drcTrainLane lane c

/-- Step 6 where it succeeds: speed, channels, capacity, the mapping in force, the map and sectors of the installed DRAM; initialisation begins (R328, R331,
R347, R349). -/
def State.startDram (s : State) (pop : List Nat) : State :=
  let fast := s.flag Fld.drcFastbootEnable && decide (fact pop 6 = 1)
  let s := (List.range 16).foldl (fun (s : State) c =>
    (((s.setFld Fld.drcStateTrained 1 c).setFld Fld.drcStateDimms (fact pop 0) c).setFld Fld.drcStateRanks (log2of (fact pop 2)) c).setFld
      Fld.drcStateDensity (b2n (decide (fact pop 1 = 32))) c) (s.trainedTo 9)
  let s := { s with dramGib := 2 ^ s.capBits / 2 ^ 30, population := pop.take 4 }
  let s := (s.setFld Fld.glbClkSpeed (speedCode pop)).setFld Fld.drcMapOrder (s.fld Fld.drcMapNextOrder)
  let s := (List.range 5).foldl (fun (s : State) i => s.setFld Fld.drcHashSel0Sel7 (s.fld Fld.drcHashNextSel0Sel7 i) i) s
  let s := (s.setFld Fld.drcFastbootUsed (b2n fast)).setFld Fld.drcFastbootSaved 1
  let s := (s.setFld Fld.poolLogicalGib s.dramGib).countSectors
  ((s.setLayout).stepTime 6 (if fast then 100000 else 1100000)).atStep 6

/-- Step 6 of a cold start; none where it takes its exit, with the event that goes before it (R327, R328, R350). The fact of a failed training step is 1
more than its channel, slot, rank, step, lane (8 bits each) and subchannel. -/
def State.tryDram (s : State) (pop : List Nat) : Except State State :=
  if !populationOk pop then .error ((List.range 16).foldl (fun (s : State) c => s.setFld Fld.drcTrainFail 1 c) (s.trainedTo 1))
  else if fact pop 5 ≠ 0 then
    let x := fact pop 5 - 1
    let s := s.trainFailed (x % 16) (bits x 24 8) (8 * bits x 40 1 + 4 * (bits x 8 8 % 2) + bits x 16 8 % 4) (bits x 32 8)
    .error (s.log 0x0409 2 (x % 2 ^ 8) (bits x 8 8 + bits x 16 8 * 2 ^ 8 + bits x 24 8 * 2 ^ 16 + bits x 32 8 * 2 ^ 24))
  else .ok (s.startDram pop)

/-- Step 7: flash channels and targets, the frames free, the volume table (R186, R216). -/
def State.startFlash (s : State) (pop : List Nat) : State :=
  let n := fact pop 7
  let s := { s with chFrames := n }
  let s := (List.range 32).foldl (fun (s : State) ch =>
    let gone := bit (fact pop 8) ch || decide (fact pop 11 % 256 = 0)
    let s := (s.setFld Fld.libChStatePresent (if gone then 0 else fact pop 11) ch).setFld Fld.libChStateAbsent (b2n gone) ch
    if gone then s.log 0x040A 8 ch 0 else s) s
  let here := ((List.range 32).filter fun ch => !s.flag Fld.libChStateAbsent ch).length
  let used := (s.frames.filter fun e => e.2.used).length
  let s := (s.setFld Fld.libFlashFree (here * (n - n / 32) - used)).setFld Fld.libFlashReserve (here * (n / 32))
  let s := (s.setFld Fld.libVolumesCount s.volumes.length).setFld Fld.protSizeFlFrames n
  (s.stepTime 7 2000000).atStep 7

/-- Every attachment's physical function exists, and those whose PERST# is not asserted train their links (R373, R391, R513 step 6). -/
def State.startPorts (s : State) (perst : Nat) : State :=
  let s := (List.range 4).foldl (fun (s : State) p =>
    let b := bits s.straps (13 + 2 * p) 2
    s.setFld Fld.tenPortSplit (if b = 3 then 0 else b) p) s
  (List.range 16).foldl (fun (s : State) att =>
    match s.pfAt att with
    | none => s
    | some pf =>
      let s := s.modFn pf fun r => { r with present := true, attach := att }
      let p := s.rd .tenPort (att / 4) 0
      s.wr .tenPort (att / 4) 0 (setBits (setBits p (4 + att % 4) 1 (b2n (!bit perst att))) (8 + att % 4) 1 (b2n (bit perst att)))) s

/-- Every link with a mode that is not OUT begins to train (R426, R513 step 8, R514). -/
def State.startLinks (s : State) : State :=
  (List.range 64).foldl (fun (s : State) k =>
    if s.unitState 3 k = 0 ∨ (62 ≤ k ∧ s.linkMode k = 0) then s else s.setTstate k 1) s

/-- JOIN goes to the members that can be reached of those that it is due to (R478). -/
def State.tellJoin (s : State) : State :=
  let now := s.joinDue.filter fun p => s.reach s.sys (s.memberId p)
  let s := { s with joinDue := s.joinDue.filter fun p => !s.reach s.sys (s.memberId p) }
  now.foldl (fun s p => s.sendNotice 0x08 s.sys (s.memberId p) (s.joinSlot s.joinKept)) s

/-- Step 8 and the end of a start: identity, links, QUARANTINE, LINK_STATE, DEVICE_READY, JOIN, a trial confirmed, a step to QUARANTINE answered (R513,
R518, R524, R530). -/
def State.finishStart (s : State) (cold : Bool) : State :=
  let s := (s.setFld Fld.glbIdDevid (32 * bits s.straps 3 5 + bits s.straps 8 5)).setFld Fld.glbIdSysid (s.fld Fld.wlkSysSysid)
  let s := (s.startLinks.stepTime 8 50000).atStep 9
  let s := { (s.setFm (s.rd .tenFm 0 0)) with starting := none }
  let s := (s.modUnit 6 0 fun u => { u with test := some 0 }).setDevice 1 true
  let s := s.log 0x0101 0 0 (b2n cold)
  let s := if s.grouped then ({ s with joinDue := (List.range s.gn).filter fun p => s.memberId p ≠ s.dev, joinKept := !cold }).tellJoin else s
  (s.confirmTrial.attend 2).endStep 6 0 .ok 0

end Sys2Proof.Machine
end

