-- ==== Sys2Proof/Machine/DeviceReset.lean ====
section
/-! DEFINITION. Device reset (R523 to R525, R393) and management restart (R526). -/

namespace Sys2Proof.Machine

/-! ### Device reset -/

/-- Registers that a device reset keeps: the bus interface (R502), PWR_FAULT, PWR_START, PWR_STEP_US and PWR_CAUSE (R532, R533), the event log's
indices (R536), what R525 restores from the table area, the DRAM mapping in force and its progress (R331, R347), and those that show state which is kept. -/
def resetKeeps : List Reg :=
  [.glbId, .glbClk, .glbCycle, .pwrMbCtrl, .pwrMbStatus, .pwrMbStat, .pwrMbAttn, .pwrMbAttnLog, .pwrMbXcmd, .pwrMbXstat, .pwrMbXdata, .pwrFault, .pwrStart,
   .pwrStepUs, .pwrCause, .pwrState, .pwrFwStat, .pwrFwVerA, .pwrFwVerB, .evtProd, .evtCons, .poolLogical, .poolSectorsTotal, .poolSectorsFree,
   .poolSectorsRsv, .poolSpace, .poolTables, .poolRanges, .poolFnUse, .grdKeys, .libStageDram, .libFlash, .libVolumes, .libChState, .seqStreams,
   .seqChunks, .urnStatus, .drcState, .drcMap, .drcHash, .drcHashNext, .drcInit, .tenFm, .tenPort, .wlkSys, .protCtrl, .protGroup, .protState, .protSize,
   .protSizeFl, .protSpare, .protRebuild, .protDirty, .protMember]

/-- Every record of the write-back log is applied, oldest first (R178, R524 step 3). -/
def State.applyLog (s : State) : List LogRec → State
  | [] => { s with mapLog := [] }
  | r :: rs => (s.putEntry r.page r.entry).applyLog rs

/-- Sectors that waited under R19 are free: no command in flight reads them any more. -/
def State.freeOld (s : State) : List OldRun → State
  | [] => { s with oldRuns := [] }
  | r :: rs => (s.freeRun r.base).freeOld rs

/-- Deltas that no holder has acknowledged are given up (R464). -/
def State.giveUpDeltas (s : State) : State :=
  s.deltas.foldl (fun (s : State) (e : Nat × Delta) => s.markDirty e.2.pos e.2.area e.2.stripe) { s with deltas := [] }

/-- Steps 1 to 3: OUT, every function under reset, the log made durable (R521, R524). -/
def State.enterDeviceReset (s : State) : State :=
  let s := if s.unitState 6 0 = 0 then s else s.setDevice 0 true
  let s := s.enterResets 2 (s.fns.sel fun _ f => f.present)
  let s := s.applyLog s.mapLog
  (s.freeOld s.oldRuns).giveUpDeltas.dropStaging 6

/-- A function after a device reset: a physical function, without admission, domain and blends, its epoch as it is (R393). -/
def Fn.afterReset (f : Fn) : Fn :=
  if f.vf = 0 ∧ f.present = true then { present := true, attach := f.attach, epoch := f.epoch } else { epoch := f.epoch }

/-- A stream after a device reset: at its last committed end, with no append; one whose close had begun is ended by its home (R525). -/
def Stream.afterReset (r : Stream) : Stream :=
  { r with waiting := [], ordered := false, closer := none, state := if r.state = .closing then .orphaned else r.state }

/-- Step 4, logic reset: what R525 keeps, and everything else as after reset. A STEP that is being served stays, since its answer is due (R520). -/
def State.logicReset (s : State) : State :=
  let t : State := { State.reset with
    pending := s.pending, us := s.us, clockStop := s.clockStop, freeCtr := s.freeCtr, out := s.out, hostMem := s.hostMem, nextTag := s.nextTag
    nextPart := s.nextPart, regs := s.onlyRegs resetKeeps
    cmds := s.cmds.filter fun e => e.2.step && e.2.live
    fns := s.fns.map fun (e : Nat × Fn) => (e.1, e.2.afterReset)
    dramGib := s.dramGib, extents := s.extents, lindex := s.lindex, partitions := s.partitions, owners := s.owners
    mapDram := s.mapDram, alloc := s.alloc, sectors := s.sectors, keys := s.keys
    volumes := s.volumes.map fun (e : Nat × Volume) => (e.1, { e.2 with deleting := false, planned := e.2.length })
    unitRecs := s.unitRecs, frames := s.frames, chFrames := s.chFrames, flash := s.flash, lunFails := s.lunFails
    streams := s.streams.map fun (e : Nat × Stream) => (e.1, e.2.afterReset)
    chunks := s.chunks, sinfo := s.sinfo, urn := s.urn, urnPoison := s.urnPoison, svc := s.svc
    lsCount := s.lsCount, aliases := s.aliases, absentAt := s.absentAt, dirty := s.dirty, lostFrames := s.lostFrames, built := s.built
    deltaSeq := s.deltaSeq, flashStripes := s.flashStripes, flashPar := s.flashPar
    evRing := s.evRing, evOpen := s.evOpen, evSent := s.evSent, bus := s.bus, attn := s.attn, xfer := s.xfer
    standby := s.standby, straps := s.straps, pwrgood := s.pwrgood, faultN := s.faultN, thermtrip := s.thermtrip, spiHiz := s.spiHiz
    norA := s.norA, norB := s.norB, slotA := s.slotA, slotB := s.slotB, minSvn := s.minSvn, bootSlot := s.bootSlot, trial := s.trial
    population := s.population }
  t.svc.foldl (fun (t : State) (e : Nat × UnitSvc) => t.showService (e.1 / 2 ^ 16) (e.1 % 2 ^ 16) e.2.state) t

/-- A start is set afresh in PWR_START (R533). -/
def State.freshStart (s : State) (cold : Bool) : State := s.wr .pwrStart 0 0 (3 + b2n cold * 2 ^ 12)

/-- Attachments whose PERST# is asserted. -/
def State.perstMask (s : State) : Nat := (List.range 16).foldl (fun n a => n + b2n (bit (s.fld Fld.tenPortPerst (a / 4)) (a % 4)) * 2 ^ a) 0

/-- Steps 5 to 8 of a device reset: boot, DRAM out of self-refresh, restore, links. -/
def State.restartCore (s : State) : State :=
  match s.startBoot with
  | none => s.failStart 4 5
  | some s => ((((s.stepTime 6 1000).stepTime 7 500000).atStep 7).setLayout.startPorts s.perstMask).finishStart false
/-- A device reset: `last` is what PWR_CAUSE.LAST names. With a trial due the start's outcome is told by COLD_START or STARTUP_STEP_TIMEOUT (R523, R524,
R530). -/
def State.deviceReset (s : State) (last : Nat) : State :=
  let s := s.enterDeviceReset.logicReset.setFld Fld.pwrMbCtrlLock 0
  let s := ((s.setFld Fld.pwrCauseLast last).tally Fld.pwrCauseResets).freshStart false
  let s := (s.stepTime 4 1000).atStep 4
  if s.trial.isSome then { s.setFld Fld.pwrFwStatAttempts 0 with starting := some ⟨5, false⟩ } else s.restartCore

/-- A request for a device reset: ignored while a start runs, or where the core does not run; from a failure exit of steps 4 to 7 the sequence restarts from
step 4 and DRAM is not kept (R515, R523, R558). -/
def State.requestReset (s : State) (last : Nat) : State :=
  if s.starting.isSome || !s.pwrgood || s.halted || !s.flag Fld.glbClkLock then s
  else if s.flag Fld.pwrStartFail then
    if s.fld Fld.pwrStartExit < 3 then s
    else
      let s := ((s.setFld Fld.pwrCauseLast last).tally Fld.pwrCauseResets).freshStart true
      { s with faultN := false, starting := some ⟨4, true⟩ }
  else s.deviceReset last

/-! ### Management restart (R526) -/

/-- Commands of the privileged queue that were accepted and have not completed; those already sent to other devices run to their end there. -/
def State.privCmds (s : State) : List Nat := s.cmds.sel fun _ c => c.live && decide (c.stage ≠ .done) && c.origin.isNone && s.privSq c.sq

/-- A command of the privileged queue ends ABORTED; a group 0x8_ command that lies with another device runs to its end there, its answer not awaited. -/
def State.abortPriv (s : State) : List Nat → State
  | [] => s
  | t :: ts =>
    let c := s.cmd t
    let s := if Entry.op c.entry / 16 = 8 then ((s.dropParts t).dropAsks t).finish t (Res.err .aborted)
      else if s.abortable t then s.endNow t .aborted
      else s.finish t (Res.err .aborted)
    s.abortPriv ts

/-- A management restart: `why` 0 by request, 1 by the watchdog. FROZEN and HELD hold while it runs, which is inside this step (R16, R24). -/
def State.mgmtRestart (s : State) (why : Nat) : State :=
  let s := (s.setSeam 0 true).setSeam 3 true
  let s := ((s.setFld Fld.pwrCauseLast 5).tally Fld.pwrCauseMgmt).log 0x0104 0 0 why
  ((s.abortPriv s.privCmds).setSeam 0 false).setSeam 3 false

end Sys2Proof.Machine
end

