-- ==== Sys2Proof/Machine/Power.lean ====
section
/-! DEFINITION. The meanings of the power, start-up, reset and firmware commands (spec/19, spec/21). -/

namespace Sys2Proof.Machine

/-! ### Power states (R508 to R510) -/

/-- The core runs: rails up, PLL locked, not halted, no start in progress. -/
def State.coreUp (s : State) : Bool := s.pwrgood && s.flag Fld.glbClkLock && !s.halted && s.starting.isNone

/-- A TARGET write over the bus that LOCK turns away (R490, R533); `src` 0 BAR0, 1 and 2 the pairs. -/
def State.lockedOut (s : State) (src : Nat) : Bool := decide (src ≠ 0) && s.flag Fld.pwrMbCtrlLock

/-- A request for DOZE or SLEEP is accepted: in ON or DOZE, out of service, with no command in flight (R508). -/
def State.mayDoze (s : State) : Bool :=
  decide (s.fld Fld.pwrStateState ≤ 1) && decide (s.unitState 6 0 ≤ 1) && !s.cmds.any fun e => e.2.live

/-- Entry into DOZE: windows closed, every channel in self-refresh (R339, R509). -/
def State.enterDoze (s : State) : State :=
  if s.fld Fld.pwrStateState = 1 then s
  else ((List.range 16).foldl (fun (s : State) c => s.clearRefresh c) s).powerChange 1

/-- A link stops as SLEEP is entered; its partner is remembered for the exchange that follows (R421, R510). -/
def State.stopLink (s : State) (k : Nat) : State :=
  if s.tstate k = 0 then s
  else
    let p := if s.tstate k = 5 ∨ s.tstate k = 6 then some (s.partnerOf k) else (s.link k).partner
    (s.setTstate k 0).modLink k fun l => { l with partner := p, resume := false }

/-- Steps 2 and 3 of SLEEP: links stop, and every attachment is reset as by a port reset (R391, R510). -/
def State.stopAll (s : State) : State :=
  let s := (List.range 64).foldl State.stopLink s
  let fs := s.fns.sel fun _ f => f.present
  let s := s.fns.foldl (fun (s : State) (e : Nat × Fn) => s.modFn e.1 fun r => { r with vfEnable := false, numVfs := 0 }) s
  let s := (List.range 4).foldl (fun (s : State) p => s.setFld Fld.tenPortLinkUp 0 p) s
  (s.enterResets 2 fs).tryExits fs

/-- Step 5 of SLEEP: the PLL stops (R510). -/
def State.sleepNow (s : State) : State := ({ s with sleepHeld := false }.setFld Fld.glbClkLock 0).powerChange 2

/-- A transfer on the bus addresses the device. -/
def State.busTalks (s : State) : Bool := s.bus.any fun e => decide (e.2.role ≠ .none)

/-- A write of TARGET that is taken; one that is refused sets REFUSED and changes nothing else (R508). -/
def State.refuse (s : State) : State := s.setFld Fld.pwrStateRefused 1

/-- PWR_TARGET_DOZE (R508, R509). -/
def execPwrTargetDoze (src : Nat) (s : State) : Out :=
  let s := s.fmInput src 8 16
  if !s.coreUp || decide (s.fld Fld.pwrStateState = 2) || s.sleepHeld then .next s
  else if s.lockedOut src then .next (s.bump Fld.pwrMbStatDenied)
  else if s.mayDoze then .next ((s.setFld Fld.pwrStateTarget 1).enterDoze)
  else .next s.refuse

/-- PWR_TARGET_SLEEP: links and attachments stop, and the PLL once no transfer addresses the device (R508, R510). -/
def execPwrTargetSleep (src : Nat) (s : State) : Out :=
  let s := s.fmInput src 8 32
  if !s.coreUp || decide (s.fld Fld.pwrStateState = 2) || s.sleepHeld then .next s
  else if s.lockedOut src then .next (s.bump Fld.pwrMbStatDenied)
  else if s.mayDoze then
    let s := (s.setFld Fld.pwrStateTarget 2).enterDoze.stopAll
    .next (if s.busTalks then { s with sleepHeld := true } else s.sleepNow)
  else .next s.refuse

/-- The device leaves DOZE for ON (R509). -/
def State.leaveDoze (s : State) : State :=
  if s.fld Fld.pwrStateState = 1 ∧ s.sleepHeld = false then s.powerChange 0 else s

/-- PWR_TARGET_ON: accepted in DOZE, ignored in ON (R508). -/
def execPwrTargetOn (src : Nat) (s : State) : Out :=
  let s := s.fmInput src 8 0
  if !s.coreUp || decide (s.fld Fld.pwrStateState = 2) || s.sleepHeld then .next s
  else if s.lockedOut src then .next (s.bump Fld.pwrMbStatDenied)
  else .next (s.setFld Fld.pwrStateTarget 0).leaveDoze

/-- DOZE_WAKE: an access, doorbell, slot or transfer of R509 arrives in DOZE; what caused it is the next command. -/
def execDozeWake (_cause : Nat) (s : State) : Out := .next s.leaveDoze

/-- WAKE_N: held low for 1 µs in SLEEP, or while SLEEP is entered, it asks for a wake; outside SLEEP it is ignored (R557). -/
def execWakeN (s : State) : Out :=
  if s.fld Fld.pwrStateState = 2 ∨ s.sleepHeld = true then .next { s with waking := true } else .next s

/-- SLEEP_WAKE: a wake that was requested is carried out: PLL, Urn supply, DRAM, ON with the service state held at entry, links and attachments train
again (R351, R510). -/
def execSleepWake (_cause : Nat) (s : State) : Out :=
  if s.fld Fld.pwrStateState ≠ 2 ∨ s.waking = false then .next s
  else
    let s := (({ s with waking := false }.setFld Fld.glbClkLock 1).setFld Fld.pwrCauseLast 6).powerChange 0
    .next ((s.setFld Fld.pwrStateTarget 0).startLinks.startPorts s.perstMask)

/-! ### The rails and the standby domain (R513 steps 1 and 2, R544 to R554, R558) -/

/-- VSTBY_RISE: standby power-on reset, straps latched (R544, R554). -/
def execVstbyRise (straps : Nat) (s : State) : Out :=
  if s.standby then .next s else .next { s with standby := true, straps := straps % 2 ^ 21 }

/-- A cold start begins: the standby latches are released and PWR_START is set afresh (R533, R550, R558). -/
def State.beginCold' (s : State) : State :=
  { s.freshStart true with pwrgood := true, faultN := false, thermtrip := false, starting := some ⟨3, true⟩ }

/-- PWRGOOD_ASSERT: PWRGOOD is asserted with the main rails of the mask in range; with all seven, step 2 ends and the core starts, else the start waits in
step 2 for its budget (R513, R544, R545). -/
def execPwrgoodAssert (rails : Nat) (s : State) : Out :=
  if !s.standby || s.halted || s.pwrgood then .next s
  else if rails % 128 = 127 then .next s.beginCold'
  else .next { s with starting := some ⟨2, true⟩ }

/-- PWRGOOD_FALL: the device enters OFF at once (R511, R546); a halt ends with it (R550, R552). -/
def execPwrgoodFall (s : State) : Out := .next { s.powerOff with pwrgood := false, halted := false }

/-- RAIL_FAULT: a main rail leaves its range for 2 µs in service: OFF, FAULT_N, and the rail in PWR_FAULT (R532, R547). -/
def execRailFault (rail : Nat) (s : State) : Out :=
  if !s.pwrgood || s.halted then .next s
  else .next ({ s.powerOff with pwrgood := false, faultN := true }.recordRail (rail % 8))

/-- THERMTRIP: CCLK and every output stop, latched until PWRGOOD has gone and come again (R550). -/
def execThermtrip (s : State) : Out :=
  if !s.pwrgood then .next s else .next { s.powerOff with thermtrip := true, halted := true }

/-- PLL_LOCK_LOSS: in ON or DOZE, CCLK and every output stop as in OFF, FAULT_N goes low and PLL_FAULT is recorded (R532, R552). -/
def execPllLockLoss (s : State) : Out :=
  if !s.coreUp || decide (s.fld Fld.pwrStateState = 2) then .next s
  else .next ({ s.powerOff with faultN := true, halted := true }.setFld Fld.pwrFaultPllFault 1)

/-- VSTBY_FALL: the standby domain loses everything, and the main supply with it (R532, R554). -/
def execVstbyFall (s : State) : Out :=
  .next (({ s.powerOff with standby := false, straps := 0, pwrgood := false, halted := false, faultN := false, thermtrip := false }).wr .pwrFault 0 0 0)

/-- SPI_HIZ_N_CHANGE: low, the SPI lands are released and accesses wait; high, they go on (R559). -/
def execSpiHizNChange (level : Bool) (s : State) : Out := .next { s with spiHiz := !level }

/-! ### Start-up (R513, R515, R530) -/

/-- Steps 6 to 8 of a cold start on the facts of COLD_START. -/
def State.coldRest (s : State) (pop : List Nat) : State :=
  match s.tryDram pop with
  | .error s => s.failStart 5 6
  | .ok s => ((s.startFlash pop).startPorts (fact pop 10)).finishStart true

/-- Step 5 on, of a start whose first steps are done. -/
def State.coldBoot (s : State) (pop : List Nat) : State :=
  match s.startBoot with
  | none => s.failStart 4 5
  | some s => s.coldRest pop

/-- Step 4 on: the Urn is cleared, or the exit taken with the bank that would not verify (R282). -/
def State.coldUrn (s : State) (pop : List Nat) : State :=
  if fact pop 9 = 0 then s.startUrn.coldBoot pop
  else ((s.setFld Fld.urnStatusBankFail 1).setFld Fld.urnStatusFailedBank (fact pop 9 - 1)).failStart 3 4

/-- COLD_START: what is left of a start runs to QUARANTINE, or to the exit that the facts give (R513 to R518). After a device reset with a trial due only
steps 5 to 8 of the reset are left (R524, R530). -/
def execColdStart (population : List Nat) (s : State) : Out :=
  match s.starting with
  | none => .next s
  | some x =>
    if s.spiHiz || s.halted || decide (x.step < 3) then .next s
    else if !x.cold then .next s.restartCore
    else if x.step = 3 then .next (s.startPll.coldUrn population)
    else if x.step = 4 then .next (s.coldUrn population)
    else .next (s.coldBoot population)

/-- A trial attempt has failed: it is counted, and the start goes back to step 5; the third makes the device boot the previous slot (R530). -/
def State.trialFail (s : State) (x : Starting) (t : Nat) : State :=
  let n := s.fld Fld.pwrFwStatAttempts + 1
  let s := ((s.setFld Fld.pwrFwStatAttempts n).setFld Fld.pwrCauseLast 4).tally Fld.pwrCauseResets
  let s := { s with starting := some ⟨5, x.cold⟩, evOpen := true }
  if n < 3 then s else { s with trial := none }.rollBack t s.bootSlot

/-- The steps of a cold start before `step` that need no facts, as they stand when a later step fails. -/
def State.upTo (s : State) (x : Starting) (step : Nat) : Except State State :=
  let s := if x.step ≤ 3 ∧ 3 < step then s.startPll else s
  let s := if x.step ≤ 4 ∧ 4 < step then s.startUrn else s
  if x.step ≤ 5 ∧ 5 < step then (match s.startBoot with
    | none => .error (s.failStart 4 5)
    | some s => .ok s)
  else .ok s

/-- STARTUP_STEP_TIMEOUT: a step of the start in progress exceeds its budget: its failure exit, or a failed trial attempt (R513, R515, R530, R545). -/
def execStartupStepTimeout (step : Nat) (s : State) : Out :=
  match s.starting with
  | none => .next s
  | some x =>
    if step < x.step ∨ 7 < step ∨ (x.step = 2 ∧ step ≠ 2) then .next s
    else if step = 2 then .next (s.failStart 1 2)
    else
      let trial := if 5 ≤ step then s.trial.filter s.slotOk else none
      match trial with
      | some t => .next ((match (if x.cold then s.upTo x 5 else .ok s) with
          | .ok s => s
          | .error s => s).trialFail x t)
      | none =>
        match (if x.cold then s.upTo x step else .ok s) with
        | .error s => .next s
        | .ok s => .next (s.failStart (step - 1) step)

/-! ### Resets (R523, R526) -/

/-- CONFIRM must be 0xD5 in the same write; any other value is counted (R523). -/
def State.confirmed (s : State) (confirm : Nat) (act : State → State) : State :=
  if confirm = 0xD5 then act s else s.bump Fld.pwrStatBadConfirm

/-- PWR_RESET_DEVICE: PWR_RESET.DEVICE is written; `src` 0 BAR0, 1 and 2 the pairs. It is never locked (R490, R523, R524). -/
def execPwrResetDevice (src confirm : Nat) (s : State) : Out :=
  let s := s.fmInput src 8 (1 + confirm % 256 * 256)
  .next (s.confirmed confirm fun s => s.requestReset (if src = 0 then 2 else 3))

/-- PWR_RESET_MGMT: PWR_RESET.MGMT is written; over the bus it is subject to LOCK (R490, R526). -/
def execPwrResetMgmt (src confirm : Nat) (s : State) : Out :=
  let s := s.fmInput src 8 (2 + confirm % 256 * 256)
  if !s.coreUp then .next s
  else if s.lockedOut src then .next (s.bump Fld.pwrMbStatDenied)
  else .next (s.confirmed confirm fun s => s.mgmtRestart 0)

/-- BARISTA15_WATCHDOG: Barista 15 has reported no progress for 100 ms (R526). -/
def execBarista15Watchdog (s : State) : Out := if s.coreUp then .next (s.mgmtRestart 1) else .next s

/-! ### SPI NOR and firmware (R507, R529 to R531) -/

/-- CONFIG_WRITE: where TEN_FM, WLK_SYS, the next mapping or the start count differs from the newer copy, the older one is written (R507); it waits while
SPI_HIZ_N is low (R559). -/
def execConfigWrite (s : State) : Out :=
  if s.spiHiz || !s.coreUp then .next s
  else match s.config with
    | none => .next s.saveConfig
    | some c => if s.configNow c.seq = c then .next s else .next s.saveConfig

/-- What the check of an image reports (R529): facts are its part code, version, SVN, whether its signature verifies, and whether the read of it or the
programming of the slot failed. -/
def imageStatus (minSvn : Nat) (image : List Nat) : Nat :=
  if image.getD 4 0 ≠ 0 then 6
  else if image.getD 0 0 ≠ 0x4B59 then 5
  else if image.getD 3 0 ≠ 1 then 3
  else if image.getD 2 0 < minSvn then 4
  else if image.getD 5 0 ≠ 0 then 7
  else 2

/-- FW_STAGE: STAGE is set by the privileged function: an image goes to the slot that is not active. It is ignored while STATUS reads BUSY (R529). -/
def execFwStage (image : List Nat) (s : State) : Out :=
  let s := s.fmInput 0 8 1
  if !s.coreUp || decide (s.fld Fld.pwrFwStatStatus = 1) || s.privFn.isNone || s.spiHiz then .next s
  else
    let n := s.fld Fld.pwrFwLenBytes
    let r := if n = 0 ∨ 2 ^ 24 < n then 5 else imageStatus s.minSvn image
    let slot := 1 - s.bootSlot
    let x : FwSlot := { verified := decide (r = 2), svn := image.getD 2 0 % 2 ^ 16, version := image.getD 1 0 % 2 ^ 64 }
    .next ({ s with staging := some ⟨slot, r, x⟩ }.setFld Fld.pwrFwStatStatus 1)

/-- FW_STAGE_DONE: staging ends and STATUS tells how (R529). -/
def execFwStageDone (s : State) : Out :=
  match s.staging with
  | none => .next s
  | some g =>
    if s.spiHiz then .next s
    else
      let s := { s with staging := none }
      let s := if g.result = 2 then s.putImage g.slot g.image else if g.result = 7 then s.putImage g.slot {} else s
      .next (s.showFw.setFld Fld.pwrFwStatStatus g.result)

/-- FW_ACTIVATE: the slot in SLOT boots as a trial at the next start; a slot without a verified image of an SVN of MIN_SVN or more is ignored and logged
(R530). -/
def execFwActivate (s : State) : Out :=
  let s := s.fmInput 0 8 2
  let n := s.fld Fld.pwrFwCtrlSlot
  if !s.coreUp then .next s
  else if s.slotOk n && decide (s.staging.map (·.slot) ≠ some n) then .next ({ s with trial := some n }.setFld Fld.pwrFwStatAttempts 0)
  else .next (s.logIgnored 0x480050 0 (2 + n * 2 ^ 8))

/-- FW_COMMIT_SVN: MIN_SVN rises to the SVN of the active image; it never falls (R531). -/
def execFwCommitSvn (s : State) : Out :=
  let s := s.fmInput 0 8 4
  if !s.coreUp then .next s
  else .next ({ s with minSvn := max s.minSvn (s.fwSlot s.bootSlot).svn }.showFw)

end Sys2Proof.Machine
end

