-- ==== Sys2Proof/Machine/BusOps.lean ====
section
/-! DEFINITION. The management bus (spec/18): the pairs' states, attention (R496, R497), the controller's transfers (R494, R495), recovery and dead
pairs (R503 to R505). -/

namespace Sys2Proof.Machine

/-- One pair's record is changed. -/
def State.modBus (s : State) (p : Nat) (g : BusPair → BusPair) : State := { s with bus := s.bus.upd p g }

/-- A pair's record. -/
def State.busPair (s : State) (p : Nat) : BusPair := s.bus.get p

/-- The bus interface serves transfers: PLL locked, so neither OFF nor SLEEP nor early start-up (R502). -/
def State.busUp (s : State) : Bool := s.pwrgood && s.flag Fld.glbClkLock && !s.halted

/-- The interface serves pair `p`: it is one of the two, and alive. -/
def State.pairUp (s : State) (p : Nat) : Bool := s.busUp && decide (p < 2) && decide ((s.busPair p).state ≠ .dead)

/-- The device's own target address (R484). -/
def State.busAddr (s : State) : Nat := 0x58 + s.straps % 8

/-- The pair state shown in PWR_MB_STATUS: 0 alive, 1 recovering, 2 dead; a change sets CHANGED. -/
def State.showPair (s : State) (p v : Nat) : State :=
  let f := if p = 0 then Fld.pwrMbStatusPair0 else Fld.pwrMbStatusPair1
  if s.fld f = v then s else (s.setFld f v).setFld Fld.pwrMbStatusChanged 1

/-! ### Attention (R496, R497) -/

/-- The pair is alive and idle. -/
def State.pairIdle (s : State) (p : Nat) : Bool := s.pairUp p && decide ((s.busPair p).state = .idle)

/-- Attention can be signalled now: pending, and the device in ON, or in DOZE, where the bus behaves as in ON (R496, R500, R501). -/
def State.mayCall (s : State) : Bool := s.busUp && s.attnPending && decide (s.fld Fld.pwrStateState ≠ 2)

/-- SDA of a pair is held for 100 µs; the signal ends then (R496). -/
def State.callOn (s : State) (p : Nat) : State := ({ s with attn := { s.attn with last := some (s.us + 100) } }).emit (.busHold p)

/-- MB_ATTENTION_SIGNAL: attention pending and the pair idle (R496); a signal that another controller's START cut short comes again as this row (R498). -/
def execMbAttentionSignal (pair : Nat) (s : State) : Out :=
  if s.mayCall && s.pairIdle pair then .next (s.callOn pair) else .next s

/-- ATTENTION_BACKOFF: not served within the interval after the last signal: signalled again on every idle pair, the interval doubled up to 100 ms (R496). -/
def execAttentionBackoff (s : State) : Out :=
  match s.attn.last with
  | none => .next s
  | some t =>
    if !s.mayCall || decide (s.us < t + s.attn.interval) then .next s
    else
      let n := min 100000 (2 * s.attn.interval)
      let s := { s with attn := { s.attn with interval := n } }
      .next ((List.range 2).foldl (fun (s : State) p => if s.pairIdle p then s.callOn p else s) s)

/-- Attention is served: the address byte went out whole (R497). -/
def State.attnServed (s : State) : State := { s with attn := { served := true, last := none, interval := 1000 } }.attnShow

/-- The device itself holds SDA for attention. -/
def State.calling (s : State) : Bool :=
  match s.attn.last with
  | none => false
  | some t => decide (s.us ≤ t)

/-- One caller that a poll found: recorded and logged (R499). -/
def State.logCaller (s : State) (p addr : Nat) : State :=
  let s := (s.setFld Fld.pwrMbAttnLogLast (addr % 128)).setFld Fld.pwrMbAttnLogPair p
  (s.bump Fld.pwrMbAttnLogCount).log 0x0701 9 p (addr % 128)

/-- The reads of a poll on pair `p`: one for each caller, and one that nothing acknowledges, `n` at most (R499). -/
def State.pollCallers (s : State) (p : Nat) : List Nat → Nat → State
  | _, 0 => s
  | [], _ + 1 => s.emit (.busTransfer p 0x0C [] 1)
  | a :: as, n + 1 => ((s.emit (.busTransfer p 0x0C [] 1)).logCaller p a).pollCallers p as n

/-- MB_ATTENTION_DETECT: attention by another target is recognised; `addrs` are the callers that answer the reads of 0x0C, in their order (R499). -/
def execMbAttentionDetect (pair : Nat) (addrs : List Nat) (s : State) : Out :=
  if !s.flag Fld.pwrMbCtrlPollEn || !s.pairIdle pair || s.calling || decide (s.fld Fld.pwrStateState = 2) then .next s
  else .next ((s.bump Fld.pwrMbStatAttnSeen).pollCallers pair addrs 8)

/-- MB_ATTN_REQ: PWR_MB_ATTN.REQ is written (R496). -/
def execMbAttnReq (s : State) : Out :=
  let s := s.fmInput 0 8 (2 ^ 12)
  if s.flag Fld.glbClkLock then .next (s.attend 0) else .next s

/-- MB_LOCK: function `f` writes PWR_MB_CTRL.LOCK through BAR0; only the privileged function reaches it (R376, R490). -/
def execMbLock (f : Nat) (s : State) : Out :=
  let s := s.hostInput f (leBytes 8 (2 ^ 16))
  if s.coreUp && s.hostMay f && s.isPriv f then .next (s.setFld Fld.pwrMbCtrlLock 1) else .next s

/-! ### Controller transfers (R494, R495, R505) -/

/-- A pair is dead. -/
def State.pairDead (s : State) (p : Nat) : Bool := decide ((s.busPair p).state = .dead)

/-- The pair that a transfer uses: 1 pair 0 only, 2 pair 1 only, else the pair in use, which fails over to the other; none where it is dead. -/
def State.xferPair (s : State) (sel : Nat) : Option Nat :=
  let use := s.fld Fld.pwrMbStatusInuse
  let want := if sel = 1 then 0 else if sel = 2 then 1 else if s.pairDead use then 1 - use else use
  if s.pairDead want then none else some want

/-- The bytes of PWR_MB_XDATA. -/
def State.xdata (s : State) : List Byte := (List.range 4).flatMap fun k => leBytes 8 (s.fld Fld.pwrMbXdataData k)

/-- The START of the transfer that XCMD describes, on pair `p`. -/
def State.driveXfer (s : State) (p : Nat) : State :=
  let w := min 32 (s.fld Fld.pwrMbXcmdWlen)
  s.emit (.busTransfer p (s.fld Fld.pwrMbXcmdAddr) (s.xdata.take w) (min 32 (s.fld Fld.pwrMbXcmdRlen)))

/-- GO: a transfer begins, or ends at once where its pair is dead; ignored while one runs, and in SLEEP (R495, R500, R505). -/
def State.startXfer (s : State) : State :=
  if s.xfer.isSome || !s.busUp then s
  else
    let s := s.setFld Fld.pwrMbXstatDoneBytes 0
    match s.xferPair (s.fld Fld.pwrMbXcmdPair) with
    | none => s.setFld Fld.pwrMbXstatStatus 6
    | some p => ({ s with xfer := some { pair := p } }.setFld Fld.pwrMbXstatStatus 1).driveXfer p

/-- MB_XCMD_GO: PWR_MB_XCMD is written with GO set (R495). -/
def execMbXcmdGo (value : Nat) (s : State) : Out :=
  let s := s.fmInput 0 8 value
  if !s.busUp then .next s else .next (((s.wr .pwrMbXcmd 0 0 (setBits value 31 1 0))).startXfer)

/-- Bytes read by a transfer go to PWR_MB_XDATA from byte 0. -/
def State.putXdata (s : State) (data : List Byte) : State :=
  let all := overlay s.xdata 0 (data.take 32)
  (List.range 4).foldl (fun (s : State) k => s.setFld Fld.pwrMbXdataData (leNat ((all.drop (8 * k)).take 8)) k) s

/-- The transfer in hand ends with a status and a byte count. -/
def State.endXfer (s : State) (status count : Nat) : State :=
  ({ s with xfer := none }.setFld Fld.pwrMbXstatStatus status).setFld Fld.pwrMbXstatDoneBytes count

/-- MB_TRANSFER_DONE: the transfer ends: 2 DONE, 3 address and 4 data not acknowledged, 5 arbitration lost, 7 timeout. A lost arbitration is counted and
retried up to ARB_RETRY times (R494, R495). -/
def execMbTransferDone (status count : Nat) (data : List Byte) (s : State) : Out :=
  match s.xfer with
  | none => .next s
  | some x =>
    if status = 5 then
      let s := s.bump Fld.pwrMbStatArbLost
      if x.retries < s.fld Fld.pwrMbCtrlArbRetry then .next ({ s with xfer := some { x with retries := x.retries + 1 } }.driveXfer x.pair)
      else .next (s.endXfer 5 0)
    else if decide (status = 2) || decide (status = 3) || decide (status = 4) || decide (status = 7) then
      .next ((s.putXdata (data.take (min 32 (s.fld Fld.pwrMbXcmdRlen)))).endXfer status count)
    else .next s

/-! ### Recovery (R503 to R505) -/

/-- A pair is declared dead: 0 SDA stuck, 1 SCL hung (R505). -/
def State.killPair (s : State) (p cause : Nat) : State :=
  let s := s.modBus p fun b => { state := .dead, pointer := b.pointer }
  let s := ((s.showPair p 2).attend 3).log 0x0702 9 p cause
  let s := if s.fld Fld.pwrMbStatusInuse = p ∧ s.pairDead (1 - p) = false then s.setFld Fld.pwrMbStatusInuse (1 - p) else s
  match s.xfer with
  | some x => if x.pair = p then s.endXfer 6 0 else s
  | none => s

/-- MB_STUCK_SDA: one attempt of R503: nine clocks, a STOP, and a check of SDA. -/
def execMbStuckSda (pair : Nat) (released : Bool) (s : State) : Out :=
  if !s.pairUp pair then .next s
  else
    let n := (s.busPair pair).tries + 1
    let s := ((s.bump Fld.pwrMbStatRecover).emit (.busClocks pair)).showPair pair 1
    if released then .next ((s.modBus pair fun b => { b with state := .idle, tries := 0, waits := 0 }).showPair pair 0)
    else if 3 ≤ n then .next (s.killPair pair 0)
    else .next (s.modBus pair fun b => { b with state := .recovering, tries := n })

/-- MB_DEAD_PAIR_CHECK: a dead pair's lines are checked; `high`: both have been high for 10 ms (R505). -/
def execMbDeadPairCheck (pair : Nat) (high : Bool) (s : State) : Out :=
  if !s.busUp || decide (2 ≤ pair) || !s.pairDead pair || !high then .next s
  else
    let s := (((s.modBus pair fun b => { pointer := b.pointer }).showPair pair 0).attend 3).log 0x0703 9 pair 0
    let back := s.flag Fld.pwrMbCtrlAutoback && decide (s.fld Fld.pwrMbCtrlCpair = pair)
    .next (if back || s.pairDead (1 - pair) then s.setFld Fld.pwrMbStatusInuse pair else s)

end Sys2Proof.Machine
end

