-- ==== Sys2Proof/Machine/Events.lean ====
section
/-! DEFINITION. The consumer side of the event log (R536 to R539): EVT_CONS, EVT_CTRL.CLEAR, EVT_BUS_POP, and the views of the ring. -/

namespace Sys2Proof.Machine

/-- A consumer acted on CONS: it takes a value, and the interrupt is armed again (R539). -/
def State.evConsume (s : State) (cons : Nat) : State := { s.setFld Fld.evtConsCons cons with evSent := false }

/-- A write of EVT_CONS takes effect only from the current CONS up to PROD, modulo 2^32 (R538). -/
def State.consWrite (s : State) (v : Nat) : State :=
  if (v + 2 ^ 32 - s.fld Fld.evtConsCons) % 2 ^ 32 ≤ s.evFill then s.evConsume (v % 2 ^ 32) else s

/-- EVT_CTRL.CLEAR: CONS takes PROD (R538, R539). -/
def State.consClear (s : State) : State := s.evConsume (s.fld Fld.evtProdProd)

/-- EVT_BUS_POP: CONS advances by one when the log is not empty (R538, R539). -/
def State.consPop (s : State) : State := if s.evFill = 0 then s else s.evConsume (s.fld Fld.evtConsCons + 1)

/-- The EVT block answers to that source: 0 BAR0, 1 and 2 the bus pairs; LOCK turns a pair's write away (R490), and it is counted. -/
def State.evtFrom (s : State) (src n : Nat) (act : State → State) : State :=
  if !s.flag Fld.glbClkLock then s
  else if s.lockedOut src then s.bump Fld.pwrMbStatDenied n
  else act s

/-- EVT_CONS_WRITE (R538, R539); `src` 0 BAR0, 1 and 2 the bus pairs. -/
def execEvtConsWrite (src value : Nat) (s : State) : Out :=
  let s := s.fmInput src 8 value
  .next (s.evtFrom src 8 fun s => s.consWrite (value % 2 ^ 32))

/-- EVT_CLEAR: EVT_CTRL.CLEAR is written (R538, R539). -/
def execEvtClear (s : State) : Out :=
  let s := s.fmInput 0 8 (2 ^ 16)
  .next (s.evtFrom 0 8 State.consClear)

/-- EVT_BUS_POP on a pair (R538, R539). -/
def execEvtBusPop (pair : Nat) (s : State) : Out := .next (s.evtFrom (pair + 1) 1 State.consPop)

/-- Bytes 8k to 8k + 7 of the entry at CONS; zero when the log is empty (EVT_BUS_ENTRY). -/
def State.evWord (s : State) (k : Nat) : Nat :=
  if s.evFill = 0 then 0 else byteField (s.evRing.get (s.fld Fld.evtConsCons % 4096)) (8 * k) 8

end Sys2Proof.Machine
end

