-- ==== Sys2Proof/Machine/Trace.lean ====
section
/-! DEFINITION. The meanings of the trace commands (spec/01, Determinism and replay): starting a capture, starting a replay, the end of a replay. -/

namespace Sys2Proof.Machine

/-- GO under a mode: the hash and the record count start again. A buffer of SIZE 0 disables the trace, and a GO while one runs changes nothing. -/
def State.startTrace (s : State) (mode : Nat) : State :=
  if s.flag Fld.twbCtrlGo then s
  else
    let s := s.setFld Fld.twbCtrlMode mode
    if s.fld Fld.twbSizeSize = 0 then s
    else
      let s := (s.setFld Fld.twbCtrlGo 1).setFld Fld.twbOutHashHash 0
      { s with twbPos := 0 }.setFld Fld.twbStatusRecords 0

/-- TWB_CAPTURE_GO: GO is written with MODE capture, and WRAP as given (R30, R32). -/
def execTwbCaptureGo (wrap : Bool) (s : State) : Out :=
  if s.flag Fld.twbCtrlGo then .next s else .next ((s.setFld Fld.twbCtrlWrap (b2n wrap)).startTrace 1)

/-- TWB_REPLAY_GO: GO is written with MODE replay (R31). -/
def execTwbReplayGo (wrap : Bool) (s : State) : Out :=
  if s.flag Fld.twbCtrlGo then .next s else .next ((s.setFld Fld.twbCtrlWrap (b2n wrap)).startTrace 2)

/-- TWB_REPLAY_DONE: the trace's end is reached (R31). -/
def execTwbReplayDone (s : State) : Out :=
  if s.tracing 2 then .next ((s.setFld Fld.twbStatusDone 1).setFld Fld.twbCtrlGo 0) else .next s

end Sys2Proof.Machine
end

