-- ==== Sys2Proof/Machine/Pour.lean ====
section
/-! DEFINITION. The meanings of the pour commands (spec/02) but for those that act on triggers' targets (Triggers.lean). -/

namespace Sys2Proof.Machine

/-- POUR (R42 to R45, R119). -/
def execPour (tag : Nat) (s : State) : Out :=
  s.serve tag 0x50 fun c s =>
    let u := pourUpdate c.entry
    match (s.fn c.fn).domain with
    | none => s.finish tag (Res.err .badField)
    | some d =>
      let r := s.dom d
      if decide (bits (Entry.object c.entry) 48 16 ≠ 0) || decide (r.state = .off) then s.finish tag (Res.err .badField)
      else if decide (s.fld Fld.pourDomSrcDevid d ≠ s.dev) || decide (s.fld Fld.pourDomSrcFunc d ≠ c.fn) then
        (s.bump Fld.pourDomStatForeign 1 d).finish tag (Res.err .notOwner)
      else if (match u.brim with
          | some b => decide (b < u.tick)
          | none => false) then s.finish tag (Res.err .badField)
      else if r.regress u then (s.bump Fld.pourDomStatRegress 1 d).finish tag (Res.err .pourRegress)
      else if r.synced then s.originUpdate d tag
      else
        let t := s.startSync d (.update tag)
        if (t.dom d).sync.isSome then t.modCmd tag fun c => { c with stage := .running, started := true }
        else (t.selfSync d).originUpdate d tag

/-- TRIGGER_CLEAR (R57). -/
def execTriggerClear (tag : Nat) (s : State) : Out :=
  s.serve tag 0x52 fun c s =>
    let i := Entry.spec c.entry 40 2
    let t := s.trigs.get i
    if !s.fmCmd c && decide ((s.fn c.fn).domain = none) then s.finish tag (Res.err .badField)
    else if 1023 < i then s.finish tag (Res.err .badField)
    else if !t.valid then s.finish tag (Res.err .alreadyFree)
    else if !s.fmCmd c && (t.fm || decide (t.owner ≠ c.fn)) then
      (s.logForeign 4 c.fn ⟨s.dev, t.owner⟩ i).finish tag (Res.err .notOwner)
    else
      let s := { s with trigs := s.trigs.put i default, batch := s.batch.filter fun x => x.entry ≠ i,
                        dueNext := s.dueNext.filter fun x => x.entry ≠ i }
      s.finish tag {}

/-- POUR_DOM_ENABLE: POUR_DOM_CTRL.ENABLE of domain `d` is set (R39). -/
def execPourDomEnable (d : Nat) (s : State) : Out :=
  let s := s.fmInput 0 8 1
  if decide (64 ≤ d) || s.flag Fld.pourDomCtrlEnable d then .next s
  else .next ((s.setFld Fld.pourDomCtrlEnable 1 d).enableDom d)

/-- POUR_DOM_RESET: POUR_DOM_CTRL.RESET of domain `d` is written on this device (R40); ignored for an OFF domain. -/
def execPourDomReset (d : Nat) (s : State) : Out :=
  let s := s.fmInput 0 8 3
  .next (s.resetDom d)

/-- A POUR slot that came on a cross-shelf link, or as if on one (`cross`), or on another: it is flooded on where R46 says so, and handled by R47. -/
def State.onPour (s : State) (cross : Bool) (slot : List Byte) : State :=
  let n := leNat slot
  let p := bits n 0 48
  let d := byteField n 6 1 % 64
  let fl := byteField n 7 1
  let sync := bit fl 3
  let u : Update :=
    ⟨bits p 32 16, bits p 16 16, bits p 0 16, if bit fl 0 then some (byteField n 8 4) else none,
      if bit fl 1 then some (byteField n 12 2) else none⟩
  let s := if cross && !sync then s.flood 0x01 slot (List.range 31) else s
  s.receiveUpdate d u (fl / 16) (byteField n 14 2) (bit fl 2) sync (bit (byteField n 6 1) 6)

/-- POUR_UPDATE_RECEIVE: a POUR slot arrives on a link (R46, R47). A device forwards what arrives on a cross-shelf link on its in-shelf
links; a SYNC reply is never forwarded; nothing is taken from links 62 and 63 (R38). -/
def execPourUpdateReceive (link : Nat) (slot : List Byte) (s : State) : Out :=
  let s := s.takeSlots link 0x01 slot
  if 62 ≤ link then .next s else .next (s.onPour (crossShelf link) slot)

/-- A POUR_SYNC of a domain is consumed where it stands first among the slots received. -/
def State.takeSync (s : State) (k d : Nat) : State :=
  match (s.link k).rx2.head? with
  | none => s
  | some x => if leNat (x.body.take 1) % 64 = d then s.takeSlots k 0x0B x.body else s

/-- POUR_SYNC: a partner asks for domain `d`; it is answered where the domain is enabled and synchronised here (R48). -/
def execPourSync (link d : Nat) (s : State) : Out :=
  let s := s.takeSync link d
  let r := s.dom d
  if decide (r.state = .off) || !r.synced || decide (62 ≤ link) then .next s
  else
    let body := updateSlot r.pos d (1 + 2 + 8) r.rgen r.rate r.brim r.seq (decide (r.state = .live))
    .next (s.sendSlots 0x01 body [link])

/-- POUR_SYNC_TIMEOUT: no reply within 10 µs (R48 step 4). -/
def execPourSyncTimeout (d : Nat) (s : State) : Out :=
  let r := s.dom d
  match r.sync with
  | none => .next s
  | some .nothing => .next (s.modDom d fun x => { x with sync := none })
  | some w => .next ((s.selfSync d).afterSync d (some w))

/-- TICK_ADVANCE: the accumulator of LIVE domain `d` overflows: the tick advances, or holds at the brim (R50). -/
def execTickAdvance (d : Nat) (s : State) : Out :=
  let r := s.dom d
  let inc := incOf r.rate s.cyclesPerMs
  if decide (r.state ≠ .live) || decide (inc = 0) then .next s
  else .next ((s.modDom d fun x => x.nextTick inc).posChanged d r)

/-- SILENCE_EXPIRY: a LIVE domain has applied no update for its silence limit (R51). -/
def execSilenceExpiry (d : Nat) (s : State) : Out :=
  let r := s.dom d
  if decide (r.state = .live) && decide (r.heard + s.fld Fld.pourDomSilenceLimit d ≤ s.us) then
    let s := s.modDom d fun x => { x with state := .stale, synced := false }
    .next ((s.bump Fld.pourDomStatStaleEntries 1 d).logStale d true)
  else .next s

end Sys2Proof.Machine
end

