-- ==== Sys2Proof/Machine/Triggers.lean ====
section
/-! DEFINITION. The meanings of the pour rows that act on what triggers name (spec/02): TRIGGER_SET (R56), the firing of entries
(R59 to R62, R206, R291, R339, R359), and the clearing of a domain's ENABLE (R41). -/

namespace Sys2Proof.Machine

/-! ### TRIGGER_SET (R56) -/

/-- The entry that a TRIGGER_SET of function `f` makes. -/
def trigOf (e f : Nat) (fm : Bool) : Trig :=
  let p := Entry.object e
  { valid := true, epoch := bits p 32 16, layer := bits p 16 16, tick := bits p 0 16, domain := Entry.specBits e 41 0 6,
    action := Entry.spec e 40 1, owner := f, fm := fm, eachLayer := Entry.specBits e 42 0 1 = 1, args := Entry.spec e 48 16 }

/-- The library address, length, tier and blend of a STAGE. -/
def Trig.stageAddr (t : Trig) : Nat := byteField t.args 0 8
def Trig.stageLen (t : Trig) : Nat := byteField t.args 8 4
def Trig.stageTier (t : Trig) : Nat := byteField t.args 12 1
def Trig.stageBlend (t : Trig) : Nat := byteField t.args 13 1 % 64
/-- The 16-bit argument of the other actions: channel, controller mask or vector. -/
def Trig.arg (t : Trig) : Nat := byteField t.args 0 2

/-- The action is known and its arguments lie in the ranges of the actions table (R56 first row; log entry 38). -/
def Trig.argsOk (t : Trig) : Bool :=
  match t.action with
  | 1 => decide (t.stageTier ≤ 1)
  | 2 => decide (t.arg ≤ 247)
  | 3 => true
  | 4 => true
  | 5 => decide (byteField t.args 8 1 ≤ 1)
  | 6 => decide (t.arg ≤ 63)
  | _ => false

/-- The owner may read the library range of a STAGE. -/
def State.mayStage (s : State) (t : Trig) : Bool := decide (s.volumeCheck ⟨s.dev, t.owner⟩ 0x21 t.stageAddr t.stageLen = none)

/-- The first row of R56 that refuses an entry. -/
def State.refuseTrig (s : State) (t : Trig) (high : Nat) : Option Status :=
  let own := (s.fn t.owner).domain
  let d := s.dom t.domain
  if (!t.fm && decide (own = none)) || decide (high ≠ 0) || !t.argsOk then some .badField
  else if !t.fm && decide (t.action = 3 ∨ t.action = 4 ∨ t.action = 5) then some .fmOnly
  else if !t.fm && decide (own ≠ some t.domain) then some .badField
  else if decide (d.state = .off) || decide (t.epoch < d.epoch) then some .badField
  else if !t.fm && ((decide (t.action = 2) && (s.chFm t.arg || decide (s.chState t.arg = 0) || decide (s.chOwner t.arg ≠ t.owner)))
      || (decide (t.action = 1) && !s.mayStage t)) then some .notOwner
  else if decide (1024 ≤ s.trigs.count fun _ x => x.valid) ||
      (!t.fm && decide (s.fld Fld.pourTrigQuotaQuota ≤ s.trigs.count fun _ x => x.valid && !x.fm && decide (x.owner = t.owner))) then
    some .noSpace
  else none

/-- The lowest free index below `n`. -/
def State.freeTrig (s : State) (n : Nat) : Nat := ((List.range n).find? fun i => !(s.trigs.get i).valid).getD 0

/-- TRIGGER_SET: the entry takes the lowest free index; Result 1 tells whether it is due at once (R56, R119). -/
def execTriggerSet (tag : Nat) (s : State) : Out :=
  s.serve tag 0x51 fun c s =>
    let t := trigOf c.entry c.fn (s.fmCmd c)
    match s.refuseTrig t (bits (Entry.object c.entry) 48 16) with
    | some st => s.finish tag (Res.err st)
    | none =>
      let i := s.freeTrig 1024
      let s := ({ s with trigs := s.trigs.put i t }).judgeTrig i
      s.finish tag { r0 := i, r1 := b2n (s.isDue i) }

/-! ### Firing (R61, R62) -/

/-- `a` fires before `b` within a batch: by crossing, action rank, index. -/
def State.firesBefore (s : State) (a b : Due) : Bool :=
  let pa := packPos a.epoch a.layer a.tick
  let pb := packPos b.epoch b.layer b.tick
  let ra := actionRank (s.trigs.get a.entry).action
  let rb := actionRank (s.trigs.get b.entry).action
  decide (pa < pb) || (decide (pa = pb) && (decide (ra < rb) || (decide (ra = rb) && decide (a.entry < b.entry))))

/-- A due entry is placed into a batch in firing order. -/
def State.placeDue (s : State) (x : Due) : List Due → List Due
  | [] => [x]
  | y :: ys => if s.firesBefore x y then x :: y :: ys else y :: s.placeDue x ys

/-- Due entries in firing order. -/
def State.sortDue (s : State) : List Due → List Due
  | [] => []
  | x :: xs => s.placeDue x (s.sortDue xs)

/-- The state with a batch in hand: when one has fired, the entries that are due since form the next (R61). -/
def State.nextBatch (s : State) : State :=
  if s.batch.isEmpty then { s with batch := s.sortDue s.dueNext, dueNext := [] } else s

/-- Why an action is not issued now: 0 rights, 1 owner reset or not admitted, 2 channel busy (R62, R291, R381). -/
def State.trigCheck (s : State) (t : Trig) : Option Nat :=
  let f := s.fn t.owner
  if !t.fm && (!s.admittedNow t.owner || decide (f.resetState ≠ 0)) then some 1
  else if !t.fm && decide (f.domain ≠ some t.domain) then some 0
  else match t.action with
    | 1 =>
      if decide (t.stageLen = 0) || decide (t.stageLen % 64 ≠ 0) || decide (t.stageAddr % 64 ≠ 0) || !s.mayStage t ||
        !bit (s.blendsOf t.owner) t.stageBlend then some 0 else none
    | 2 =>
      if !t.fm && (s.chFm t.arg || decide (s.chState t.arg = 0) || decide (s.chOwner t.arg ≠ t.owner)) then some 0
      else if decide (s.chState t.arg = 2) && s.unitIn 4 (engOf t.arg) then none else some 2
    | _ => none

/-- A STAGE begins: an LSTAGE of the owner under the blend given, deadline mode NONE, which writes no reply (R206). -/
def State.startStage (s : State) (e : Nat) (t : Trig) : State :=
  let tag := s.nextTag
  let entry := 0x21 + t.stageBlend * 2 ^ 32 + t.stageAddr * 2 ^ 128 + t.stageLen * 2 ^ 256 + t.stageTier * 2 ^ 320
  let c : Cmd := { live := true, fn := t.owner, sq := 2 ^ 21 + tag, order := tag, entry := entry, epoch := (s.fn t.owner).epoch,
                   caller := ⟨s.dev, t.owner⟩, since := s.us, first := e + 1024 * t.domain }
  let c := s.bindTable c
  let s := ({ s with nextTag := tag + 1, cmds := s.cmds.put tag c }).charge tag t.owner entry
  match execLstage tag s with
  | .next s => s
  | _ => s

/-- The action of entry `e` is issued. -/
def State.issue (s : State) (e : Nat) (t : Trig) : State :=
  match t.action with
  | 1 => s.startStage e t
  | 2 => (s.triggerRun t.arg).1
  | 3 => (List.range 16).foldl (fun s c => if bit t.arg c then s.setWindow c true else s) s
  | 4 => (List.range 16).foldl (fun s c => if bit t.arg c then s.setWindow c false else s) s
  | 5 => s.blendSetAction (byteField t.args 0 8) (byteField t.args 8 1)
  | _ => if t.fm then s.log 0x0208 0 0 (e * 2 ^ 16) else s.sendVector t.owner (t.arg % 64)

/-- Entry `e` fires, or its action is skipped; a one-shot entry is then free (R59, R62). -/
def State.fire (s : State) (e : Nat) (t : Trig) : State :=
  let s := if t.eachLayer then s else { s with trigs := s.trigs.put e default }
  match s.trigCheck t with
  | some why => (s.logSkipped t.domain e t.action why).bump Fld.pourTrigStatSkipped
  | none => (s.issue e t).bump Fld.pourTrigStatFired

/-- TRIGGER_FIRE: entry `e` fires where it is the next of its batch (R61). -/
def execTriggerFire (e : Nat) (s : State) : Out :=
  let b := s.nextBatch
  match b.batch with
  | [] => .next s
  | x :: xs =>
    if x.entry ≠ e then .next s
    else .next (({ b with batch := xs }).fire e (b.trigs.get e))

/-! ### POUR_DOM_DISABLE (R41) -/

/-- Deadlines bound in domain `d` are no longer judged: such a command goes on as under mode NONE. -/
def Cmd.unbind (c : Cmd) (d : Nat) : Cmd :=
  match c.deadline with
  | none => c
  | some x => if x.domain = d then { c with deadline := none, missed := false, entry := setBits c.entry 38 2 0 } else c

/-- The same of a PSCAN fragment. -/
def Frag.unbind (f : Frag) (d : Nat) : Frag :=
  match f.deadline with
  | none => f
  | some x => if x.domain = d then { f with deadline := none, degrade := false } else f

/-- A run that waits on a position in domain `d` ends with a REGION fault, cause RESOURCE (R319). -/
def State.endWait (s : State) (d ch : Nat) : State :=
  match s.waitInsn ch with
  | none => s
  | some n =>
    if insn n 1 0 2 = 1 ∧ (s.fn (s.chWho ch)).domain = some d then s.raise ch (.resource (s.chFld Fld.dmaChPcPc ch)) else s

/-- The domain is OFF at once, with all that R41 says of it. -/
def State.disableDom (s : State) (d : Nat) : State :=
  let s := s.expireTrigs d
  let s := { s with doms := s.doms.put d default, cmds := s.cmds.map fun e => (e.1, e.2.unbind d),
                    frags := s.frags.map fun e => (e.1, e.2.unbind d) }
  (List.range 256).foldl (fun s ch => s.endWait d ch) s

/-- POUR_DOM_DISABLE: POUR_DOM_CTRL.ENABLE of domain `d` is cleared (R41). -/
def execPourDomDisable (d : Nat) (s : State) : Out :=
  let s := s.fmInput 0 8 0
  if decide (64 ≤ d) || !s.flag Fld.pourDomCtrlEnable d then .next s
  else .next ((s.setFld Fld.pourDomCtrlEnable 0 d).disableDom d)

end Sys2Proof.Machine
end

