-- ==== Sys2Proof/Machine/Regs.lean ====
section
/-! DEFINITION. Writes of registers (R4, R7, R8, R534, R535): how a write changes each field by its type, which registers act when written, and
REGISTER_WRITE. -/

namespace Sys2Proof.Machine

/-! ### The value that a write carries (R7, R488, R535) -/

/-- Bits that a write of `len` bytes at byte `at'` of a register covers. -/
def spanMask (at' len : Nat) : Nat := (2 ^ (8 * len) - 1) * 2 ^ (8 * at')

/-- The field lies wholly within the bits of a mask. -/
def FieldSpec.within (f : FieldSpec) (m : Nat) : Bool := decide (bits m f.lo f.width = 2 ^ f.width - 1)

/-- The field has a bit in the mask. -/
def FieldSpec.meets (f : FieldSpec) (m : Nat) : Bool := decide (bits m f.lo f.width ≠ 0)

/-- Software can change the field by a write. -/
def FieldSpec.writable (f : FieldSpec) : Bool := decide (f.type ≠ .ro) && decide (f.type ≠ .rc)

/-- The full value of a register write of which the bits of mask `m` were given: RW fields completed from the current value, the others zero. `whole`: a
field not wholly given is left out (R535); otherwise it takes the bits given (R488). -/
def composeWrite (fs : List FieldSpec) (old m v : Nat) (whole : Bool) : Nat :=
  fs.foldl (fun n f =>
    let now := if f.type = .rw then bits old f.lo f.width else 0
    let take := bits m f.lo f.width
    let new := if whole && !f.within m then now else (now - (now &&& take)) ||| (bits v f.lo f.width &&& take)
    if f.writable then setBits n f.lo f.width new else n) 0

/-- The write reaches some writable field. -/
def reachesField (fs : List FieldSpec) (m : Nat) (whole : Bool) : Bool := fs.any fun f => f.writable && (if whole then f.within m else f.meets m)

/-! ### Fields held to their ranges -/

/-- Fields whose value is held at the nearest limit, with their limits (R65, R99, R157, R272, R280, R325, R372, R407, R452, R482). -/
def fieldLimits : List (Fld × Nat × Nat) :=
  [(Fld.pourDomSilenceLimit, 1000, 10000000), (Fld.pourTrigQuotaQuota, 0, 1024), (Fld.cmdFnQuotaSq, 0, 256), (Fld.cmdFnQuotaCq, 0, 256),
   (Fld.poolFnLimitExtents, 0, 65536), (Fld.poolFnLimitLeaseMax, 1, 3600), (Fld.urnScrubMs, 10, 1000000), (Fld.urnWinSizeSize, 0, 131072),
   (Fld.dmaCtrlWaitUs, 1, 1000000), (Fld.dmaCtrlWaitCapMs, 1, 60000), (Fld.dmaCtrlRetryUs, 1, 255), (Fld.bldCtrlWindowUs, 100, 100000),
   (Fld.bldCtrlBurstUs, 1, 1000), (Fld.bldDecafRestorePm, 1, 1000), (Fld.bldDecafAge, 16, 65535), (Fld.bldMissCtrlBacklogPm, 1, 1000),
   (Fld.bldMissCtrlLatPm, 0, 1000), (Fld.wlkCtrlReplay100ns, 5, 640), (Fld.wlkNapCtrlIdleUs, 1, 65535), (Fld.wlkNapCtrlMaxUs, 100, 10000),
   (Fld.wlkRtCtrlEscape, 1, 15), (Fld.wlkRtCtrlPinUs, 10, 10000), (Fld.wlkRtCtrlRefreshMs, 10, 10000), (Fld.wlkRtCtrlMinAwake, 0, 61),
   (Fld.protCtrlFailMs, 100, 600000), (Fld.protCtrlCloseMs, 10, 65535), (Fld.protCtrlDeltaMs, 1, 4095)]

/-- The bytes of DMA_FN_QUOTA, each held at 248 (R325). -/
def quotaBytes (v : Nat) : Nat := (List.range 8).foldl (fun n k => setBits n (8 * k) 8 (min 248 (bits v (8 * k) 8))) 0

/-- A register value with its fields held to their ranges. -/
def Reg.held (r : Reg) (v : Nat) : Nat :=
  if r = .dmaFnQuota then quotaBytes v
  else fieldLimits.foldl (fun n e => if e.1.reg = r then setBits n e.1.lo e.1.width (clamp e.2.1 e.2.2 (bits v e.1.lo e.1.width)) else n) v

/-- A write by the field types alone: RW fields take their bits, W1C fields lose the bits written 1, the others keep their contents (R7). -/
def State.writeFields (s : State) (r : Reg) (i j v : Nat) : State :=
  let old := s.rd r i j
  let v := r.held v
  s.wr r i j (r.spec.fields.foldl (fun n f =>
    match f.type with
    | .rw => setBits n f.lo f.width (bits v f.lo f.width)
    | .w1c => setBits n f.lo f.width (bits old f.lo f.width - (bits old f.lo f.width &&& bits v f.lo f.width))
    | _ => n) old)

/-! ### Registers that act when written -/

/-- The state of an outcome that goes on. -/
def Out.go (o : Out) (s : State) : State :=
  match o with
  | .next t => t
  | _ => s

/-- TWB_CTRL: a change of MODE ends a trace in hand; GO starts one (R30, R31). -/
def State.writeTwb (s : State) (v : Nat) : State :=
  let m := bits v 0 2
  let s := if s.fld Fld.twbCtrlMode ≠ m then s.setFld Fld.twbCtrlGo 0 else s
  let s := (s.setFld Fld.twbCtrlMode m).setFld Fld.twbCtrlWrap (bits v 2 1)
  if bit v 3 && decide (m = 1 ∨ m = 2) then s.startTrace m else s

/-- POUR_DOM_CTRL: ENABLE first, then RESET where ENABLE is 1 after the write (R39 to R41). -/
def State.writeDom (s : State) (d v : Nat) : State :=
  let was := s.flag Fld.pourDomCtrlEnable d
  let s := s.setFld Fld.pourDomCtrlEnable (v % 2) d
  let s := if !was && bit v 0 then s.enableDom d else if was && !bit v 0 then s.disableDom d else s
  if bit v 0 && bit v 1 then s.resetDom d else s

/-- CMD_ACQ_CFG: ENABLE set creates the admin pair, ENABLE clear ends it; while READY is 1 the other fields stay (R66, R67). -/
def State.writeAcq (s : State) (f v : Nat) : State := if bit v 31 then (execCmdAcqEnable f v s).go s else (execCmdAcqDisable f v s).go s

/-- A 32-bit half of an MSI-X table entry's vector control is written: its mask bit (R384). -/
def State.maskVector (s : State) (f v : Nat) (masked : Bool) : State :=
  let s := s.modFn f fun r => { r with vecUnmasked := setBits r.vecUnmasked v 1 (b2n !masked) }
  s.flushPending f 64

/-- PROT_GROUP: WIDTH under R482, then COMMIT (R453, R454). -/
def State.writeGroup (s : State) (src v : Nat) : State :=
  if bit v 16 then (execProtCommit (bits v 0 3) s).go s
  else if s.groupOpen then (s.setFld Fld.protGroupWidth (bits v 0 3)).sizeParity
  else if bits v 0 3 = s.fld Fld.protGroupWidth then s
  else s.logIgnored 0x400008 src v

/-- PROT_MEMBER.DEVID under R482. -/
def State.writeMember (s : State) (src j v : Nat) : State :=
  if s.groupOpen then s.writeFields .protMember 0 j v
  else if v % 1024 = s.fld Fld.protMemberDevid 0 j then s
  else s.logIgnored (0x400100 + 8 * j) src v

/-- WLK_CTRL: its RW fields, then FAST and COLD (R416, R420). -/
def State.writeWlk (s : State) (k v : Nat) : State :=
  let s := s.writeFields .wlkCtrl k 0 v
  let s := if bit v 16 then s.beginFast k else s
  if bit v 17 then s.beginCold k else s

/-- WLK_SYS: GLB_ID.SYSID mirrors it (R424). -/
def State.writeSys (s : State) (v : Nat) : State := (s.writeFields .wlkSys 0 0 v).setFld Fld.glbIdSysid (v % 64)

/-- PWR_MB_CTRL: LOCK is set through BAR0 only (R490); the pair in use follows CPAIR where that pair lives (R505). -/
def State.writeMbCtrl (s : State) (src v : Nat) : State :=
  let old := s.fld Fld.pwrMbCtrlCpair
  let s := s.writeFields .pwrMbCtrl 0 0 v
  let s := if src = 0 ∧ bit v 16 = true then s.setFld Fld.pwrMbCtrlLock 1 else s
  let p := s.fld Fld.pwrMbCtrlCpair
  (if p ≠ old ∧ s.pairDead p = false then s.setFld Fld.pwrMbStatusInuse p else s).attnShow

/-- PWR_MB_ATTN: CAUSE bits cleared, MASK taken, REQ sets CAUSE.SOFT (R496). -/
def State.writeAttn (s : State) (v : Nat) : State :=
  let s := (s.writeFields .pwrMbAttn 0 0 v).attnShow
  if bit v 12 then s.attend 0 else s

/-- PWR_STATE: REFUSED is cleared, then TARGET requests a state; 3 acts as 0 (R508). -/
def State.writePwrState (s : State) (src v : Nat) : State :=
  let s := if bit v 12 then s.setFld Fld.pwrStateRefused 0 else s
  match bits v 4 2 with
  | 1 => (execPwrTargetDoze src s).go s
  | 2 => (execPwrTargetSleep src s).go s
  | _ => (execPwrTargetOn src s).go s

/-- PWR_RESET: MGMT, then DEVICE, with the CONFIRM of the same write (R523, R526). -/
def State.writePwrReset (s : State) (src v : Nat) : State :=
  let s := if bit v 1 then (execPwrResetMgmt src (bits v 8 8) s).go s else s
  if bit v 0 then (execPwrResetDevice src (bits v 8 8) s).go s else s

/-- PWR_FW_CTRL: SLOT, then STAGE, ACTIVATE, COMMIT_SVN (R529 to R531). What an image staged so holds is free: its bytes are the host's. -/
def State.writeFw (s : State) (v : Nat) : State :=
  let s := s.setFld Fld.pwrFwCtrlSlot (bits v 8 1)
  let s := if bit v 0 then
      (execFwStage ((List.range 6).map fun k => Config.freeNat (s.freeCtr + k)) { s with freeCtr := s.freeCtr + 6 }).go s
    else s
  let s := if bit v 1 then (execFwActivate s).go s else s
  if bit v 2 then (execFwCommitSvn s).go s else s

/-- EVT_CTRL: its RW fields, then CLEAR (R538, R539). -/
def State.writeEvtCtrl (s : State) (v : Nat) : State :=
  let s := s.writeFields .evtCtrl 0 0 v
  if bit v 16 then s.consClear else s

/-- The effect of a full value `v` written to instance `(i, j)` of a register by the privileged function (`src` 0), a pair (1, 2), or the function of the
tenant window. -/
def State.writeReg (s : State) (src : Nat) (r : Reg) (i j v : Nat) : State :=
  match r with
  | .twbCtrl => s.writeTwb v
  | .twbBase | .twbSize | .twbSrcMask => if s.fld Fld.twbCtrlMode = 0 then s.writeFields r i j v else s
  | .pourDomCtrl => s.writeDom i v
  | .cmdAcqBase => if (s.fn i).ready then s else s.writeFields r i j v
  | .cmdAcqCfg => s.writeAcq i v
  | .cmdSqTail => (execSqTailDoorbell i j (v % 64) s).go s
  | .cmdCqHead => (execCqHeadDoorbell i j (v % 4096) s).go s
  | .poolLogical => (execPoolLogicalWrite src (bits v 0 19) s).go s
  | .libStageDram => (execLibStageDramWrite src (bits v 0 16) s).go s
  | .libStageUrn => (execLibStageUrnWrite src (bits v 0 9) s).go s
  | .prsScratch => (execPrsScratchWrite src v s).go s
  | .urnWinCtrl => (execUrnWinCtrlWrite i v s).go s
  | .urnWinBase | .urnWinSize => if s.flag Fld.urnWinCtrlEnable i then s else s.writeFields r i j v
  | .drcRef => s.writeFields r i j (setBits v 4 4 (clamp 1 (s.refLimit i) (bits v 4 4)))
  | .drcHashNext => (execDrcHashNextWrite i (bits v 0 48) s).go s
  | .bldCommit => (execBldCommit (bits v 0 6) s).go s
  | .bldActive => (execBldActiveWrite v s).go s
  | .tenFm => (execTenFmWrite src v s).go s
  | .wlkCtrl => s.writeWlk i v
  | .wlkCredit => (execWlkCreditWrite i v s).go s
  | .wlkMode => if i < 62 then s else s.writeFields r i j v
  | .wlkSys => s.writeSys v
  | .protGroup => s.writeGroup src v
  | .protMember => s.writeMember src j v
  | .protEvac => if bit v 15 then (execProtEvacGo (v % 1024) s).go s else s.writeFields r i j v
  | .pwrMbCtrl => s.writeMbCtrl src v
  | .pwrMbAttn => s.writeAttn v
  | .pwrMbXcmd => if bit v 31 then (execMbXcmdGo v s).go s else s.writeFields r i j v
  | .pwrState => s.writePwrState src v
  | .pwrReset => s.writePwrReset src v
  | .pwrFwCtrl => s.writeFw v
  | .evtCtrl => s.writeEvtCtrl v
  | .evtCons => s.consWrite (v % 2 ^ 32)
  | .evtBusPop => if bit v 0 then s.consPop else s
  | _ => s.writeFields r i j v

/-! ### REGISTER_WRITE -/

/-- Registers whose own rows record the write in a trace. -/
def Reg.recorded (r : Reg) : Bool :=
  r ∈ [.cmdAcqCfg, .cmdSqTail, .cmdCqHead, .poolLogical, .libStageDram, .libStageUrn, .prsScratch, .urnWinCtrl, .drcHashNext, .bldCommit, .bldActive,
    .tenFm, .wlkCredit, .pwrState]

/-- A write of `len` bytes at an offset of BAR0 or of the tenant window of function `f` (R534, R535): the register there, if any, takes it. -/
def State.writeAt (s : State) (tenant : Bool) (f off len value : Nat) : State :=
  let m := spanMask (off % 8) len
  let v := value % 2 ^ (8 * len) * 2 ^ (8 * (off % 8))
  let base := off - off % 8
  let here := fun (o : Nat) => Reg.find tenant o
  match here base with
  | some (r, i, j) =>
    let i := if tenant then f else i
    -- the mask bit of a vector stands in the function's record, not in the word (PRESUMED, log entry 2)
    if r = .msixTable then
      let old := s.rd r i j
      let w := (old - (old &&& m)) ||| v
      let s := s.wr r i j (if j % 2 = 1 then setBits w 32 1 0 else w)
      if j % 2 = 1 ∧ bits m 32 1 = 1 then s.maskVector f (j / 2) (bit v 32) else s
    else if r = .cmdSqTail then
      let s := if off % 8 = 0 then s.writeReg 0 r i j (v % 64) else s
      if m < 2 ^ 32 then s else s.writeReg 0 .cmdCqHead i j (bits v 32 12)
    else if !reachesField r.spec.fields m true then s
    else s.writeReg 0 r i j (composeWrite r.spec.fields (s.rd r i j) m v true)
  | none => s

/-- REGISTER_WRITE: function `f` writes `len` bytes of `value` at an offset of its BAR0, or of its tenant window (`tenant`). A PF's tenant window also stands
at BAR0 offset 0x00FF_0000; only the privileged function reaches the rest (R376), and other PFs' writes there are counted. -/
def execRegisterWrite (src : Nat) (tenant : Bool) (f off len : Nat) (value : Nat) (s : State) : Out :=
  if src ≠ 0 ∨ s.coreUp = false ∨ s.hostMay f = false then .next s
  else if ¬(len = 4 ∨ len = 8) ∨ off % len ≠ 0 then .next s
  else
    let win := tenant || ((s.fn f).vf = 0 && decide (0xFF0000 ≤ off) && decide (off < 0x1000000))
    let o := if tenant then off else if win then off - 0xFF0000 else off
    let seen := match Reg.find win (o - o % 8) with
      | some (r, _, _) => r.recorded
      | none => false
    let s := if seen then s else s.hostInput f (leBytes len value)
    if win then (if o < 0x10000 then .next (s.writeAt true f o len value) else .next s)
    else if s.isPriv f then .next (s.writeAt false f o len value)
    else if (s.fn f).vf = 0 then .next (s.bump Fld.tenStatDenied)
    else .next s

end Sys2Proof.Machine
end

