-- ==== Sys2Proof/Machine/Views.lean ====
section
/-! DEFINITION. What a read of a register answers: its word in the register store, or, for a register that shows state which another field of State
holds, that state laid out as the chapter's Registers table says. -/

namespace Sys2Proof.Machine

/-- The state code of a domain (POUR_DOM_POS.STATE). -/
def domCode : DomState → Nat
  | .off => 0 | .live => 1 | .stale => 2

/-- The state code of a queue (CMD_SQ_STATE.STATE). -/
def queueCode : QState → Nat
  | .free => 0 | .active => 1 | .error => 2 | .deleting => 3

/-- The state code of a stream (SEQ_VIEW0.STATE). -/
def streamCode : StreamState → Nat
  | .free => 0 | .opened => 1 | .expired => 2 | .orphaned => 3 | .closing => 4

/-- A 48-bit signed field. -/
def signed48 (x : Int) : Nat := (x % 2 ^ 48).toNat

/-- A trigger entry as its 32 bytes say it (the entry layout of spec/02). -/
def Trig.word (e : Trig) : Nat :=
  packPos e.epoch e.layer e.tick % 2 ^ 48 + e.domain % 64 * 2 ^ 48 + e.action % 256 * 2 ^ 56 + e.owner % 256 * 2 ^ 64 + b2n e.fm * 2 ^ 72 +
    b2n e.valid * 2 ^ 73 + b2n e.eachLayer * 2 ^ 74 + (e.fired.map (·.2)).getD 0 % 2 ^ 16 * 2 ^ 80 + e.args % 2 ^ 128 * 2 ^ 128

/-- Free pages of the buffer area from page `p` on (URN_FREE). -/
def State.freeFrom (s : State) (p : Nat) : Nat :=
  let held := s.bufs.filter fun e => e.2.held
  if held.any fun e => decide (e.2.page ≤ p ∧ p < e.2.page + e.2.pages) then 0
  else ((held.filter fun e => decide (p ≤ e.2.page)).map fun e => e.2.page).foldl min (256 * s.fld Fld.urnLayoutScratchBase) - p

/-- URN_FREE: pages free, and the largest free run. -/
def State.urnFreeView (s : State) : Nat :=
  let held := s.bufs.filter fun e => e.2.held
  let base := 256 * s.fld Fld.urnLayoutBufBase
  let used := (held.map fun e => e.2.pages).sum
  let runs := (base :: held.map fun e => e.2.page + e.2.pages).map s.freeFrom
  (256 * s.fld Fld.urnLayoutScratchBase - base - used) % 2 ^ 17 + runs.foldl max 0 % 2 ^ 17 * 2 ^ 32

/-- The regions that the device keeps loaded for a master, in the order of R270's table: first page, last page, writes permitted. The DMA engines'
are in the register store; those of host attachments and Presses follow the work in hand and are not shown (log entry 87). -/
def State.fixedRegions (s : State) (m : Nat) : List (Nat × Nat × Bool) :=
  let scratch := 256 * s.fld Fld.urnLayoutScratchBase
  let tier := 256 * s.fld Fld.urnLayoutStageBase
  let cup := (0, 2047, true)
  let map := (2048, 10239, true)
  let area := (256 * s.fld Fld.urnLayoutBufBase, scratch - 1, true)
  let stage := (tier, 2 ^ 17 - 1, true)
  let all :=
    if m ≤ 14 then [cup, map, area, stage]
    else if m = 15 ∨ m = 0x10 ∨ m = 0x11 then [(0, scratch - 1, true)]
    else if 0x40 ≤ m ∧ m ≤ 0x7F then [area, stage, (scratch, tier - 1, true)]
    else if 0xE0 ≤ m ∧ m ≤ 0xF7 then [map, stage, (area.1, area.2.1, false)]
    else if m = 0xF8 then [map]
    else if m = 0xF9 then
      [(16 * s.fld Fld.twbBaseBase / 4096, (16 * s.fld Fld.twbBaseBase + 16 * s.fld Fld.twbSizeSize - 1) / 4096, true)]
    else []
  all.filter fun x => decide (x.1 ≤ x.2.1)

/-- URN_REGION of master `m`, region `r`. -/
def State.regionView (s : State) (m r : Nat) : Nat :=
  match (s.fixedRegions m)[r]? with
  | none => s.rd .urnRegion m r
  | some (x, y, w) => x % 2 ^ 17 + y % 2 ^ 17 * 2 ^ 32 + 2 ^ 60 + b2n w * 2 ^ 61 + 2 ^ 63

/-- Domain, NODOM and the rest of a function's admission, from bit 0 on: domain [5:0], NODOM [6]. -/
def Fn.domBits (r : Fn) : Nat := r.domain.getD 0 % 64 + b2n r.domain.isNone * 2 ^ 6

/-- TEN_FN_STATE of a function. -/
def State.fnView (s : State) (f : Nat) : Nat :=
  let r := s.fn f
  b2n r.present + b2n (s.admittedNow f) * 2 + b2n (s.isPriv f) * 4 + r.resetState % 4 * 8 + r.domBits * 2 ^ 8 + r.epoch % 256 * 2 ^ 16 +
    r.attach % 16 * 2 ^ 24

/-- TEN_SELF of a function. -/
def State.selfView (s : State) (f : Nat) : Nat :=
  let r := s.fn f
  f % 256 + r.attach % 16 * 2 ^ 8 + b2n (s.admittedNow f) * 2 ^ 16 + r.domBits * 2 ^ 24 + r.epoch % 256 * 2 ^ 40

/-- SEQ_VIEW0 to SEQ_VIEW2 of a stream. -/
def Stream.view (r : Stream) (k : Nat) : Nat :=
  match k with
  | 0 => r.gen % 256 + streamCode r.state * 2 ^ 8 + (r.rsize / 64 - 1) % 2 ^ 16 * 2 ^ 16 + r.stripe.length % 128 * 2 ^ 32 +
      min 255 (r.waiting.length - b2n r.ordered) * 2 ^ 40
  | 1 => r.first % 2 ^ 25 + r.last % 2 ^ 25 * 2 ^ 32
  | _ => r.opener.dev % 1024 + r.opener.fn % 256 * 2 ^ 10 + r.expiry % 2 ^ 32 * 2 ^ 32

/-- BLD_FN_VIEW0 to BLD_FN_VIEW3 of the account and blend that BLD_FN_SEL names; a pair that nothing has charged reads 0 (DESIGN CHOICE, log
entry 87). -/
def State.pairView (s : State) (k : Nat) : Nat :=
  let a := s.fld Fld.bldFnSelAccount
  let b := s.fld Fld.bldFnSelBlend
  let p := s.pair a b
  if !p.live then 0
  else match k with
    | 0 => signed48 p.cl + b2n p.dec * 2 ^ 48 + b2n (s.shareL a b).isNone * 2 ^ 49
    | 1 => signed48 p.cg
    | 2 => (s.shareL a b).getD noRate % 2 ^ 32 + s.shareG b % 2 ^ 32 * 2 ^ 32
    | _ => min (2 ^ 16 - 1) p.demotions + p.winBytes % 2 ^ 48 * 2 ^ 16

/-- WLK_LS_VIEW0 to WLK_LS_VIEW2 of the device that WLK_LS_SEL names (R428, R430). -/
def State.lsView (s : State) (k : Nat) : Nat :=
  let d := s.fld Fld.wlkLsSelDevice
  match k with
  | 0 => ((List.range 32).map fun j => s.linkAt d j % 4 * 4 ^ j).sum
  | 1 => ((List.range 32).map fun j => s.linkAt d (32 + j) % 4 * 4 ^ j).sum
  | _ =>
    let e := s.lsTable.get d
    if d = s.dev then s.unitState 6 0 % 4 + b2n (decide (s.unitState 6 0 = 0)) * 2 ^ 8
    else if e.stale then 2 ^ 8 else e.devState % 4

/-- What a read of register `r` at the instance numbers `i` and `j` answers (R534, R535). -/
def State.readReg (s : State) (r : Reg) (i j : Nat) : Nat :=
  match r with
  | .pourDomPos => let d := s.dom i; d.pos % 2 ^ 48 + domCode d.state * 2 ^ 48 + b2n d.brimHeld * 2 ^ 50
  | .pourDomRate => let d := s.dom i; d.rate % 2 ^ 32 + incOf d.rate s.cyclesPerMs % 2 ^ 32 * 2 ^ 32
  | .pourDomBrim =>
    let d := s.dom i
    d.brim % 2 ^ 16 + (if d.synced then d.seq % 2 ^ 16 * 2 ^ 16 + d.rgen % 16 * 2 ^ 32 + 2 ^ 36 else 0)
  | .pourTrigStat => setBits (s.rd r i j) 48 11 (1024 - s.trigs.count fun _ e => e.valid)
  | .pourTrigEntry => bits (s.trigs.get (i / 4)).word (64 * (i % 4)) 64
  | .cmdFnStatus => setBits (setBits (s.rd r i j) 1 1 (b2n (s.admittedNow i))) 2 1 (b2n (s.isPriv i && (s.fn i).ready))
  | .cmdSqState =>
    let q := s.sqs.get i
    q.owner % 256 + q.barista % 16 * 2 ^ 8 + (q.size - 1) % 64 * 2 ^ 12 + queueCode q.state * 2 ^ 18 + q.loc % 256 * 2 ^ 20
  | .cmdFree =>
    768 - (s.sqs.count fun k q => decide (256 ≤ k) && decide (q.state ≠ .free)) +
      (768 - s.cqs.count fun k c => decide (256 ≤ k) && decide (c.state ≠ .free)) * 2 ^ 16
  | .cmdSqTail => 0
  | .cmdCqHead => 0
  | .msixTable => if j % 2 = 1 then setBits (s.rd r i j) 32 1 (b2n (!bit (s.fn i).vecUnmasked (j / 2))) else s.rd r i j
  | .msixPba => (s.fn i).pba % 2 ^ 64
  | .seqView0 => (s.streams.get (s.fld Fld.seqSelIndex)).view 0
  | .seqView1 => (s.streams.get (s.fld Fld.seqSelIndex)).view 1
  | .seqView2 => (s.streams.get (s.fld Fld.seqSelIndex)).view 2
  | .urnFree => s.urnFreeView
  | .urnRegion => if s.flag Fld.urnStatusCleared then s.regionView i j else s.rd r i j
  | .dmaTenCh => if s.chState j ≠ 0 ∧ s.chOwner j = i then s.rd r j 0 else 0
  | .dmaTenErr => if s.chState j ≠ 0 ∧ s.chOwner j = i then s.rd r j 0 else 0
  | .bldFnView0 => s.pairView 0
  | .bldFnView1 => s.pairView 1
  | .bldFnView2 => s.pairView 2
  | .bldFnView3 => s.pairView 3
  | .tenFnState => s.fnView i
  | .tenFnBlends => s.blendsOf i
  | .tenSelf => s.selfView i
  | .wlkSeq => let l := s.link i; l.next % 4096 + l.base % 4096 * 2 ^ 16 + l.expected % 4096 * 2 ^ 32
  | .wlkLsView0 => s.lsView 0
  | .wlkLsView1 => s.lsView 1
  | .wlkLsView2 => s.lsView 2
  | .evtStat => setBits (s.rd r i j) 0 13 s.evFill
  | .evtBusEntry => s.evWord i
  | .evtRing => bits (s.evRing.get (i / 4)) (64 * (i % 4)) 64
  | r => s.rd r i j

end Sys2Proof.Machine
end

