-- ==== Sys2Proof/Machine/MBus.lean ====
section
/-! DEFINITION. The meanings of the management bus rows that serve transfers as a target (spec/18): addresses, the pointer, reads by snapshot, writes
committed register by register, and the ends of transfers. -/

namespace Sys2Proof.Machine

/-! ### The pointer map (R489) -/

/-- The register at an 8-byte aligned pointer. -/
def busReg (ptr : Nat) : Option (Reg × Nat × Nat) :=
  if ptr < 0x100 then Reg.find false (0x488000 + ptr)
  else if ptr < 0x120 then Reg.find false (ptr - 0x100)
  else if 0x200 ≤ ptr ∧ ptr < 0x300 then Reg.find false (0x480000 + (ptr - 0x200))
  else if ptr = 0x300 then some (.tenFm, 0, 0)
  else if ptr = 0x308 then some (.wlkSys, 0, 0)
  else if 0x400 ≤ ptr ∧ ptr < 0x500 then Reg.find false (0x4C0000 + (ptr - 0x400))
  else none

/-- The register's block is still in reset: TEN, WLK and EVT up to the end of cold start step 5 (R502, R515). -/
def State.blockHeld (s : State) (ptr : Nat) : Bool := decide (0x300 ≤ ptr) && !s.evOpen

/-- The 8 bytes read at an 8-byte aligned pointer (R487, R489, R502). -/
def State.busRead (s : State) (ptr : Nat) : Nat :=
  if s.blockHeld ptr then 0
  else match busReg ptr with
    | none => 0
    | some (r, i, j) => s.readReg r i j

/-- The byte at a pointer is written to: mapped, in a writable field, not locked, its block out of reset (R489 to R491, R529). Only the device reset request
stays writable under LOCK. -/
def State.busTakes (s : State) (ptr : Nat) : Bool :=
  match busReg (ptr - ptr % 8) with
  | none => false
  | some (r, _, _) =>
    !(decide (0x100 ≤ ptr) && decide (ptr < 0x200)) && !s.blockHeld ptr &&
      !(s.flag Fld.pwrMbCtrlLock && decide (0x200 ≤ ptr) && decide (r ≠ .pwrReset)) &&
      decide (r ∉ [Reg.pwrFwCtrl, Reg.pwrFwSrc, Reg.pwrFwLen]) &&
      r.spec.fields.any fun f => f.writable && f.meets (spanMask (ptr % 8) 1) && !(decide (r = .pwrMbCtrl) && decide (f.lo = 16))

/-! ### Reads and writes of registers -/

/-- RC fields lose what a snapshot reported of them; increments since are kept (R8, R487). -/
def State.clearRead (s : State) (ptr snap : Nat) : State :=
  match busReg ptr with
  | none => s
  | some (r, i, j) =>
    let old := s.rd r i j
    s.wr r i j (r.spec.fields.foldl (fun n f =>
      if f.type = .rc then setBits n f.lo f.width (bits old f.lo f.width - bits snap f.lo f.width) else n) old)

/-- The register that a write was filling is written as one access, if bytes of it have come (R488). -/
def State.commitFill (s : State) (p : Nat) : State :=
  let b := s.busPair p
  let s := s.modBus p fun b => { b with fillAt := none, fill := 0, got := 0 }
  match b.fillAt with
  | none => s
  | some ptr =>
    if b.got = 0 then s
    else match busReg ptr with
      | none => s
      | some (r, i, j) =>
        let m := (List.range 8).foldl (fun n k => if bit b.got k then n + spanMask k 1 else n) 0
        s.writeReg (p + 1) r i j (composeWrite r.spec.fields (s.rd r i j) m b.fill false)

/-- The device's part in a transfer on pair `p` ends: what was written is committed (R488). -/
def State.endTransfer (s : State) (p : Nat) : State :=
  (s.commitFill p).modBus p fun b => { b with role := .none, pointed := false, snapAt := none, snap := 0, sent := 0 }

/-- The pointer of a write moves on, within its 64-byte page (R488). -/
def pageNext (ptr : Nat) : Nat := ptr - ptr % 64 + (ptr + 1) % 64

/-! ### The rows -/

/-- MB_ADDRESS: an address byte after a START; acknowledged for the device's own address, and for a read of 0x0C while attention is pending (R484, R497).
A transfer to the device ends DOZE (R509). -/
def execMbAddress (pair byte : Nat) (s : State) : Out :=
  let s := s.capture 3 pair [BitVec.ofNat 8 byte]
  if !s.pairUp pair then .next s
  else
    let s := (s.endTransfer pair).modBus pair fun b => { b with state := .busy }
    let a := byte % 256 / 2
    let read := byte % 2 = 1
    if a = s.busAddr then
      .next ((s.leaveDoze.modBus pair fun b => { b with role := if read then .read else .write }).emit (.busAck pair true))
    else if a = 0x0C ∧ read ∧ s.mayCall = true then .next ((s.modBus pair fun b => { b with role := .alert }).emit (.busAck pair true))
    else .next (s.emit (.busAck pair false))

/-- MB_POINTER_WRITE: both pointer bytes have come (R486). -/
def execMbPointerWrite (pair hi lo : Nat) (s : State) : Out :=
  let s := s.capture 3 pair [BitVec.ofNat 8 lo, BitVec.ofNat 8 hi]
  let b := s.busPair pair
  if !s.pairUp pair || decide (b.role ≠ .write) || b.pointed then .next s
  else
    let s := s.modBus pair fun b => { b with pointer := lo % 256 + 256 * (hi % 256), pointed := true }
    .next ((s.emit (.busAck pair true)).emit (.busAck pair true))

/-- MB_READ_BYTE: a byte is sent from the pointer's snapshot, the pointer increments; a byte not acknowledged ends the transfer (R487, R488). -/
def execMbReadByte (pair : Nat) (ack : Bool) (s : State) : Out :=
  let b := s.busPair pair
  if !s.pairUp pair || decide (b.role ≠ .read) then .next s
  else
    let at' := b.pointer - b.pointer % 8
    let fresh := b.snapAt ≠ some at'
    let snap := if fresh then s.busRead at' else b.snap
    let sent := (if fresh then 0 else b.sent) ||| 2 ^ (b.pointer % 8)
    let s := s.emit (.busByte pair (byteField snap (b.pointer % 8) 1))
    let s := if sent = 255 then s.clearRead at' snap else s
    let s := s.modBus pair fun b => { b with pointer := (b.pointer + 1) % 65536, snapAt := some at', snap := snap, sent := sent }
    .next (if ack then s else s.endTransfer pair)

/-- MB_WRITE_BYTE: a data byte goes to the pointer and is acknowledged; the register is written at its byte 7. A byte that nothing takes is counted
(R488, R491). -/
def execMbWriteByte (pair byte : Nat) (s : State) : Out :=
  let s := s.capture 3 pair [BitVec.ofNat 8 byte]
  let b := s.busPair pair
  if !s.pairUp pair || decide (b.role ≠ .write) || !b.pointed then .next s
  else
    let ptr := b.pointer
    let k := ptr % 8
    let s := if b.fillAt = some (ptr - k) then s else s.commitFill pair
    let s :=
      if s.busTakes ptr then
        s.modBus pair fun b => { b with fillAt := some (ptr - k), fill := setBits b.fill (8 * k) 8 (byte % 256), got := setBits b.got k 1 1 }
      else s.bump Fld.pwrMbStatDenied
    let s := if k = 7 then s.commitFill pair else s
    .next ((s.modBus pair fun b => { b with pointer := pageNext ptr }).emit (.busAck pair true))

/-- MB_STRETCH_ABORT: 24 ms into a stretch it is abandoned: 0xFF on a read, no acknowledgement on a write, which ends the transfer (R492). -/
def execMbStretchAbort (pair : Nat) (s : State) : Out :=
  let b := s.busPair pair
  if !s.pairUp pair then .next s
  else match b.role with
    | .read =>
      .next (((s.bump Fld.pwrMbStatStretchAbort).emit (.busByte pair 0xFF)).modBus pair fun b => { b with pointer := (b.pointer + 1) % 65536 })
    | .write => .next (((s.bump Fld.pwrMbStatStretchAbort).emit (.busAck pair false)).endTransfer pair)
    | _ => .next s

/-- MB_ALERT_RESPONSE: the data byte of a read of 0x0C: the device's address under arbitration; sent whole, attention is served (R497). -/
def execMbAlertResponse (pair : Nat) (won : Bool) (s : State) : Out :=
  if !s.pairUp pair || decide ((s.busPair pair).role ≠ .alert) then .next s
  else
    let s := s.modBus pair fun b => { b with role := .none }
    .next (if won then (s.emit (.busByte pair (2 * s.busAddr))).attnServed else s)

/-- MB_STOP: a STOP, or a repeated START, ends the transfer; the bus is idle after a STOP, and a SLEEP entry that waited completes (R488, R510). -/
def execMbStop (pair : Nat) (s : State) : Out :=
  if !s.pairUp pair then .next s
  else
    let s := (s.endTransfer pair).modBus pair fun b => { b with state := if b.state = .busy then .idle else b.state }
    .next (if s.sleepHeld && !s.busTalks then s.sleepNow else s)

/-- MB_SCL_TIMEOUT: SCL has been low for 25 ms: the bus is hung, and the device's part in any transfer ends; three further waits of 25 ms without a rise
make the pair dead (R504). -/
def execMbSclTimeout (pair : Nat) (s : State) : Out :=
  if !s.pairUp pair then .next s
  else
    let n := (s.busPair pair).waits
    if n = 0 then
      let s := (s.endTransfer pair).bump Fld.pwrMbStatSclTimeout
      let s := match s.xfer with
        | some x => if x.pair = pair then s.endXfer 7 0 else s
        | none => s
      .next ((s.modBus pair fun b => { b with state := .recovering, waits := 1, tries := 0 }).showPair pair 1)
    else if n < 3 then .next (s.modBus pair fun b => { b with waits := n + 1 })
    else .next (s.killPair pair 1)

/-- MB_WAKE_MATCH: in SLEEP the device's own address is matched: it is acknowledged, SCL is held and a wake is requested (R500). -/
def execMbWakeMatch (pair byte : Nat) (s : State) : Out :=
  let b := s.busPair pair
  if decide (s.fld Fld.pwrStateState ≠ 2) || !s.pwrgood || decide (2 ≤ pair) || decide (b.state = .dead) || decide (byte % 256 / 2 ≠ s.busAddr) then .next s
  else
    let s := { s with waking := true }.modBus pair fun b => { b with state := .busy, role := if byte % 2 = 1 then .read else .write }
    .next (s.emit (.busAck pair true))

end Sys2Proof.Machine
end

