-- ==== Sys2Proof/Machine/Service.lean ====
section
/-! DEFINITION. The meanings of UNIT_SERVICE and of what takes units out of service (R11, R81, R124, R214, R257, R323, R352, R421, R520, R527, R528). -/

namespace Sys2Proof.Machine

/-! ### Leaving service (R527, second table) -/

/-- A Barista that leaves: its commands end ABORTED, and its SQs go to the others, or stay unserved where none of 0 to 14 is in service (R81). -/
def State.dropBarista (s : State) (b : Nat) : State :=
  let qs := s.sqs.sel fun _ q => decide (q.state ≠ .free) && decide (q.barista = b) && !q.orphan
  let s := s.abortAll (s.liveCmds fun c => decide (c.sq ∈ qs))
  qs.foldl (fun (s : State) q => let n := s.pickBarista 15; s.modSq q fun r => { r with barista := n.getD 0, orphan := n.isNone }) s

/-- A unit goes OUT: its record, its work, and what the loss of it takes along. `ordered`: by UNIT_SERVICE. -/
def State.unitOut (s : State) (cls i : Nat) (ordered : Bool) : State :=
  match cls with
  | 0 =>
    let s := (s.moveUnit 0 i 0 ordered).log 0x0408 2 i 0
    if s.unitState 6 0 = 0 then s else s.setDevice 0 false
  | 3 =>
    let s := s.linkOut i ordered
    s.modUnit 3 i fun u => { u with ordered := ordered }
  | 4 => (s.moveUnit 4 i 0 ordered).stopEngine i
  | 5 => (s.moveUnit 5 i 0 ordered).dropBarista i
  | 6 => s.setDevice 0 ordered
  | 7 =>
    let s := s.moveUnit 7 i 0 ordered
    if ordered then (List.range 32).foldl (fun (s : State) n => s.failLun i (n / 4) (n % 4) 2) s else s
  | _ => s.moveUnit cls i 0 ordered

/-- The reset and admission controller takes out a unit that hung or failed (R11, R25). A step in progress on it ends ABORTED (R528). -/
def State.takeOut (s : State) (cls i : Nat) : State := (s.endStep cls i .aborted 0).unitOut cls i false

/-- PROGRESS_WATCHDOG_EXPIRY: a unit reported no progress on a work order for 2 ms: it is declared hung and taken out, and the
command ends INTERNAL (R11, R25). -/
def execProgressWatchdogExpiry (tag cls unit : Nat) (s : State) : Out :=
  let c := s.cmd tag
  if !c.live || decide (c.stage = .done) then .next s
  else
    let s := s.log 0x0106 (unitKind cls) unit (Entry.op c.entry)
    .next ((s.endCommand tag .internal).takeOut cls unit)

/-- DRAM_CHANNEL_LOST: a channel fails during serving: it and the whole device go OUT (R352). -/
def execDramChannelLost (c : Nat) (s : State) : Out :=
  if 16 ≤ c ∨ s.unitState 0 c = 0 then .next s else .next (s.takeOut 0 c)

/-! ### UNIT_SERVICE (R124, R520, R527, R528) -/

/-- The unit class and index are ones that UNIT_SERVICE may name: in range, not Barista 15, not engine 31 (R124). -/
def unitNamed (cls i : Nat) : Bool :=
  match cls with
  | 0 => decide (i < 16)
  | 1 => decide (i < 64)
  | 2 => decide (i < 128)
  | 3 => decide (i < 64)
  | 4 => decide (i < 31)
  | 5 => decide (i < 15)
  | 6 => decide (i = 0)
  | 7 => decide (i < 32)
  | _ => false

/-- STEP goes to a device that is not in service, in place of the command (R520). -/
def State.sendStep (s : State) (t : Nat) (c : Cmd) (d : Nat) : State :=
  let e := c.entry
  let (s, k) := s.addPart { cmd := t, sys := s.sys, dev := d, whole := true }
  let s := s.sendNotice 0x09 s.sys d (slot16 (leBytes 1 3 ++ leBytes 1 (Entry.spec e 43 1) ++ nameBytes d s.sys ++ nameBytes s.dev s.sys ++
    leBytes 1 c.fn ++ leBytes 1 (Entry.spec e 40 1) ++ leBytes 2 (Entry.spec e 41 2) ++ zeroBytes 2 ++ leBytes 2 (partTag k) ++ zeroBytes 2))
  s.modCmd t fun c => { c with stage := .running, started := true }

/-- A UNIT_SERVICE that asks for `target` is served: here, or sent on to the device of its QSPEC, as a STEP where that device is not in service. A
target above 3 is refused by the row of OUT. -/
def State.serveUnit (s : State) (t target : Nat) (work : Cmd → Nat → Nat → State → State) : Out :=
  s.serve t 0x85 fun c s =>
    let e := c.entry
    let q := Entry.qspec e
    let want := Entry.spec e 43 1
    if decide (want ≠ target) && !(decide (target = 0) && decide (3 < want)) then s
    else if s.seam 3 then s
    else if c.stage = .running ∧ (s.partsOf t).isEmpty = false then s
    else if decide (q = 0) || decide (q = s.dev + 1024 * s.sys) || c.origin.isSome then
      let cls := Entry.spec e 40 1
      let i := Entry.spec e 41 2
      if !unitNamed cls i || decide (3 < want) then s.finish t (Res.err .badField) else work c cls i s
    else if decide (q / 1024 = s.sys) && !s.devIn (q % 1024) then
      (if (s.choose true s.dev s.sys (q % 1024) false true).isSome then s.sendStep t c (q % 1024)
       else (s.bump Fld.wlkRtStatUnreach).finish t (Res.err .linkUnreachable))
    else s.forward t c (q / 1024) (q % 1024)

/-- Nothing of the unit's work is left (R527, step to OUT): of a Press, Grinder, engine, Barista, channel or link its work ended as it left; the device waits
for the commands it had accepted (R521). -/
def State.unitIdle (s : State) (t cls : Nat) : Bool :=
  decide (cls ≠ 0 ∧ cls ≠ 6) || !s.cmds.any fun e => e.2.live && decide (e.2.order < (s.cmd t).order) && decide (e.2.stage ≠ .done)

/-- The step waits for its unit: noted in the unit's record, with the prior state that its reply will carry. -/
def State.holdStep (s : State) (t cls i prior : Nat) : State :=
  (s.modUnit cls i fun u => { u with waiting := some t }).modCmd t fun c =>
    { c with stage := .running, started := true, reply := { c.reply with result0 := prior } }

/-- UNIT_SERVICE_OUT: the unit takes no new work; the reply follows when it holds none. A step in progress on it ends ABORTED; a unit already OUT answers OK
with prior state 0 (R521, R527, R528). -/
def execUnitServiceOut (tag : Nat) (s : State) : Out :=
  s.serveUnit tag 0 fun c cls i s =>
    let prior := s.unitState cls i
    if c.stage = .running then (if s.unitIdle tag cls then s.endStep cls i .ok 0 else s)
    else
      let s := s.endStep cls i .aborted 0
      if prior = 0 then s.finish tag {}
      else
        let s := (s.unitOut cls i true).holdStep tag cls i prior
        if s.unitIdle tag cls then s.endStep cls i .ok 0 else s

/-- A transition is allowed now: from that state, and no other step of the unit in progress (R124, R528). -/
def State.stepFrom (s : State) (cls i old : Nat) : Bool := decide (s.unitState cls i = old) && (s.svc.get (unitKey cls i)).waiting.isNone

/-- The unit's internal state returns to reset values, its configuration registers keep theirs, and its self-test begins (R527); what a LINK_LOST
exchange of a link still has to send stays (R421). -/
def State.unitReset (s : State) (cls i : Nat) : State :=
  let s := (s.modUnit cls i fun u => { u with test := none }).moveUnit cls i 1 true
  match cls with
  | 0 => ((s.setFld Fld.drcStateTrained 0 i).clearRefresh i)
  | 3 => (s.modLink i fun l => { (default : Link) with lost := l.lost, held := l.held, lostWait := l.lostWait, early := l.early }).setTstate i 1
  | _ => s

/-- UNIT_SERVICE_QUARANTINE: unit reset, and the self-test begins; for the device, a device reset, answered once it ends (R523, R527). -/
def execUnitServiceQuarantine (tag : Nat) (s : State) : Out :=
  s.serveUnit tag 1 fun c cls i s =>
    if c.stage = .running then s
    else if !s.stepFrom cls i 0 then s.finish tag (Res.err .badField)
    else if cls = 6 then (s.holdStep tag 6 0 0).deviceReset 1
    else (s.unitReset cls i).finish tag {}

/-- The unit joins routing and arbitration (R25, R527): marks that an order set on a flash channel are cleared (R214), a returning member waits for its resync
(R478). -/
def State.unitWarm (s : State) (cls i : Nat) : State :=
  let old := s
  let marks := (s.svc.get (unitKey cls i)).marks
  match cls with
  | 0 => (s.moveUnit 0 i 2 true).setFld Fld.drcStateTrained 1 i
  | 3 => (s.moveUnit 3 i 2 true).noteLinks old
  | 6 => s.setDevice 2 true
  | 7 =>
    let s := (s.moveUnit 7 i 2 true).modUnit 7 i fun u => { u with marks := 0 }
    let failed := s.fld Fld.libChStateFailed i
    s.setFld Fld.libChStateFailed (failed ^^^ (failed &&& marks)) i
  | _ => s.moveUnit cls i 2 true

/-- The step into WARM is answered once the self-test has ended: WARM, or MEDIA_ERROR with the unit still in QUARANTINE (R124, R527). A device that returns to
its parity group waits for its stale parity as well (R478). -/
def State.tryWarm (s : State) (cls i : Nat) : State :=
  let u := s.svc.get (unitKey cls i)
  match u.waiting, u.test with
  | some _, some code =>
    if code ≠ 0 then s.endStep cls i .mediaError code
    else if cls = 6 ∧ s.resync.isEmpty = false then s
    else (s.unitWarm cls i).endStep cls i .ok 0
  | _, _ => s

/-- UNIT_SERVICE_WARM: from QUARANTINE (R25, R519, R522, R527). -/
def execUnitServiceWarm (tag : Nat) (s : State) : Out :=
  s.serveUnit tag 2 fun c cls i s =>
    if c.stage = .running then s.tryWarm cls i
    else if !s.stepFrom cls i 1 then s.finish tag (Res.err .badField)
    else (s.holdStep tag cls i 1).tryWarm cls i

/-- A Barista that steps into SERVING while SQs are unserved takes every one of them (R81). -/
def State.takeOrphans (s : State) (b : Nat) : State :=
  (s.sqs.sel fun _ q => decide (q.state ≠ .free) && q.orphan).foldl (fun (s : State) q => s.modSq q fun r => { r with barista := b, orphan := false }) s

/-- UNIT_SERVICE_SERVING: from WARM, with no change to routing or arbitration (R527). -/
def execUnitServiceServing (tag : Nat) (s : State) : Out :=
  s.serveUnit tag 3 fun _ cls i s =>
    if !s.stepFrom cls i 2 then s.finish tag (Res.err .badField)
    else
      let s := if cls = 6 then (s.setDevice 3 true).atStep 10 else s.moveUnit cls i 3 true
      let s := if cls = 5 then s.takeOrphans i else s
      s.finish tag { r0 := 2 }

/-- SELF_TEST_DONE: the self-test of a unit in QUARANTINE ends with a code, 0 passed; one that exceeds its budget fails (R527). -/
def execSelfTestDone (cls unit code : Nat) (s : State) : Out :=
  if decide (s.unitState cls unit ≠ 1) || decide (cls = 6) then .next s
  else .next ((s.modUnit cls unit fun u => { u with test := some (code % 2 ^ 16) }).tryWarm cls unit)

/-! ### STEP and STEP_ACK (R520) -/

/-- A STEP slot for this device: the UNIT_SERVICE that it carries is accepted, where it comes from the function in TEN_FM; any other is answered FM_ONLY. -/
def State.onStep (s : State) (slot : List Byte) : State :=
  let org := bodyNat slot 4 2
  let f := bodyNat slot 6 1
  let e := 0x85 + bodyNat slot 7 1 * 2 ^ 320 + bodyNat slot 8 2 * 2 ^ 328 + bodyNat slot 1 1 * 2 ^ 344
  let t := s.nextTag
  let c : Cmd := { live := true, fn := f, sq := 2 ^ 20 + 2, order := t, entry := e, origin := some (org, bodyNat slot 12 2),
                   caller := s.whoNamed org f, since := s.us, step := true }
  let s := { s with nextTag := t + 1, cmds := s.cmds.put t c }
  if s.fromFm (org / 1024) (org % 1024) f then s
  else (s.log 0x010C 1 f (org + 0x85 * 2 ^ 16)).finish t (Res.err .fmOnly)

/-- STEP: a STEP slot arrives (R520). -/
def execStep (link : Nat) (slot : List Byte) (s : State) : Out :=
  if bodyNat slot 0 1 ≠ 3 ∨ bodyNat slot 2 2 ≠ s.dev + 1024 * s.sys then .next s
  else .next ((s.takeSlots link 0x09 slot).onStep slot)

/-- The answer to a STEP: the command ends with it. -/
def State.onStepAck (s : State) (slot : List Byte) : State :=
  match s.partAt (bodyNat slot 12 2) with
  | none => s
  | some (_, p) =>
    let c := s.cmd p.cmd
    if !p.whole || !c.live || decide (c.stage = .done) || decide (p.dev ≠ bodyNat slot 2 2 % 1024) || decide (Entry.op c.entry ≠ 0x85) then s
    else
      let st := (Status.ofCode (bodyNat slot 1 1)).getD .internal
      (s.dropParts p.cmd).finish p.cmd { status := st, r0 := bodyNat slot 10 1 % 4, r1 := bodyNat slot 14 2 }

/-- STEP_ACK: a STEP_ACK slot arrives (R520). -/
def execStepAck (link : Nat) (slot : List Byte) (s : State) : Out :=
  if bodyNat slot 0 1 ≠ 4 ∨ bodyNat slot 4 2 ≠ s.dev + 1024 * s.sys then .next s
  else .next ((s.takeSlots link 0x09 slot).onStepAck slot)

end Sys2Proof.Machine
end

