-- ==== Sys2Proof/Machine/Routing.lean ====
section
/-! DEFINITION. The meanings of the routing and nap commands (spec/16): messages and envelopes passed on, the link-state table, pins, naps. -/

namespace Sys2Proof.Machine

/-! ### Messages passed on (R411, R434, R442, R450) -/

/-- The message kinds that the device implements (R410). -/
def knownMessage (k : Nat) : Bool := k ∈ [0x01, 0x02, 0x03, 0x10, 0x11, 0x12, 0x30, 0x3F]

/-- A message or envelope is discarded as undeliverable: counted and logged; `why` 0 second failure, 1 no gateway, 2 wrong system, 3 service link. -/
def State.discard (s : State) (link vc why : Nat) (h : MsgHead) : State :=
  (s.bump Fld.wlkRtStatDiscards).log 0x0504 5 link (routeDrop h vc why)

/-- Why something that arrived on a link for another device goes no further at once: a service link carries nothing on (R426), a federation link nothing for
a third system (R442). -/
def State.arrivalDrop (s : State) (link sys : Nat) : Option Nat :=
  if s.linkMode link = 2 then some 3 else if s.linkMode link = 1 ∧ sys ≠ s.sys then some 2 else none

/-- A message of a KIND that the device does not implement: one of VC 0 is answered BAD_OPCODE, any other is counted (R411). -/
def State.unknownKind (s : State) (link : Nat) (h : MsgHead) : State :=
  if kindVc h.kind = 0 then
    s.sendMsg { h with dev := h.orgDev, sys := h.orgSys, kind := 0x11, detour := false } (leBytes 1 Status.badOpcode.code ++ zeroBytes 15)
  else s.bump Fld.wlkErr2Protocol 1 link

/-- A message for another device leaves by its pin or by a route. No message goes to a device out of service, but TEST and what its rebuild needs (R450,
R478). -/
def State.passOn (s : State) (link : Nat) (msg : List Byte) : State :=
  let h := MsgHead.of msg
  let vc := kindVc h.kind
  match s.arrivalDrop link h.sys with
  | some w => s.discard link vc w h
  | none =>
    if decide (h.sys = s.sys) && decide (h.kind ≠ 0x3F) && !selfMessage msg && !s.devTakes (s.aliasOf h.dev) then s.discard link vc 0 h
    else
      let bs := if s.linkMode link = 1 then overlay msg 12 [BitVec.ofNat 8 ((msg.getD 12 0#8).toNat - (msg.getD 12 0#8).toNat / 2 % 2 * 2)] else msg
      s.sendItem false link { vc := vc, kind := h.kind, tier := h.tier, sys := h.sys, dev := h.dev, bytes := bs }

/-- MESSAGE_FORWARD: a message that is not for this device, or of a KIND that it does not implement (R411, R434). -/
def execMessageForward (link : Nat) (msg : List Byte) (s : State) : Out :=
  let h := MsgHead.of msg
  if msg.length < 16 ∨ msg.length ≠ 16 + 16 * h.len then .next s
  else if s.forMe (selfMessage msg) h.sys h.dev then
    (if knownMessage h.kind then .next s else .next ((s.consume link (kindVc h.kind) msg).unknownKind link h))
  else .next ((s.consume link (kindVc h.kind) msg).passOn link msg)

/-! ### LINK_STATE (R428 to R431) -/

/-- A LINK_STATE notice is applied where it is newer than what is held: the table's entry, and what follows for its group (R431, R466, R478). -/
def State.applyState (s : State) (b : List Byte) : State :=
  let d := bodyNat b 2 2 % 1024
  let count := bodyNat b 1 1
  let q := bodyNat b 4 2
  let e := s.lsTable.get d
  let ahead := (q + 65536 - e.seq) % 65536
  if bodyNat b 2 2 / 1024 ≠ s.sys ∨ d = s.dev then s
  else if e.heard.isSome && decide (count = e.count) && !(decide (1 ≤ ahead) && decide (ahead ≤ 32767)) then s
  else
    let x : LsEntry := { heard := some s.us, count := count, seq := q, links := bodyNat b 6 16, devState := bodyNat b 22 1 % 4, stale := false }
    ((({ s with lsTable := s.lsTable.put d x }).seenOut d).seenIn d).tellJoin

/-- LINK_STATE: a LINK_STATE notice arrives: forwarded as a flood, and applied; none is taken from links 62 and 63 (R429, R431). -/
def execLinkState (link : Nat) (slots : List Byte) (s : State) : Out :=
  if bodyNat slots 0 1 ≠ 2 then .next s
  else
    let s := s.takeSlots link 0x09 slots
    if link = 62 ∨ link = 63 then .next s else .next ((s.floodOn link 0x09 slots).applyState slots)

/-- REFRESH_MS in force, in µs. -/
def State.refreshUs (s : State) : Nat := 1000 * clamp 10 10000 (s.fld Fld.wlkRtCtrlRefreshMs)

/-- LINK_STATE_REFRESH: the period has passed since this device's last notice (R429). -/
def execLinkStateRefresh (s : State) : Out :=
  if !s.pwrgood || s.halted || !s.flag Fld.glbClkLock || s.starting.isSome || decide (s.fld Fld.pwrStartStep < 8) || decide (s.us < s.lsSent + s.refreshUs) then
    .next s
  else .next s.floodState.tellJoin

/-- LINK_STATE_STALE: a device has been silent for three periods: its links are not usable and it counts as OUT (R430, R466). -/
def execLinkStateStale (dev : Nat) (s : State) : Out :=
  let e := s.lsTable.get dev
  match e.heard with
  | none => .next s
  | some t =>
    if e.stale || decide (s.us < t + 3 * s.refreshUs) then .next s
    else .next ({ s with lsTable := s.lsTable.put dev { e with stale := true } }.seenOut dev)

/-- PIN_LAPSE: pins of an origin and destination (by their 16-bit names) on a virtual channel that have not been used for PIN_US lapse (R436). -/
def execPinLapse (origin dest vc : Nat) (s : State) : Out :=
  let life := clamp 10 10000 (s.fld Fld.wlkRtCtrlPinUs)
  .next (s.putPins (s.pins.filter fun p =>
    !(decide (p.org + 1024 * p.orgSys = origin) && decide (p.dst + 1024 * p.dstSys = dest) && decide (p.vc = vc) && decide (p.used + life ≤ s.us))))

/-! ### Envelopes (R439, R440, R442) -/

/-- What an arm answers as a state; the rows of notices always go on. -/
def stateOf (s : State) : Out → State
  | .next t => t
  | _ => s

/-- A RECOVERY notice out of an envelope is acted on as the row of its sub-kind says. -/
def State.recoveryNotice (s : State) (link : Nat) (b : List Byte) : State :=
  stateOf s (match slotSub b with
    | 1 => execJoin link b s
    | 2 => execAbsent link b s
    | 3 => execAssume link b s
    | 4 => execReturn link b s
    | 5 => execLock link b s
    | 6 => execUnlock link b s
    | 7 => execRecoveryWait link b s
    | 8 => execDead link b s
    | 9 => execFree link b s
    | 10 => execDirty link b s
    | 11 => execLost link b s
    | _ => .next s)

/-- A notice out of an envelope is acted on. `link` names the envelope's origin, as 65 and its name; `at'` is the link that it came by. -/
def State.openNotice (s : State) (at' link kind : Nat) (b : List Byte) : State :=
  match kind with
  | 0x01 => s.onPour false b
  | 0x02 => s.onCancel b
  | 0x03 => s.onCancelAck b
  | 0x04 => s.onRevoke b
  | 0x05 => s.onRevokeAck b
  | 0x06 => s.onTable link b
  | 0x07 => s.onTableAck b
  | 0x08 => s.recoveryNotice link b
  | 0x09 =>
    match bodyNat b 0 1 with
    | 2 => s.applyState b
    | 3 => s.onStep b
    | 4 => s.onStepAck b
    | _ => s.bump Fld.wlkErr2Protocol 1 at'
  | 0x0A => stateOf s (execLinkLost link b s)
  | _ => s.bump Fld.wlkErr2Protocol 1 at'

/-- Envelope fields: destination, origin, as a message head. -/
def envHead (b : List Byte) : MsgHead :=
  { dev := bodyNat b 2 2 % 1024, sys := bodyNat b 2 2 / 1024, orgDev := bodyNat b 4 2 % 1024, orgSys := bodyNat b 4 2 / 1024, kind := bodyNat b 6 1,
    detour := bit (bodyNat b 1 1) 0 }

/-- An envelope for another device is routed on as a message is (R434, R439, R442). -/
def State.passEnvelope (s : State) (link : Nat) (b : List Byte) : State :=
  let h := envHead b
  match s.arrivalDrop link h.sys with
  | some w => s.discard link 2 w h
  | none =>
    let det := h.detour && decide (s.linkMode link ≠ 1)
    match s.choose false h.orgDev h.sys h.dev det (selfEnvelope b) with
    | none => s.discard link 2 (if h.sys = s.sys then 0 else 1) h
    | some c =>
      if 62 ≤ c.link ∧ (s.linkMode c.link ≠ 1 ∨ s.fld Fld.wlkStatePartnerSys c.link ≠ h.sys) then s.discard link 2 2 h
      else
        let s := if c.detour && !det then s.bump Fld.wlkRtStatDetours else s
        let fl := bodyNat b 1 1 / 2 * 2 + b2n (det || c.detour)
        s.enqueue c.link c.hops { vc := 2, kind := 0x09, sys := h.sys, dev := h.dev, recovery := noticeClass h.kind (b.drop 16),
                                  bytes := overlay b 1 [BitVec.ofNat 8 fl] }

/-- ROUTE: an envelope arrives: opened here, as if on a cross-shelf link where FLOOD_CROSS is set, or routed on (R439, R440). -/
def execRoute (link : Nat) (slots : List Byte) (s : State) : Out :=
  if bodyNat slots 0 1 ≠ 1 then .next s
  else
    let s := s.takeSlots link 0x09 slots
    let h := envHead slots
    if !s.forMe (selfEnvelope slots) h.sys h.dev then .next (s.passEnvelope link slots)
    else
      let b := (slots.drop 16).take (16 * bodyNat slots 7 1)
      let from' := 65 + h.orgDev + 1024 * h.orgSys
      let cross := bit (bodyNat slots 1 1) 1
      if cross && decide (h.kind = 0x01) then .next (s.onPour true b)
      else
        let s := if cross && decide (h.kind = 0x08 ∨ h.kind = 0x09) then s.flood h.kind b (List.range 31) else s
        .next (s.openNotice link from' h.kind b)

/-! ### Naps (R444 to R449) -/

/-- The conditions of R444 and R414 at this end. LINK flits, which ask for and answer naps, count neither as traffic nor as outstanding (DEDUCED, log entry
37). -/
def State.napReady (s : State) (k : Nat) : Bool :=
  let l := s.link k
  s.flag Fld.wlkNapCtrlEnable k && l.napOk && decide (s.tstate k = 5) && decide (l.used + max 1 (s.fld Fld.wlkNapCtrlIdleUs k) ≤ s.us) &&
    l.replay.all (fun f => f.typ = 3) && l.waiting.isEmpty && l.lostWait.isNone && (s.pins.all fun p => p.link ≠ k) &&
    decide (s.fld Fld.wlkRtCtrlMinAwake ≤ (s.usableLinks (fun j => j ≠ k) 62).length)

/-- The cap in force and MAX_US. -/
def State.napMax (s : State) (k : Nat) : Nat := clamp 100 10000 (s.fld Fld.wlkNapCtrlMaxUs k)

/-- NAP_IDLE: an idle link asks for a nap (R444, R445). -/
def execNapIdle (link : Nat) (s : State) : Out :=
  if !s.napReady link || (s.link link).napAsked.isSome then .next s
  else
    let i := min (s.napMax link) (s.fld Fld.wlkNapStateCapUs link)
    .next ((s.modLink link fun l => { l with napAsked := some i }).linkNotice link 1 i)

/-- The link naps for an interval from now on: it stops, and routing treats it as not usable (R445, R449). -/
def State.nap (s : State) (k i : Nat) : State :=
  let t := (s.setTstate k 6).modLink k fun l => { l with napAsked := none, napUntil := s.us + i }
  (((t.setFld Fld.wlkNapStateLastUs i k).bump Fld.wlkNapStatNaps 1 k)).noteLinks s

/-- A request is refused. -/
def State.napRefused (s : State) (k : Nat) : State := (s.modLink k fun l => { l with napAsked := none }).bump Fld.wlkNapStatRefused 1 k

/-- NAP_REQ: the partner asks for a nap; where both ask at once the end with the lower name goes first (R444, R445). -/
def execNapReq (link : Nat) (slot : List Byte) (s : State) : Out :=
  let l := s.link link
  let mine := s.dev + 1024 * s.sys
  let theirs := s.fld Fld.wlkStatePartnerDev link + 1024 * s.fld Fld.wlkStatePartnerSys link
  if s.tstate link ≠ 5 ∨ (l.napAsked.isSome = true ∧ mine < theirs) then .next s
  else if s.napReady link then
    let i := min (bodyNat slot 4 4) (s.fld Fld.wlkNapStateCapUs link)
    .next ((s.linkNotice link 2 i).nap link i)
  else .next ((s.linkNotice link 3 0).napRefused link)

/-- NAP_ACK: the partner grants the nap (R445). -/
def execNapAck (link : Nat) (slot : List Byte) (s : State) : Out :=
  if s.tstate link ≠ 5 ∨ (s.link link).napAsked.isNone = true then .next s else .next (s.nap link (bodyNat slot 4 4 % 2 ^ 14))

/-- NAP_NAK: the partner refuses (R444). -/
def execNapNak (link : Nat) (slot : List Byte) (s : State) : Out :=
  if decide ((s.link link).napAsked.isNone) || decide (slot.length ≠ 16) then .next s else .next (s.napRefused link)

/-- NAP_WAKE: the wake time has come and the partner is heard: ACTIVE again; the eighth clean wake restores the cap (R446, R448). -/
def execNapWake (link : Nat) (s : State) : Out :=
  if s.tstate link ≠ 6 ∨ s.us < (s.link link).napUntil then .next s
  else
    let n := s.fld Fld.wlkNapStateClean link + 1
    let t := (s.setTstate link 5).modLink link fun l => { l with used := s.us, timer := s.us }
    let t := if n = 8 then (t.setFld Fld.wlkNapStateClean 0 link).setFld Fld.wlkNapStateCapUs (s.napMax link) link
      else t.setFld Fld.wlkNapStateClean n link
    .next ((t.flush link).noteLinks s)

/-- NAP_WAKE_MISSED: no marker by W + 2 µs: a fast retrain, and the cap halves (R447, R448). -/
def execNapWakeMissed (link : Nat) (s : State) : Out :=
  if s.tstate link ≠ 6 ∨ s.us < (s.link link).napUntil + 2 then .next s
  else
    let s := (s.bump Fld.wlkNapStatMissed 1 link).setFld Fld.wlkNapStateCapUs (max (s.fld Fld.wlkNapStateCapUs link / 2) 100) link
    .next ((s.setFld Fld.wlkNapStateClean 0 link).beginFast link)

end Sys2Proof.Machine
end

