-- ==== Sys2Proof/Machine/Dispatch.lean ====
section
/-! DEFINITION. The meaning of each command: one arm per row of the table of operations, each one direct call. -/

namespace Sys2Proof.Machine

/-- The effect of one command on everything but the queue. -/
def exec (i : Instr) (s : State) : Host.Outcome State Fault Refusal :=
  match i with
  | .cmdAcqEnable f cfg => Sys2Proof.Machine.execCmdAcqEnable f cfg s
  | .cmdAcqDisable f cfg => Sys2Proof.Machine.execCmdAcqDisable f cfg s
  | .sqEntryWrite f off data => Sys2Proof.Machine.execSqEntryWrite f off data s
  | .sqTailDoorbell f q t => Sys2Proof.Machine.execSqTailDoorbell f q t s
  | .cqHeadDoorbell f j h => Sys2Proof.Machine.execCqHeadDoorbell f j h s
  | .replyWrite tag => Sys2Proof.Machine.execReplyWrite tag s
  | .coalesceTimeExpiry f v => Sys2Proof.Machine.execCoalesceTimeExpiry f v s
  | .msixUnmask f v => Sys2Proof.Machine.execMsixUnmask f v s
  | .busMasterEnableSet f => Sys2Proof.Machine.execBusMasterEnableSet f s
  | .hostFault tag kind addr => Sys2Proof.Machine.execHostFault tag kind addr s
  | .progressWatchdogExpiry tag cls unit => Sys2Proof.Machine.execProgressWatchdogExpiry tag cls unit s
  | .identify tag => Sys2Proof.Machine.execIdentify tag s
  | .sqCreate tag => Sys2Proof.Machine.execSqCreate tag s
  | .sqDelete tag => Sys2Proof.Machine.execSqDelete tag s
  | .cqCreate tag => Sys2Proof.Machine.execCqCreate tag s
  | .cqDelete tag => Sys2Proof.Machine.execCqDelete tag s
  | .renew tag => Sys2Proof.Machine.execRenew tag s
  | .ualloc tag => Sys2Proof.Machine.execUalloc tag s
  | .ufree tag => Sys2Proof.Machine.execUfree tag s
  | .abort tag => Sys2Proof.Machine.execAbort tag s
  | .claim tag => Sys2Proof.Machine.execClaim tag s
  | .release tag => Sys2Proof.Machine.execRelease tag s
  | .grant tag => Sys2Proof.Machine.execGrant tag s
  | .read tag => Sys2Proof.Machine.execRead tag s
  | .write tag => Sys2Proof.Machine.execWrite tag s
  | .lread tag => Sys2Proof.Machine.execLread tag s
  | .lstage tag => Sys2Proof.Machine.execLstage tag s
  | .lload tag => Sys2Proof.Machine.execLload tag s
  | .sopen tag => Sys2Proof.Machine.execSopen tag s
  | .sappend tag => Sys2Proof.Machine.execSappend tag s
  | .appendOrdered tag => Sys2Proof.Machine.execAppendOrdered tag s
  | .appendCommit tag => Sys2Proof.Machine.execAppendCommit tag s
  | .sread tag => Sys2Proof.Machine.execSread tag s
  | .strim tag => Sys2Proof.Machine.execStrim tag s
  | .chunkFree home stream gen chunk => Sys2Proof.Machine.execChunkFree home stream gen chunk s
  | .sclose tag => Sys2Proof.Machine.execSclose tag s
  | .pfill tag => Sys2Proof.Machine.execPfill tag s
  | .pcopy tag => Sys2Proof.Machine.execPcopy tag s
  | .pcmp tag => Sys2Proof.Machine.execPcmp tag s
  | .preduce tag => Sys2Proof.Machine.execPreduce tag s
  | .pscan tag => Sys2Proof.Machine.execPscan tag s
  | .sliceGrant frag => Sys2Proof.Machine.execSliceGrant frag s
  | .passComplete frag => Sys2Proof.Machine.execPassComplete frag s
  | .pour tag => Sys2Proof.Machine.execPour tag s
  | .triggerSet tag => Sys2Proof.Machine.execTriggerSet tag s
  | .triggerClear tag => Sys2Proof.Machine.execTriggerClear tag s
  | .dalloc tag => Sys2Proof.Machine.execDalloc tag s
  | .dfree tag => Sys2Proof.Machine.execDfree tag s
  | .dstart tag => Sys2Proof.Machine.execDstart tag s
  | .dstartArmOnly tag => Sys2Proof.Machine.execDstartArmOnly tag s
  | .dstartResume tag => Sys2Proof.Machine.execDstartResume tag s
  | .dstop tag => Sys2Proof.Machine.execDstop tag s
  | .bquery tag => Sys2Proof.Machine.execBquery tag s
  | .blist tag => Sys2Proof.Machine.execBlist tag s
  | .partitionAdd tag => Sys2Proof.Machine.execPartitionAdd tag s
  | .partitionRemove tag => Sys2Proof.Machine.execPartitionRemove tag s
  | .partitionClear tag => Sys2Proof.Machine.execPartitionClear tag s
  | .admitFunction tag => Sys2Proof.Machine.execAdmit tag s
  | .update tag => Sys2Proof.Machine.execUpdate tag s
  | .expel tag => Sys2Proof.Machine.execExpel tag s
  | .keyLoad tag => Sys2Proof.Machine.execKeyLoad tag s
  | .keyErase tag => Sys2Proof.Machine.execKeyErase tag s
  | .designate tag => Sys2Proof.Machine.execDesignate tag s
  | .withdraw tag => Sys2Proof.Machine.execWithdraw tag s
  | .seize tag => Sys2Proof.Machine.execSeize tag s
  | .unitServiceOut tag => Sys2Proof.Machine.execUnitServiceOut tag s
  | .unitServiceQuarantine tag => Sys2Proof.Machine.execUnitServiceQuarantine tag s
  | .unitServiceWarm tag => Sys2Proof.Machine.execUnitServiceWarm tag s
  | .unitServiceServing tag => Sys2Proof.Machine.execUnitServiceServing tag s
  | .selfTestDone cls unit code => Sys2Proof.Machine.execSelfTestDone cls unit code s
  | .volumeCreate tag => Sys2Proof.Machine.execVolumeCreate tag s
  | .volumeDelete tag => Sys2Proof.Machine.execVolumeDelete tag s
  | .grantRead tag => Sys2Proof.Machine.execGrantRead tag s
  | .revokeRead tag => Sys2Proof.Machine.execRevokeRead tag s
  | .setWriter tag => Sys2Proof.Machine.execSetWriter tag s
  | .pourDomEnable d => Sys2Proof.Machine.execPourDomEnable d s
  | .pourDomDisable d => Sys2Proof.Machine.execPourDomDisable d s
  | .pourDomReset d => Sys2Proof.Machine.execPourDomReset d s
  | .pourUpdateReceive link slot => Sys2Proof.Machine.execPourUpdateReceive link slot s
  | .pourSync link d => Sys2Proof.Machine.execPourSync link d s
  | .pourSyncTimeout d => Sys2Proof.Machine.execPourSyncTimeout d s
  | .tickAdvance d => Sys2Proof.Machine.execTickAdvance d s
  | .silenceExpiry d => Sys2Proof.Machine.execSilenceExpiry d s
  | .triggerFire e => Sys2Proof.Machine.execTriggerFire e s
  | .twbCaptureGo wrap => Sys2Proof.Machine.execTwbCaptureGo wrap s
  | .twbReplayGo wrap => Sys2Proof.Machine.execTwbReplayGo wrap s
  | .twbReplayDone => Sys2Proof.Machine.execTwbReplayDone s
  | .mapDirectExit => Sys2Proof.Machine.execMapDirectExit s
  | .leaseExpiry stream key => Sys2Proof.Machine.execLeaseExpiry stream key s
  | .graceEnd stream key => Sys2Proof.Machine.execGraceEnd stream key s
  | .zeroFillStart stream key => Sys2Proof.Machine.execZeroFillStart stream key s
  | .zeroFillDone key => Sys2Proof.Machine.execZeroFillDone key s
  | .poolLogicalWrite src gib => Sys2Proof.Machine.execPoolLogicalWrite src gib s
  | .logRetire => Sys2Proof.Machine.execLogRetire s
  | .oldSectorsFree base => Sys2Proof.Machine.execOldSectorsFree base s
  | .flashFrameRead ch frame step corrected => Sys2Proof.Machine.execFlashFrameRead ch frame step corrected s
  | .libPatrol ch frame step corrected => Sys2Proof.Machine.execLibPatrol ch frame step corrected s
  | .lunStatusTimeout ch target lun => Sys2Proof.Machine.execLunStatusTimeout ch target lun s
  | .dieRebuildUnit vol unit frame => Sys2Proof.Machine.execDieRebuildUnit vol unit frame s
  | .stageHoldExpiry vol unit tier => Sys2Proof.Machine.execStageHoldExpiry vol unit tier s
  | .stageWaitExpiry tag => Sys2Proof.Machine.execStageWaitExpiry tag s
  | .libStageDramWrite src gib => Sys2Proof.Machine.execLibStageDramWrite src gib s
  | .libStageUrnWrite src mib => Sys2Proof.Machine.execLibStageUrnWrite src mib s
  | .prsScratchWrite src value => Sys2Proof.Machine.execPrsScratchWrite src value s
  | .bufferDeferredFree idx => Sys2Proof.Machine.execBufferDeferredFree idx s
  | .urnScrubPatrol off errs => Sys2Proof.Machine.execUrnScrubPatrol off errs s
  | .urnWinCtrlWrite w value => Sys2Proof.Machine.execUrnWinCtrlWrite w value s
  | .channelDispatch e => Sys2Proof.Machine.execChannelDispatch e s
  | .descriptor ch => Sys2Proof.Machine.execDescriptor ch s
  | .move ch => Sys2Proof.Machine.execMove ch s
  | .loop ch => Sys2Proof.Machine.execLoop ch s
  | .wait ch => Sys2Proof.Machine.execWait ch s
  | .waitFlagPoll ch => Sys2Proof.Machine.execWaitFlagPoll ch s
  | .waitSatisfied ch => Sys2Proof.Machine.execWaitSatisfied ch s
  | .waitLimitExpiry ch => Sys2Proof.Machine.execWaitLimitExpiry ch s
  | .signal ch => Sys2Proof.Machine.execSignal ch s
  | .endInstr ch => Sys2Proof.Machine.execEnd ch s
  | .runComplete ch => Sys2Proof.Machine.execRunComplete ch s
  | .dmaRetryTimer ch => Sys2Proof.Machine.execDmaRetryTimer ch s
  | .trefiElapse c r => Sys2Proof.Machine.execTrefiElapse c r s
  | .opportunisticRefresh c r => Sys2Proof.Machine.execOpportunisticRefresh c r s
  | .rowIdleClose c bank => Sys2Proof.Machine.execRowIdleClose c bank s
  | .thermalHot c => Sys2Proof.Machine.execThermalHot c s
  | .dramPatrolScrub c addr errs => Sys2Proof.Machine.execDramPatrolScrub c addr errs s
  | .dramChannelLost c => Sys2Proof.Machine.execDramChannelLost c s
  | .drcHashNextWrite k value => Sys2Proof.Machine.execDrcHashNextWrite k value s
  | .blendUsTick => Sys2Proof.Machine.execBlendUsTick s
  | .blendWindowEnd utils backlog fails => Sys2Proof.Machine.execBlendWindowEnd utils backlog fails s
  | .bldCommit b => Sys2Proof.Machine.execBldCommit b s
  | .bldActiveWrite value => Sys2Proof.Machine.execBldActiveWrite value s
  | .decafAge arb order => Sys2Proof.Machine.execDecafAge arb order s
  | .flr f => Sys2Proof.Machine.execFlr f s
  | .flrCancelTimeout f => Sys2Proof.Machine.execFlrCancelTimeout f s
  | .portReset att => Sys2Proof.Machine.execPortReset att s
  | .vfEnableClear pf => Sys2Proof.Machine.execVfEnableClear pf s
  | .numvfsWrite pf n => Sys2Proof.Machine.execNumvfsWrite pf n s
  | .tenFmWrite src value => Sys2Proof.Machine.execTenFmWrite src value s
  | .tenFmHandover => Sys2Proof.Machine.execTenFmHandover s
  | .flitReceive link data corrected uncorrectable => Sys2Proof.Machine.execFlitReceive link data corrected uncorrectable s
  | .replayTimerExpiry link => Sys2Proof.Machine.execReplayTimerExpiry link s
  | .fastRetrain link => Sys2Proof.Machine.execFastRetrain link s
  | .coldRetrain link => Sys2Proof.Machine.execColdRetrain link s
  | .detectTimeout link => Sys2Proof.Machine.execDetectTimeout link s
  | .trainFlit link data => Sys2Proof.Machine.execTrainFlit link data s
  | .paramTimeout link => Sys2Proof.Machine.execParamTimeout link s
  | .reupTimer link => Sys2Proof.Machine.execReupTimer link s
  | .wlkCtrlFast link => Sys2Proof.Machine.execWlkCtrlFast link s
  | .wlkCtrlCold link => Sys2Proof.Machine.execWlkCtrlCold link s
  | .wlkCreditWrite link value => Sys2Proof.Machine.execWlkCreditWrite link value s
  | .fastReq link => Sys2Proof.Machine.execFastReq link s
  | .coldReq link => Sys2Proof.Machine.execColdReq link s
  | .linkLost link slot => Sys2Proof.Machine.execLinkLost link slot s
  | .linkLostTimeout link => Sys2Proof.Machine.execLinkLostTimeout link s
  | .cmdFwd link msg => Sys2Proof.Machine.execCmdFwd link msg s
  | .work link msg => Sys2Proof.Machine.execWork link msg s
  | .writeData link msg => Sys2Proof.Machine.execWriteData link msg s
  | .replyMsg link msg => Sys2Proof.Machine.execReplyMsg link msg s
  | .partDone link msg => Sys2Proof.Machine.execPartDone link msg s
  | .readData link msg => Sys2Proof.Machine.execReadData link msg s
  | .bulk link msg => Sys2Proof.Machine.execBulk link msg s
  | .test link msg => Sys2Proof.Machine.execTest link msg s
  | .cancel link slot => Sys2Proof.Machine.execCancel link slot s
  | .cancelAck link slot => Sys2Proof.Machine.execCancelAck link slot s
  | .revoke link slot => Sys2Proof.Machine.execRevoke link slot s
  | .revokeAck link slot => Sys2Proof.Machine.execRevokeAck link slot s
  | .table link slot => Sys2Proof.Machine.execTable link slot s
  | .tableAck link slot => Sys2Proof.Machine.execTableAck link slot s
  | .messageForward link msg => Sys2Proof.Machine.execMessageForward link msg s
  | .route link slots => Sys2Proof.Machine.execRoute link slots s
  | .linkState link slots => Sys2Proof.Machine.execLinkState link slots s
  | .linkStateRefresh => Sys2Proof.Machine.execLinkStateRefresh s
  | .linkStateStale dev => Sys2Proof.Machine.execLinkStateStale dev s
  | .pinLapse origin dest vc => Sys2Proof.Machine.execPinLapse origin dest vc s
  | .napIdle link => Sys2Proof.Machine.execNapIdle link s
  | .napReq link slot => Sys2Proof.Machine.execNapReq link slot s
  | .napAck link slot => Sys2Proof.Machine.execNapAck link slot s
  | .napNak link slot => Sys2Proof.Machine.execNapNak link slot s
  | .napWake link => Sys2Proof.Machine.execNapWake link s
  | .napWakeMissed link => Sys2Proof.Machine.execNapWakeMissed link s
  | .step link slot => Sys2Proof.Machine.execStep link slot s
  | .stepAck link slot => Sys2Proof.Machine.execStepAck link slot s
  | .protCommit width => Sys2Proof.Machine.execProtCommit width s
  | .join link slots => Sys2Proof.Machine.execJoin link slots s
  | .groupSyncDone => Sys2Proof.Machine.execGroupSyncDone s
  | .deltaAckTimeout stripe => Sys2Proof.Machine.execDeltaAckTimeout stripe s
  | .absent link slots => Sys2Proof.Machine.execAbsent link slots s
  | .failTimeout pos => Sys2Proof.Machine.execFailTimeout pos s
  | .assume link slots => Sys2Proof.Machine.execAssume link slots s
  | .spareRestoreDone => Sys2Proof.Machine.execSpareRestoreDone s
  | .stripeRebuild => Sys2Proof.Machine.execStripeRebuild s
  | .lock link slots => Sys2Proof.Machine.execLock link slots s
  | .unlock link slots => Sys2Proof.Machine.execUnlock link slots s
  | .flashStripeCloseTimeout stripe => Sys2Proof.Machine.execFlashStripeCloseTimeout stripe s
  | .recoveryWait link slots => Sys2Proof.Machine.execRecoveryWait link slots s
  | .dead link slots => Sys2Proof.Machine.execDead link slots s
  | .free link slots => Sys2Proof.Machine.execFree link slots s
  | .dirty link slots => Sys2Proof.Machine.execDirty link slots s
  | .return link slots => Sys2Proof.Machine.execReturn link slots s
  | .lost link slots => Sys2Proof.Machine.execLost link slots s
  | .protEvacGo target => Sys2Proof.Machine.execProtEvacGo target s
  | .evacuationDone => Sys2Proof.Machine.execEvacuationDone s
  | .mbAddress pair byte => Sys2Proof.Machine.execMbAddress pair byte s
  | .mbPointerWrite pair hi lo => Sys2Proof.Machine.execMbPointerWrite pair hi lo s
  | .mbReadByte pair ack => Sys2Proof.Machine.execMbReadByte pair ack s
  | .mbWriteByte pair byte => Sys2Proof.Machine.execMbWriteByte pair byte s
  | .mbStretchAbort pair => Sys2Proof.Machine.execMbStretchAbort pair s
  | .mbAttentionSignal pair => Sys2Proof.Machine.execMbAttentionSignal pair s
  | .attentionBackoff => Sys2Proof.Machine.execAttentionBackoff s
  | .mbAlertResponse pair won => Sys2Proof.Machine.execMbAlertResponse pair won s
  | .mbAttentionDetect pair addrs => Sys2Proof.Machine.execMbAttentionDetect pair addrs s
  | .mbAttnReq => Sys2Proof.Machine.execMbAttnReq s
  | .mbLock f => Sys2Proof.Machine.execMbLock f s
  | .mbXcmdGo value => Sys2Proof.Machine.execMbXcmdGo value s
  | .mbTransferDone status count data => Sys2Proof.Machine.execMbTransferDone status count data s
  | .mbStuckSda pair released => Sys2Proof.Machine.execMbStuckSda pair released s
  | .mbSclTimeout pair => Sys2Proof.Machine.execMbSclTimeout pair s
  | .mbDeadPairCheck pair high => Sys2Proof.Machine.execMbDeadPairCheck pair high s
  | .mbWakeMatch pair byte => Sys2Proof.Machine.execMbWakeMatch pair byte s
  | .pwrTargetDoze src => Sys2Proof.Machine.execPwrTargetDoze src s
  | .pwrTargetSleep src => Sys2Proof.Machine.execPwrTargetSleep src s
  | .pwrTargetOn src => Sys2Proof.Machine.execPwrTargetOn src s
  | .dozeWake cause => Sys2Proof.Machine.execDozeWake cause s
  | .wakeN => Sys2Proof.Machine.execWakeN s
  | .sleepWake cause => Sys2Proof.Machine.execSleepWake cause s
  | .vstbyRise straps => Sys2Proof.Machine.execVstbyRise straps s
  | .pwrgoodAssert rails => Sys2Proof.Machine.execPwrgoodAssert rails s
  | .coldStart population => Sys2Proof.Machine.execColdStart population s
  | .startupStepTimeout step => Sys2Proof.Machine.execStartupStepTimeout step s
  | .pwrgoodFall => Sys2Proof.Machine.execPwrgoodFall s
  | .railFault rail => Sys2Proof.Machine.execRailFault rail s
  | .thermtrip => Sys2Proof.Machine.execThermtrip s
  | .pllLockLoss => Sys2Proof.Machine.execPllLockLoss s
  | .pwrResetDevice src confirm => Sys2Proof.Machine.execPwrResetDevice src confirm s
  | .pwrResetMgmt src confirm => Sys2Proof.Machine.execPwrResetMgmt src confirm s
  | .barista15Watchdog => Sys2Proof.Machine.execBarista15Watchdog s
  | .configWrite => Sys2Proof.Machine.execConfigWrite s
  | .fwStage image => Sys2Proof.Machine.execFwStage image s
  | .fwStageDone => Sys2Proof.Machine.execFwStageDone s
  | .fwActivate => Sys2Proof.Machine.execFwActivate s
  | .fwCommitSvn => Sys2Proof.Machine.execFwCommitSvn s
  | .evtConsWrite src value => Sys2Proof.Machine.execEvtConsWrite src value s
  | .evtClear => Sys2Proof.Machine.execEvtClear s
  | .evtBusPop pair => Sys2Proof.Machine.execEvtBusPop pair s
  | .registerWrite src tenant f off len value => Sys2Proof.Machine.execRegisterWrite src tenant f off len value s
  | .busMasterEnableClear f => Sys2Proof.Machine.execBusMasterEnableClear f s
  | .vfEnableSet pf => Sys2Proof.Machine.execVfEnableSet pf s
  | .perstRelease att => Sys2Proof.Machine.execPerstRelease att s
  | .dramInitDone gib => Sys2Proof.Machine.execDramInitDone gib s
  | .thermalHotEnd c => Sys2Proof.Machine.execThermalHotEnd c s
  | .laneSignalLoss link lane => Sys2Proof.Machine.execLaneSignalLoss link lane s
  | .signalDetect link lanes => Sys2Proof.Machine.execSignalDetect link lanes s
  | .vstbyFall => Sys2Proof.Machine.execVstbyFall s
  | .spiHizNChange level => Sys2Proof.Machine.execSpiHizNChange level s
  | .mbStop pair => Sys2Proof.Machine.execMbStop pair s
  | .flashProgramDone ch target lun erase failed => Sys2Proof.Machine.execFlashProgramDone ch target lun erase failed s

end Sys2Proof.Machine
end

