-- ==== Sys2Proof/Safety.lean ====
section
/-! DEFINITION. The terms that claims use: what counts as a safe run, which parts of the state two states agree on, and the canonical form of the
memories. -/

namespace Sys2Proof.Machine

/-- A step went on: the machine neither faulted nor refused. -/
def Safe (o : Host.Outcome State Fault Refusal) : Prop := ∃ t, o = .next t

/-- A safe run: every step of it goes on. -/
def SafeRun : Nat → State → Prop
  | 0, _ => True
  | n + 1, s => ∃ t, step s = .next t ∧ SafeRun n t

/-- The parts of the state, one name for each of its fields. -/
inductive Field where
  | pending | regs | us | clockStop | freeCtr | out | fns | coal | fmNext | sqs
  | cqs | cmds | nextTag | hostMem | doms | trigs | batch | dueNext | dramGib | extents
  | lindex | partitions | owners | mapDram | mapLog | logSeq | alloc | oldRuns | sectors | keys
  | volumes | unitRecs | frames | chFrames | flash | staged | lunFails | streams | chunks | sinfo
  | frags | nextFrag | chans | nextRun | banks | refNext | eccCount | urn | bufs | urnPoison
  | svc | pairs | blendRuns | attPairs | winUs | winLen | loads | flatDone | flatSets | links | lsTable
  | lsCount | lsSeq | lsSent | pins | parts | nextPart | asks | cancels | volPrev | aliases
  | absentAt | joins | joining | joinDue | joinKept | dirty | lostFrames | resync | built | deltas
  | deltaSeq | flashStripes | flashPar | locks | heldDeltas | srcBytes | srcGot | rebuilding | draining | evRing
  | evOpen | evSent | bus | attn | xfer | halted | standby | straps | pwrgood | starting
  | faultN | thermtrip | spiHiz | sleepHeld | waking | norA | norB | slotA | slotB | minSvn
  | bootSlot | trial | staging | population | twbPos
  deriving DecidableEq, Repr

/-- Two states agree on one part. -/
def State.same : Field → State → State → Prop
  | .pending, s, t => t.pending = s.pending
  | .regs, s, t => t.regs = s.regs
  | .us, s, t => t.us = s.us
  | .clockStop, s, t => t.clockStop = s.clockStop
  | .freeCtr, s, t => t.freeCtr = s.freeCtr
  | .out, s, t => t.out = s.out
  | .fns, s, t => t.fns = s.fns
  | .coal, s, t => t.coal = s.coal
  | .fmNext, s, t => t.fmNext = s.fmNext
  | .sqs, s, t => t.sqs = s.sqs
  | .cqs, s, t => t.cqs = s.cqs
  | .cmds, s, t => t.cmds = s.cmds
  | .nextTag, s, t => t.nextTag = s.nextTag
  | .hostMem, s, t => t.hostMem = s.hostMem
  | .doms, s, t => t.doms = s.doms
  | .trigs, s, t => t.trigs = s.trigs
  | .batch, s, t => t.batch = s.batch
  | .dueNext, s, t => t.dueNext = s.dueNext
  | .dramGib, s, t => t.dramGib = s.dramGib
  | .extents, s, t => t.extents = s.extents
  | .lindex, s, t => t.lindex = s.lindex
  | .partitions, s, t => t.partitions = s.partitions
  | .owners, s, t => t.owners = s.owners
  | .mapDram, s, t => t.mapDram = s.mapDram
  | .mapLog, s, t => t.mapLog = s.mapLog
  | .logSeq, s, t => t.logSeq = s.logSeq
  | .alloc, s, t => t.alloc = s.alloc
  | .oldRuns, s, t => t.oldRuns = s.oldRuns
  | .sectors, s, t => t.sectors = s.sectors
  | .keys, s, t => t.keys = s.keys
  | .volumes, s, t => t.volumes = s.volumes
  | .unitRecs, s, t => t.unitRecs = s.unitRecs
  | .frames, s, t => t.frames = s.frames
  | .chFrames, s, t => t.chFrames = s.chFrames
  | .flash, s, t => t.flash = s.flash
  | .staged, s, t => t.staged = s.staged
  | .lunFails, s, t => t.lunFails = s.lunFails
  | .streams, s, t => t.streams = s.streams
  | .chunks, s, t => t.chunks = s.chunks
  | .sinfo, s, t => t.sinfo = s.sinfo
  | .frags, s, t => t.frags = s.frags
  | .nextFrag, s, t => t.nextFrag = s.nextFrag
  | .chans, s, t => t.chans = s.chans
  | .nextRun, s, t => t.nextRun = s.nextRun
  | .banks, s, t => t.banks = s.banks
  | .refNext, s, t => t.refNext = s.refNext
  | .eccCount, s, t => t.eccCount = s.eccCount
  | .urn, s, t => t.urn = s.urn
  | .bufs, s, t => t.bufs = s.bufs
  | .urnPoison, s, t => t.urnPoison = s.urnPoison
  | .svc, s, t => t.svc = s.svc
  | .pairs, s, t => t.pairs = s.pairs
  | .blendRuns, s, t => t.blendRuns = s.blendRuns
  | .attPairs, s, t => t.attPairs = s.attPairs
  | .winUs, s, t => t.winUs = s.winUs
  | .winLen, s, t => t.winLen = s.winLen
  | .loads, s, t => t.loads = s.loads
  | .flatDone, s, t => t.flatDone = s.flatDone
  | .flatSets, s, t => t.flatSets = s.flatSets
  | .links, s, t => t.links = s.links
  | .lsTable, s, t => t.lsTable = s.lsTable
  | .lsCount, s, t => t.lsCount = s.lsCount
  | .lsSeq, s, t => t.lsSeq = s.lsSeq
  | .lsSent, s, t => t.lsSent = s.lsSent
  | .pins, s, t => t.pins = s.pins
  | .parts, s, t => t.parts = s.parts
  | .nextPart, s, t => t.nextPart = s.nextPart
  | .asks, s, t => t.asks = s.asks
  | .cancels, s, t => t.cancels = s.cancels
  | .volPrev, s, t => t.volPrev = s.volPrev
  | .aliases, s, t => t.aliases = s.aliases
  | .absentAt, s, t => t.absentAt = s.absentAt
  | .joins, s, t => t.joins = s.joins
  | .joining, s, t => t.joining = s.joining
  | .joinDue, s, t => t.joinDue = s.joinDue
  | .joinKept, s, t => t.joinKept = s.joinKept
  | .dirty, s, t => t.dirty = s.dirty
  | .lostFrames, s, t => t.lostFrames = s.lostFrames
  | .resync, s, t => t.resync = s.resync
  | .built, s, t => t.built = s.built
  | .deltas, s, t => t.deltas = s.deltas
  | .deltaSeq, s, t => t.deltaSeq = s.deltaSeq
  | .flashStripes, s, t => t.flashStripes = s.flashStripes
  | .flashPar, s, t => t.flashPar = s.flashPar
  | .locks, s, t => t.locks = s.locks
  | .heldDeltas, s, t => t.heldDeltas = s.heldDeltas
  | .srcBytes, s, t => t.srcBytes = s.srcBytes
  | .srcGot, s, t => t.srcGot = s.srcGot
  | .rebuilding, s, t => t.rebuilding = s.rebuilding
  | .draining, s, t => t.draining = s.draining
  | .evRing, s, t => t.evRing = s.evRing
  | .evOpen, s, t => t.evOpen = s.evOpen
  | .evSent, s, t => t.evSent = s.evSent
  | .bus, s, t => t.bus = s.bus
  | .attn, s, t => t.attn = s.attn
  | .xfer, s, t => t.xfer = s.xfer
  | .halted, s, t => t.halted = s.halted
  | .standby, s, t => t.standby = s.standby
  | .straps, s, t => t.straps = s.straps
  | .pwrgood, s, t => t.pwrgood = s.pwrgood
  | .starting, s, t => t.starting = s.starting
  | .faultN, s, t => t.faultN = s.faultN
  | .thermtrip, s, t => t.thermtrip = s.thermtrip
  | .spiHiz, s, t => t.spiHiz = s.spiHiz
  | .sleepHeld, s, t => t.sleepHeld = s.sleepHeld
  | .waking, s, t => t.waking = s.waking
  | .norA, s, t => t.norA = s.norA
  | .norB, s, t => t.norB = s.norB
  | .slotA, s, t => t.slotA = s.slotA
  | .slotB, s, t => t.slotB = s.slotB
  | .minSvn, s, t => t.minSvn = s.minSvn
  | .bootSlot, s, t => t.bootSlot = s.bootSlot
  | .trial, s, t => t.trial = s.trial
  | .staging, s, t => t.staging = s.staging
  | .population, s, t => t.population = s.population
  | .twbPos, s, t => t.twbPos = s.twbPos

/-- The second state differs from the first at most in the parts listed. -/
def Only (ps : List Field) (s t : State) : Prop := ∀ p, p ∉ ps → State.same p s t

/-- Every register but those listed reads as before. -/
def RegsBut (rs : List Reg) (s t : State) : Prop := ∀ r, r ∉ rs → ∀ i j, t.rd r i j = s.rd r i j

/-- The block's outcome is a next state with the property. -/
def Runs (o : Host.Outcome State Fault Refusal) (P : State → Prop) : Prop := ∃ t, o = .next t ∧ P t

/-- Command `tag` of opcode `op` may be worked on: its record is `c`, nothing holds it back, it meets the checks that every opcode shares (R79 row 6), and
its device is not one that this device only answers for (R469, R470). -/
def Served (s : State) (tag op : Nat) (c : Cmd) : Prop :=
  s.ready tag op = some c ∧ rowSix c.entry = none ∧ s.proxyServe tag c = none

/-- Command `tag` has ended with that status and those result words, and its reply is due to the CID of its entry; OK is reported as OK_STALE_POUR where a
deadline was bound and its domain is STALE (R52, R55). -/
def Ended (s t : State) (tag : Nat) (st : Status) (r0 r1 : Nat) : Prop :=
  let c := s.cmd tag
  let d := t.cmd tag
  d.live = c.live ∧ d.stage = .done ∧ d.entry = c.entry ∧ d.reply.cid = Entry.cid c.entry ∧ d.reply.sq = c.sq ∧
    d.reply.status = t.finalStatus c st ∧ d.reply.result0 = r0 ∧ d.reply.result1 = r1

/-- No record but that of command `tag` differs among the commands. -/
def OtherCmds (s t : State) (tag : Nat) : Prop := ∀ p, p ≠ tag → t.cmd p = s.cmd p

/-- Every memory is in its canonical form: addresses strictly rising, no byte listed that reads as an unlisted one. -/
def Memory.wf (s : State) : Bool :=
  s.hostMem.wf && s.urn.wf && s.sectors.wf && s.flash.wf && s.srcBytes.wf && s.flashPar.wf

end Sys2Proof.Machine
end

