-- ==== Sys2Proof/Certificates/Slice0/Obligations.lean ====
section
/-! DEFINITION. What is claimed of the model, for the provers: one proposition per claim, each with the rules of spec/ that it follows. -/

open Sys2Proof Sys2Proof.Machine

/-! ### The queue and reset -/

/-- The command at the front of the queue is run on the state with the queue's rest; an empty queue leaves the block as it is (the queue and its
idling are the model's own: log entry 5). -/
def Obligations.StepRunsFrontCommand : Prop :=
  (∀ (s : State) (c : Instr) (rest : List Instr), s.pending = c :: rest → step s = exec c { s with pending := rest }) ∧
  (∀ s : State, s.pending = [] → step s = .next s)

/-- After reset every register of every block holds its reset value, and every one but URN_FREE, TEN_SELF and the MSI-X table, for which the spec gives no number, answers
it to a read; GLB_ID its part number, nothing is in flight, every table and memory is empty, the
device and so each of its units is out of service, and every pin and latch is low. The part number is the spec's; that the other registers without a stated
reset value read 0, and that memories read 0, is the model's choice (log entries 1, 2, 3). -/
def Obligations.ResetState : Prop :=
  (∀ (r : Reg) (i j : Nat), State.reset.rd r i j = r.resetValue) ∧
  (∀ (r : Reg) (i j : Nat), r ∉ [Reg.urnFree, .tenSelf, .msixTable] → State.reset.readReg r i j = r.resetValue) ∧
  State.reset.fld Fld.glbIdPart = 0x4B59 ∧
  State.reset.pending = [] ∧ (∀ t, (State.reset.cmd t).live = false) ∧ (∀ q, (State.reset.sqs.get q).state = .free) ∧
  (∀ f, (State.reset.fn f).present = false) ∧ (∀ d, (State.reset.dom d).state = .off) ∧
  State.reset.unitState 6 0 = 0 ∧ State.reset.standby = false ∧ State.reset.pwrgood = false ∧ State.reset.evOpen = false ∧
  Memory.wf State.reset = true

/-! ### Command transport (spec/03) -/

/-- CMD_ACQ_ENABLE on a present function that holds no admin pair and is not under reset creates SQ 0 and CQ 0 of the function, each with the function's own global id, or,
for SIZE 0, sets ACQ_ERR and leaves ENABLE clear; nothing but the queues, the function's record, its two registers and the records of the event log and the trace changes.
CMD_ACQ_DISABLE of a function that holds no other queue: with nothing unanswered the pair is gone and READY and ENABLE are clear; while commands of the admin SQ are
unanswered the SQ accepts nothing more and the deletion waits for them. With another queue held it has no effect.
Rows under R66. Where it rests on the model's own choice: log entries 7, 15. -/
def Obligations.AdminPairComesAndGoes : Prop :=
  (∀ (s : State) (f cfg : Nat), (s.fn f).present = true → (s.fn f).ready = false → (s.fn f).acqDeleting = false → (s.fn f).resetState = 0 →
     (bits cfg 0 12 = 0 → Runs (exec (.cmdAcqEnable f cfg) s) fun t =>
       t.fld Fld.cmdFnStatusAcqErr f = 1 ∧ t.fld Fld.cmdAcqCfgEnable f = 0 ∧ Only [.regs, .urn, .twbPos] s t ∧
         RegsBut [.cmdAcqCfg, .cmdFnStatus, .twbStatus, .twbCtrl] s t) ∧
     (bits cfg 0 12 ≠ 0 → Runs (exec (.cmdAcqEnable f cfg) s) fun t =>
       t.sqs.get f = { state := .active, owner := f, loc := 0, size := 16, cq := f, barista := (s.newBarista (s.isPriv f)).getD 0,
                       orphan := (s.newBarista (s.isPriv f)).isNone } ∧
       t.cqs.get f = { state := .active, owner := f, loc := 0, size := bits cfg 0 12 + 1, base := s.rd .cmdAcqBase f 0,
                       vector := if bit cfg 18 then none else some (bits cfg 12 6) } ∧
       (∀ q, q ≠ f → t.sqs.get q = s.sqs.get q ∧ t.cqs.get q = s.cqs.get q) ∧
       (t.fn f).ready = true ∧ t.fld Fld.cmdAcqCfgEnable f = 1 ∧ t.fld Fld.cmdFnStatusReady f = 1 ∧ t.fld Fld.cmdFnStatusAcqErr f = 0 ∧
       Only [.regs, .urn, .twbPos, .sqs, .cqs, .fns, .out, .evRing, .evSent, .attn] s t ∧
       RegsBut [.cmdAcqCfg, .cmdFnStatus, .twbStatus, .twbCtrl, .evtCons, .evtStat, .evtProd, .pwrMbAttn, .pwrMbStatus, .twbOutHash] s t)) ∧
  (∀ (s : State) (f cfg : Nat), (s.fn f).present = true → (s.fn f).ready = true → (s.fn f).acqDeleting = false → (s.fn f).resetState = 0 →
     (s.sqCount f ≠ 0 ∨ s.cqCount f ≠ 0 → Runs (exec (.cmdAcqDisable f cfg) s) fun t =>
       Only [.regs, .urn, .twbPos] s t ∧ RegsBut [.twbStatus, .twbCtrl] s t) ∧
     (s.sqCount f = 0 → s.cqCount f = 0 → s.sqBusy f = false → (s.cqs.get f).held = [] → Runs (exec (.cmdAcqDisable f cfg) s) fun t =>
       t.sqs.get f = {} ∧ t.cqs.get f = {} ∧ (t.fn f).ready = false ∧ t.fld Fld.cmdAcqCfgEnable f = 0 ∧ t.fld Fld.cmdFnStatusReady f = 0 ∧
       (∀ q, q ≠ f → t.sqs.get q = s.sqs.get q ∧ t.cqs.get q = s.cqs.get q) ∧ Only [.regs, .urn, .twbPos, .sqs, .cqs, .fns] s t ∧
       RegsBut [.cmdAcqCfg, .cmdFnStatus, .twbStatus, .twbCtrl] s t) ∧
     (s.sqCount f = 0 → s.cqCount f = 0 → s.sqBusy f = true → Runs (exec (.cmdAcqDisable f cfg) s) fun t =>
       (t.sqs.get f).state = .deleting ∧ (t.sqs.get f).tail = (t.sqs.get f).head ∧ (t.fn f).acqDeleting = true ∧ t.cqs.get f = s.cqs.get f ∧
       Only [.regs, .urn, .twbPos, .sqs, .fns] s t ∧ RegsBut [.twbStatus, .twbCtrl] s t))

/-- SQ_ENTRY_WRITE: bytes written inside slot `e` of the caller's SQ `i`, from the slot's byte `o` on, land in the slot's place in the Cup, 0x1000 × q + 0x40 × e + o, and
nowhere else; where the slot holds an entry that the device has not taken yet the SQ also enters ERROR; and a longer write does so too where any of its bytes lies on such a
slot. Beyond the 1 MiB window there is no such address.
Rows under R75. -/
def Obligations.EntryWriteLandsInItsSlot : Prop :=
  (∀ (s : State) (f i e o q : Nat) (r : Sq) (data : List Byte), s.hostMay f = true → i < 256 → s.findSq f i = some (q, r) → e < r.size → e < 64 →
    data ≠ [] → o + data.length ≤ 64 →
    (¬(r.state = .active ∧ ringCount r.size r.head e < ringCount r.size r.head r.tail) →
      Runs (exec (.sqEntryWrite f (0x1000 * i + 0x40 * e + o) data) s) fun t =>
        t.urnRead (0x1000 * q + 0x40 * e + o) data.length = data ∧
        (∀ a, a < 0x1000 * q + 0x40 * e + o ∨ 0x1000 * q + 0x40 * e + o + data.length ≤ a → t.urn.get a = (s.hostInput f data).urn.get a) ∧
        Only [.urn, .regs, .twbPos] s t ∧ RegsBut [.twbStatus, .twbCtrl] s t) ∧
    (r.state = .active → ringCount r.size r.head e < ringCount r.size r.head r.tail →
      Runs (exec (.sqEntryWrite f (0x1000 * i + 0x40 * e + o) data) s) fun t =>
        t.urnRead (0x1000 * q + 0x40 * e + o) data.length = data ∧ (t.sqs.get q).state = .error ∧
        Only [.urn, .regs, .twbPos, .sqs, .out, .fns, .evRing, .evSent, .attn] s t)) ∧
  (∀ (s : State) (f off q a : Nat) (r : Sq) (data : List Byte), s.hostMay f = true → off + data.length ≤ 2 ^ 20 → off ≤ a → a < off + data.length →
    s.findSq f (a / 0x1000) = some (q, r) → s.sqs.get q = r → r.state = .active → a % 0x1000 / 0x40 < r.size →
    ringCount r.size r.head (a % 0x1000 / 0x40) < ringCount r.size r.head r.tail → Runs (exec (.sqEntryWrite f off data) s) fun t =>
      (t.sqs.get q).state = .error) ∧
  (∀ (s : State) (f off : Nat) (data : List Byte), 2 ^ 20 < off + data.length → exec (.sqEntryWrite f off data) s = .fault .noSuchAddress)

/-- SQ_TAIL_DOORBELL: on an active SQ whose shadow word is sound, a tail of at least the present one becomes the tail; the present tail
changes nothing; any other value puts the SQ in ERROR and takes no entry. A write to no queue of the function is counted as stray and changes nothing else.
Rows under R74. -/
def Obligations.TailDoorbell : Prop :=
  ∀ (s : State) (f i x : Nat), s.hostMay f = true →
    (s.findSq f i = none → Runs (exec (.sqTailDoorbell f i x) s) fun t =>
      t.fld Fld.cmdStatStray = min (2 ^ Fld.cmdStatStray.width - 1) (s.fld Fld.cmdStatStray + 1) ∧ Only [.regs, .urn, .twbPos] s t ∧
      RegsBut [.cmdStat, .twbStatus, .twbCtrl] s t) ∧
    (∀ q r, s.findSq f i = some (q, r) → s.sqs.get q = r → r.state = .active → s.poisoned (0x400000 + 0x40 * q) = false →
      (x < r.size → ringCount r.size r.head r.tail ≤ ringCount r.size r.head x → Runs (exec (.sqTailDoorbell f i x) s) fun t =>
        (t.sqs.get q).tail = x ∧ (∀ p, p ≠ q → t.sqs.get p = s.sqs.get p)) ∧
      (x = r.tail → x < r.size → Runs (exec (.sqTailDoorbell f i x) s) fun t =>
        Only [.regs, .urn, .twbPos] s t ∧ RegsBut [.twbStatus, .twbCtrl] s t) ∧
      (¬(x < r.size ∧ ringCount r.size r.head r.tail ≤ ringCount r.size r.head x) → Runs (exec (.sqTailDoorbell f i x) s) fun t =>
        (t.sqs.get q).state = .error ∧ (t.sqs.get q).head = r.head ∧ (t.sqs.get q).tail = r.tail ∧
        Only [.regs, .urn, .twbPos, .sqs, .out, .fns, .evRing, .evSent, .attn] s t))

/-- Acceptance: where the SQ may give up entries and was empty, a doorbell for one entry takes exactly that entry: head advances past it, the command
gets the next tag and carries the slot's 64 bytes, its function and its SQ, and a refusal of rows 1 to 5 of R79 ends it at once with that status.
Rows under R74. Where it rests on the model's own choice: log entry 7. -/
def Obligations.AcceptanceTakesOneEntry : Prop :=
  ∀ (s : State) (f i q : Nat) (r : Sq), s.hostMay f = true → s.findSq f i = some (q, r) → s.sqs.get q = r → r.head = r.tail → 2 ≤ r.size →
    s.poisoned (0x400000 + 0x40 * q) = false → s.poisoned (slotOff q r.head) = false → r.head < r.size → r.owner = f → s.canAccept q = true →
    Runs (exec (.sqTailDoorbell f i ((r.head + 1) % r.size)) s) fun t =>
      let e := (s.hostInput f (leBytes 4 ((r.head + 1) % r.size))).slotEntry q r.head
      let c := t.cmd s.nextTag
      (t.sqs.get q).head = (r.head + 1) % r.size ∧ t.nextTag = s.nextTag + 1 ∧
      c.live = true ∧ c.entry = e ∧ c.fn = f ∧ c.sq = q ∧ c.origin = none ∧ (∀ p, p ≠ s.nextTag → t.cmd p = s.cmd p) ∧
      (∀ st, s.acceptCheck q e = some st → c.stage = .done ∧ c.reply.status = st) ∧
      (s.acceptCheck q e = none → c.stage = .accepted)

/-- The acceptance checks in the order of R79: a function that is not admitted gets NOT_ADMITTED for anything but IDENTIFY, then an opcode outside the map
BAD_OPCODE, then an opcode of group 0x8_ away from the privileged queue FM_ONLY, then a bad header BAD_FIELD, then a misaligned host buffer BAD_ALIGN. -/
def Obligations.AcceptanceCheckOrder : Prop :=
  ∀ (s : State) (q e : Nat),
    (s.admittedNow (s.sqs.get q).owner = false → Entry.op e ≠ 0 → s.acceptCheck q e = some .notAdmitted) ∧
    (s.admittedNow (s.sqs.get q).owner = true →
      (opDefined (Entry.op e) = false → s.acceptCheck q e = some .badOpcode) ∧
      (opDefined (Entry.op e) = true → Entry.op e / 16 = 8 → s.privSq q = false → s.acceptCheck q e = some .fmOnly) ∧
      (opDefined (Entry.op e) = true → (Entry.op e / 16 = 8 → s.privSq q = true) →
        ((Entry.headerClean e (s.privSq q) = false ∨ Entry.noint e = true ∧ Entry.urgent e = true ∨
            bit (s.blendsOf (s.sqs.get q).owner) (Entry.blend e) = false) → s.acceptCheck q e = some .badField) ∧
        (Entry.headerClean e (s.privSq q) = true → ¬(Entry.noint e = true ∧ Entry.urgent e = true) →
          bit (s.blendsOf (s.sqs.get q).owner) (Entry.blend e) = true → Entry.dlMode e = 0 → bits e 296 24 = 0 →
          s.acceptCheck q e = if opUsesHost (Entry.op e) (Entry.length e) = true ∧ Entry.hostBuf e % 4 ≠ 0 then some .badAlign else none)))

/-- CQ_HEAD_DOORBELL: a head within the replies written becomes the CQ's head; any other value puts the CQ in ERROR and sets its bit of CMD_CQ_ERR. REPLY_WRITE: the reply of
a command of this device whose work has ended goes into its CQ's next slot as the 32 bytes of R85, with the phase of the CQ's pass and the SQ's head, the CQ's tail moves
on, turning the phase where it wraps, and the command leaves; while the CQ has no room the reply is held.
Rows under R87, R89. -/
def Obligations.RepliesReachTheirCq : Prop :=
  (∀ (s : State) (f j h q : Nat) (c : Cq), s.hostMay f = true → s.findCq f j = some (q, c) → s.cqs.get q = c → c.state = .active →
     (h < c.size → ringCount c.size c.head h ≤ ringCount c.size c.head c.tail → Runs (exec (.cqHeadDoorbell f j h) s) fun t =>
       (t.cqs.get q).head = h ∧ (t.cqs.get q).state = .active) ∧
     (¬(h < c.size ∧ ringCount c.size c.head h ≤ ringCount c.size c.head c.tail) → Runs (exec (.cqHeadDoorbell f j h) s) fun t =>
       (t.cqs.get q).state = .error ∧ (j < 256 → bit (t.rd .cmdCqErr f (j / 64)) (j % 64) = true) ∧
       Only [.regs, .urn, .twbPos, .cqs, .out, .fns, .evRing, .evSent, .attn] s t)) ∧
  (∀ (s : State) (tag : Nat), let c := s.cmd tag
     let q := (s.sqs.get c.sq).cq
     let k := s.cqs.get q
     c.live = true → c.stage = .done → c.origin = none → c.epoch = (s.fn c.fn).epoch → c.sq < 2 ^ 20 →
     (s.grouped = false ∨ opTables (Entry.op c.entry) = false) → s.deltasOpen c = false → Entry.op c.entry ≠ 0x81 →
     (s.canReply q = true → k.held = [] → Runs (exec (.replyWrite tag) s) fun t =>
       (∃ load pace decaf, t.hostRead k.owner (k.base + 32 * k.tail) 32 =
         replyBytes { c.reply with load := load, pace := pace, decaf := decaf } (!k.wrapped) (s.sqs.get c.reply.sq).head (s.replyPos c.reply.fn)) ∧
       (t.cqs.get q).tail = (k.tail + 1) % k.size ∧ ((t.cqs.get q).wrapped = if (k.tail + 1) % k.size = 0 then !k.wrapped else k.wrapped) ∧
       (tag < s.nextTag → (t.cmd tag).live = false)) ∧
     (s.canReply q = false → Runs (exec (.replyWrite tag) s) fun t =>
       (∃ r : Reply, (t.cqs.get q).held = k.held ++ [r] ∧ r.cid = c.reply.cid ∧ r.status = c.reply.status) ∧
       t.hostMem = s.hostMem ∧ (tag < s.nextTag → (t.cmd tag).live = false)))

/-- Interrupt pacing: an expired coalescing timer signals its vector and clears its count; a vector that cannot be sent sets its pending bit, and is sent, and the bit
cleared, as the vector is unmasked. Bus Master Enable: once cleared, the function's record says so and nothing else changes; once set, it says so, and held replies and
entries go on.
Rows under R91, R95, R384. Where it rests on the model's own choice: log entries 2, 7. -/
def Obligations.VectorsAndBusMaster : Prop :=
  ((∀ (s : State) (f v : Nat), (s.coal.get (coalKey f v)).count ≠ 0 → s.fld Fld.cmdVecCoalTime f v ≠ 0 →
     (s.coal.get (coalKey f v)).since + s.fld Fld.cmdVecCoalTime f v ≤ s.us → s.tracing 2 = false →
     Runs (exec (.coalesceTimeExpiry f v) s) fun t =>
       t.coal.get (coalKey f v) = {} ∧ (s.vectorOpen f v = true → t.out = s.out ++ [.msix f v]) ∧
       (s.vectorOpen f v = false → bit (t.fn f).pba v = true ∧ t.out = s.out) ∧
       Only [.coal, .out, .fns, .regs] s t ∧ RegsBut [.twbOutHash] s t) ∧
   (∀ (s : State) (f v : Nat), s.hostMay f = true → s.flag Fld.twbCtrlGo = false → Runs (exec (.msixUnmask f v) s) fun t =>
       bit (t.fn f).vecUnmasked v = true ∧ (t.fn f).msixEnable = true ∧ (t.fn f).msixMaskAll = false ∧
       (bit (s.fn f).pba v = true → (s.fn f).busMaster = true → t.out = s.out ++ [.msix f v] ∧ bit (t.fn f).pba v = false) ∧
       (bit (s.fn f).pba v = false → t.out = s.out) ∧ Only [.out, .fns] s t)) ∧
  (∀ (s : State) (f : Nat), s.hostMay f = true →
     Runs (exec (.busMasterEnableClear f) s) (fun t =>
       (t.fn f).busMaster = false ∧ Only [.fns, .regs, .urn, .twbPos] s t ∧ (∀ g, g ≠ f → t.fn g = s.fn g)) ∧
     Runs (exec (.busMasterEnableSet f) s) (fun t => (t.fn f).busMaster = true ∧
       ((s.cqsOf f).all (fun q => (s.cqs.get q).held.isEmpty) = true → s.sqsOf f = [] → (s.fn f).pba = 0 → Only [.fns, .regs, .urn, .twbPos] s t)))

/-- A host fault or a hung unit ends a command: a reply that was due is lost with its command; a command under way, none of whose work lies with a run or another device, ends
ABORTED; one on a hung unit ends INTERNAL. ABORT on an admin SQ: with no such command outstanding it ends OK with 0 at once; one that has no boundary left to end at is
let be and the ABORT waits; once its target has been answered the ABORT ends with 1 where it found one to end, else 0. On any other SQ it is refused with BAD_FIELD.
Rows under R11, R91, R109. Where it rests on the model's own choice: log entries 7, 30, 86. -/
def Obligations.WorkEndsEarly : Prop :=
  ((∀ (s : State) (tag kind addr : Nat), (s.cmd tag).live = true → (s.cmd tag).stage = .done → Runs (exec (.hostFault tag kind addr) s) fun t =>
     (t.cmd tag).live = false ∧ (∀ p, p ≠ tag → t.cmd p = s.cmd p) ∧ Only [.cmds, .regs, .out, .fns, .evRing, .evSent, .attn] s t) ∧
   (∀ (s : State) (tag kind addr : Nat), (s.cmd tag).live = true → (s.cmd tag).stage ≠ .done → s.chanFor tag = none → s.partsOf tag = [] →
     Entry.op (s.cmd tag).entry ∉ [0x20, 0x22, 0x31, 0x32, 0x44] → Runs (exec (.hostFault tag kind addr) s) fun t =>
       (t.cmd tag).stage = .done ∧ (t.cmd tag).reply.status = .aborted) ∧
   (∀ (s : State) (tag unit : Nat), (s.cmd tag).live = true → (s.cmd tag).stage ≠ .done → s.chanFor tag = none → s.partsOf tag = [] →
     Entry.op (s.cmd tag).entry ∉ [0x20, 0x22, 0x31, 0x32, 0x44] → unit < 128 → Runs (exec (.progressWatchdogExpiry tag 2 unit) s) fun t =>
       (t.cmd tag).stage = .done ∧ (t.cmd tag).reply.status = .internal ∧ t.unitState 2 unit = 0)) ∧
  (∀ (s : State) (tag : Nat) (c : Cmd), Served s tag 0x08 c →
     ((s.sqs.get c.sq).loc ≠ 0 → Runs (exec (.abort tag) s) fun t => Ended s t tag .badField 0 0 ∧ OtherCmds s t tag ∧ Only [.cmds] s t) ∧
     ((s.sqs.get c.sq).loc = 0 →
       (c.stage ≠ .running → s.outstanding c.fn (Entry.spec c.entry 40 2) (Entry.spec c.entry 42 2) tag = none → Runs (exec (.abort tag) s) fun t =>
         Ended s t tag .ok 0 0 ∧ OtherCmds s t tag ∧ Only [.cmds] s t) ∧
       (∀ x, c.stage ≠ .running → s.outstanding c.fn (Entry.spec c.entry 40 2) (Entry.spec c.entry 42 2) tag = some x → s.abortable x = false →
         Runs (exec (.abort tag) s) fun t =>
           (t.cmd tag).stage = .running ∧ (t.cmd tag).first = x ∧ (t.cmd tag).moved = 0 ∧ OtherCmds s t tag ∧ Only [.cmds] s t) ∧
       (c.stage = .running → (s.cmd c.first).live = false → Runs (exec (.abort tag) s) fun t =>
         Ended s t tag .ok c.moved 0 ∧ OtherCmds s t tag ∧ Only [.cmds] s t)))

/-! ### Commands of spec/04: what every opcode meets first, then group 0x0_ and the queries -/

/-- The rows that run an opcode of a command in flight, with the opcode. -/
def Claims.opcodeRows : List ((Nat → Instr) × Nat) :=
  [(.identify, 0x00), (.sqCreate, 0x01), (.sqDelete, 0x02), (.cqCreate, 0x03), (.cqDelete, 0x04), (.renew, 0x05), (.ualloc, 0x06), (.ufree, 0x07),
   (.abort, 0x08), (.claim, 0x10), (.release, 0x11), (.grant, 0x12), (.read, 0x13), (.write, 0x14), (.lread, 0x20), (.lstage, 0x21), (.lload, 0x22),
   (.sopen, 0x30), (.sappend, 0x31), (.sread, 0x32), (.strim, 0x33), (.sclose, 0x34), (.pfill, 0x40), (.pcopy, 0x41), (.pcmp, 0x42),
   (.preduce, 0x43), (.pscan, 0x44), (.pour, 0x50), (.triggerSet, 0x51), (.triggerClear, 0x52), (.dalloc, 0x60), (.dfree, 0x61), (.dstart, 0x62),
   (.dstop, 0x63), (.bquery, 0x70), (.blist, 0x71), (.partitionAdd, 0x80), (.partitionRemove, 0x80), (.partitionClear, 0x80), (.admitFunction, 0x81),
   (.update, 0x81), (.expel, 0x81), (.keyLoad, 0x82), (.keyErase, 0x82), (.designate, 0x83), (.withdraw, 0x83), (.seize, 0x84),
   (.unitServiceOut, 0x85), (.unitServiceQuarantine, 0x85), (.unitServiceWarm, 0x85), (.unitServiceServing, 0x85), (.volumeCreate, 0x86),
   (.volumeDelete, 0x86), (.grantRead, 0x86), (.revokeRead, 0x86), (.setWriter, 0x86)]

/-- What every opcode meets before its own checks: where no command of that opcode may go on the row changes nothing; a reserved OPSPEC bit that is not zero,
a deadline or a deadline mode on an opcode that takes none, or a field that the opcode map fixes and that differs ends the command with BAD_FIELD and changes nothing but
that command's record.
Where it rests on the model's own choice: log entries 7, 32. -/
def Obligations.OpcodeRowsCheckReservedFields : Prop :=
  ∀ p ∈ Claims.opcodeRows, ∀ (s : State) (tag : Nat),
    (s.ready tag p.2 = none → exec (p.1 tag) s = .next s) ∧
    (∀ c, s.ready tag p.2 = some c →
      (opSpecClean c.entry = false ∨ mapFields c.entry = false ∨ opDeadline p.2 = false ∧ (Entry.dlMode c.entry ≠ 0 ∨ Entry.deadline c.entry ≠ 0)) →
      Runs (exec (p.1 tag) s) fun t => Ended s t tag .badField 0 0 ∧ OtherCmds s t tag ∧ Only [.cmds] s t)

/-- IDENTIFY fills 4096 bytes of host memory and answers 4096: for CNS 0 the device structure, which begins with part number, step, speed, device id and
system number, for CNS 1 the caller's own structure, for CNS 2 its partition list; a larger CNS is refused. BQUERY writes the 64-byte record of a blend that
the caller holds, and refuses one it does not hold with NOT_OWNER; BLIST answers the caller's set.
Rows under R106, R122. Where it rests on the model's own choice: log entries 28, 49. -/
def Obligations.QueriesAnswer : Prop :=
  (∀ (s : State) (tag : Nat) (c : Cmd), Served s tag 0x00 c →
    (Entry.spec c.entry 40 1 ≤ 2 → Runs (exec (.identify tag) s) fun t =>
      Ended s t tag .ok 4096 0 ∧ OtherCmds s t tag ∧ Only [.cmds, .hostMem] s t ∧
      (Entry.spec c.entry 40 1 = 0 → t.hostRead c.fn (Entry.hostBuf c.entry) 7 =
        [0x59#8, 0x4B#8] ++ leBytes 1 (s.fld Fld.glbIdStep) ++ leBytes 1 (s.fld Fld.glbClkSpeed) ++ leBytes 2 s.dev ++ leBytes 1 s.sys) ∧
      (Entry.spec c.entry 40 1 = 1 → t.hostRead c.fn (Entry.hostBuf c.entry) 3 =
        leBytes 2 c.fn ++ leBytes 1 (b2n (s.admittedNow c.fn) + 2 * b2n (s.isPriv c.fn))) ∧
      (Entry.spec c.entry 40 1 = 2 → s.admittedNow c.fn = true → t.hostRead c.fn (Entry.hostBuf c.entry) 4 =
        leBytes 4 (min 255 ((s.partitions.get c.fn).length - Entry.spec c.entry 44 4)))) ∧
    (2 < Entry.spec c.entry 40 1 → Runs (exec (.identify tag) s) fun t => Ended s t tag .badField 0 0 ∧ Only [.cmds] s t)) ∧
  (∀ (s : State) (tag : Nat) (c : Cmd), Served s tag 0x70 c → Entry.length c.entry = 64 →
    (bit (s.blendsOf c.fn) (Entry.specBits c.entry 40 0 6) = true → Runs (exec (.bquery tag) s) fun t =>
      Ended s t tag .ok 64 0 ∧ OtherCmds s t tag ∧ Only [.cmds, .hostMem] s t ∧
      t.hostRead c.fn (Entry.hostBuf c.entry) 16 =
        leBytes 8 (s.guarOf (Entry.specBits c.entry 40 0 6)) ++ leBytes 8 (s.limitOf (Entry.specBits c.entry 40 0 6))) ∧
    (bit (s.blendsOf c.fn) (Entry.specBits c.entry 40 0 6) = false → Runs (exec (.bquery tag) s) fun t =>
      Ended s t tag .notOwner 0 0 ∧ Only [.cmds] s t)) ∧
  (∀ (s : State) (tag : Nat) (c : Cmd), Served s tag 0x71 c → Runs (exec (.blist tag) s) fun t =>
    Ended s t tag .ok (s.blendsOf c.fn) 0 ∧ OtherCmds s t tag ∧ Only [.cmds] s t)

/-- Queues: on an admin SQ, SQ_CREATE with a free number, 2 to 64 entries and a bound CQ of the caller takes the lowest free global id from 256 on, within
the quota; CQ_CREATE likewise with 2 to 4096 entries and an aligned base; SQ_DELETE of a queue with nothing unanswered and CQ_DELETE of one that no SQ is bound
to free their queue, and CQ_DELETE of a bound one is refused.
Rows under R69, R70. -/
def Obligations.QueueCommands : Prop :=
  (∀ (s : State) (tag : Nat) (c : Cmd) (q cq : Nat) (k : Cq), Served s tag 0x01 c → (s.sqs.get c.sq).loc = 0 →
    0 < Entry.spec c.entry 40 2 → Entry.spec c.entry 40 2 < 256 → s.findSq c.fn (Entry.spec c.entry 40 2) = none →
    2 ≤ Entry.spec c.entry 42 2 → Entry.spec c.entry 42 2 ≤ 64 → s.findCq c.fn (Entry.spec c.entry 44 2) = some (cq, k) →
    s.sqCount c.fn < min 256 (s.fld Fld.cmdFnQuotaSq c.fn) → s.freeSq = some q → Runs (exec (.sqCreate tag) s) fun t =>
      Ended s t tag .ok (q + (s.newBarista false).getD 0 * 2 ^ 16) 0 ∧ OtherCmds s t tag ∧ Only [.cmds, .sqs] s t ∧ 256 ≤ q ∧ q < 1024 ∧
      (∀ p, 256 ≤ p → p < q → (s.sqs.get p).state ≠ .free) ∧ (∀ p, p ≠ q → t.sqs.get p = s.sqs.get p) ∧
      t.sqs.get q = { state := .active, owner := c.fn, loc := Entry.spec c.entry 40 2, size := Entry.spec c.entry 42 2, cq := cq,
                      barista := (s.newBarista false).getD 0, orphan := (s.newBarista false).isNone }) ∧
  (∀ (s : State) (tag : Nat) (c : Cmd) (q : Nat), Served s tag 0x03 c → (s.sqs.get c.sq).loc = 0 →
    0 < Entry.spec c.entry 40 2 → Entry.spec c.entry 40 2 < 256 → s.findCq c.fn (Entry.spec c.entry 40 2) = none →
    2 ≤ Entry.spec c.entry 42 2 → Entry.spec c.entry 42 2 ≤ 4096 → Entry.hostBuf c.entry % 4096 = 0 →
    s.cqCount c.fn < min 256 (s.fld Fld.cmdFnQuotaCq c.fn) → s.freeCq = some q → Runs (exec (.cqCreate tag) s) fun t =>
      Ended s t tag .ok q 0 ∧ OtherCmds s t tag ∧ Only [.cmds, .cqs] s t ∧ (∀ p, p ≠ q → t.cqs.get p = s.cqs.get p) ∧
      t.cqs.get q = { state := .active, owner := c.fn, loc := Entry.spec c.entry 40 2, size := Entry.spec c.entry 42 2, base := Entry.hostBuf c.entry,
                      vector := if Entry.specBits c.entry 44 7 1 = 1 then none else some (Entry.specBits c.entry 44 0 6) }) ∧
  (∀ (s : State) (tag : Nat) (c : Cmd) (q : Nat) (r : Sq), Served s tag 0x02 c → (s.sqs.get c.sq).loc = 0 → 0 < Entry.spec c.entry 40 2 →
    s.findSq c.fn (Entry.spec c.entry 40 2) = some (q, r) → q ≠ c.sq → s.sqBusy q = false → Runs (exec (.sqDelete tag) s) fun t =>
      Ended s t tag .ok 0 0 ∧ OtherCmds s t tag ∧ Only [.cmds, .sqs] s t ∧ t.sqs.get q = {} ∧ (∀ p, p ≠ q → t.sqs.get p = s.sqs.get p)) ∧
  (∀ (s : State) (tag : Nat) (c : Cmd) (q : Nat) (k : Cq), Served s tag 0x04 c → (s.sqs.get c.sq).loc = 0 → 0 < Entry.spec c.entry 40 2 →
    s.findCq c.fn (Entry.spec c.entry 40 2) = some (q, k) →
    (s.boundSqs q = [] → Runs (exec (.cqDelete tag) s) fun t =>
      Ended s t tag .ok 0 0 ∧ OtherCmds s t tag ∧ Only [.cmds, .cqs] s t ∧ t.cqs.get q = {} ∧ (∀ p, p ≠ q → t.cqs.get p = s.cqs.get p)) ∧
    (s.boundSqs q ≠ [] → Runs (exec (.cqDelete tag) s) fun t => Ended s t tag .badField 0 0 ∧ Only [.cmds] s t))

/-! ### The Urn (spec/10) -/

/-- UALLOC of a multiple of 4 KiB up to 64 MiB within the quota takes the lowest run of free pages and the lowest free index, zeroes every byte of the run and no
other, and answers the handle and the offset; UFREE of the caller's own buffer that nothing uses frees index and pages and moves the generation on; a handle that
names nothing any more is ALREADY_FREE and counted, one of another function NOT_OWNER and counted; a buffer kept for its last use goes as that ends.
Rows under R107, R108, R278. -/
def Obligations.UrnBufferLife : Prop :=
  (∀ (s : State) (tag : Nat) (c : Cmd) (p i : Nat), Served s tag 0x06 c → Entry.length c.entry % 4096 = 0 → 0 < Entry.length c.entry →
    Entry.length c.entry ≤ 2 ^ 26 →
    s.fld Fld.urnFnUsePages c.fn + Entry.length c.entry / 4096 ≤ 256 * min 512 (s.fld Fld.urnFnQuotaMib c.fn) →
    s.firstFit (Entry.length c.entry / 4096) = some p → s.freeBuf = some i → Runs (exec (.ualloc tag) s) fun t =>
      Ended s t tag .ok (i % 2 ^ 16 + (s.bufs.get i).gen % 2 ^ 8 * 2 ^ 16) (4096 * p) ∧ OtherCmds s t tag ∧
      t.bufs.get i = { held := true, named := true, gen := (s.bufs.get i).gen, owner := c.fn, page := p, pages := Entry.length c.entry / 4096 } ∧
      (∀ j, j ≠ i → t.bufs.get j = s.bufs.get j) ∧ (∀ a, 4096 * p ≤ a → a < 4096 * p + Entry.length c.entry → t.urn.get a = 0) ∧
      (∀ a, a < 4096 * p ∨ 4096 * p + Entry.length c.entry ≤ a → t.urn.get a = s.urn.get a) ∧
      Only [.cmds, .bufs, .urn, .urnPoison, .regs] s t ∧ RegsBut [.urnFnUse, .urnBuffers] s t) ∧
  (∀ (s : State) (tag : Nat) (c : Cmd), Served s tag 0x06 c →
    (Entry.length c.entry % 4096 ≠ 0 ∨ Entry.length c.entry = 0 ∨ 2 ^ 26 < Entry.length c.entry) → Runs (exec (.ualloc tag) s) fun t =>
      Ended s t tag .badField 0 0 ∧ Only [.cmds] s t) ∧
  (∀ (s : State) (tag : Nat) (c : Cmd), Served s tag 0x07 c →
    (∀ i, s.bufOf c.fn (Entry.object c.entry) = .ok i → s.bufBusy i tag = false → Runs (exec (.ufree tag) s) fun t =>
      Ended s t tag .ok 0 0 ∧ OtherCmds s t tag ∧ (t.bufs.get i).held = false ∧ (t.bufs.get i).named = false ∧
      (t.bufs.get i).gen = ((s.bufs.get i).gen + 1) % 256 ∧ (∀ j, j ≠ i → t.bufs.get j = s.bufs.get j) ∧
      Only [.cmds, .bufs, .regs] s t ∧ RegsBut [.urnFnUse, .urnBuffers] s t) ∧
    (s.bufOf c.fn (Entry.object c.entry) = .error .alreadyFree → Runs (exec (.ufree tag) s) fun t =>
      Ended s t tag .alreadyFree 0 0 ∧
      t.fld Fld.urnFnStatDouble c.fn = min (2 ^ Fld.urnFnStatDouble.width - 1) (s.fld Fld.urnFnStatDouble c.fn + 1) ∧
      Only [.cmds, .regs] s t ∧ RegsBut [.urnFnStat] s t) ∧
    (s.bufOf c.fn (Entry.object c.entry) = .error .notOwner → Runs (exec (.ufree tag) s) fun t =>
      Ended s t tag .notOwner 0 0 ∧
      t.fld Fld.urnFnStatForeign c.fn = min (2 ^ Fld.urnFnStatForeign.width - 1) (s.fld Fld.urnFnStatForeign c.fn + 1) ∧
      t.bufs = s.bufs ∧ t.urn = s.urn)) ∧
  (∀ (s : State) (i : Nat), (s.bufs.get i).held = true → (s.bufs.get i).named = false → s.bufBusy i 0 = false →
    Runs (exec (.bufferDeferredFree i) s) fun t =>
      (t.bufs.get i).held = false ∧ (t.bufs.get i).gen = (s.bufs.get i).gen ∧ (∀ j, j ≠ i → t.bufs.get j = s.bufs.get j) ∧
      Only [.bufs, .regs] s t ∧ RegsBut [.urnFnUse, .urnBuffers] s t)

/-- The Urn's scrub and windows: a patrol read whose lanes were all corrected adds to CORRECTED and changes nothing else; one that could not be corrected in the
buffer area zeroes the 64-byte word, counts it and marks the buffer that holds it POISONED; a write of URN_WIN_CTRL sets a window's owner, FM and ENABLE.
Rows under R273, R280. Where it rests on the model's own choice: log entry 45. -/
def Obligations.UrnScrubAndWindows : Prop :=
  (∀ (s : State) (off errs : Nat), bits errs 8 8 = 0 → Runs (exec (.urnScrubPatrol off errs) s) fun t =>
    t.fld Fld.urnEccCorrected = min (2 ^ Fld.urnEccCorrected.width - 1)
      (s.fld Fld.urnEccCorrected + ((List.range 8).filter fun i => bit errs i).length) ∧ Only [.regs] s t ∧ RegsBut [.urnEcc] s t) ∧
  (∀ (s : State) (off errs i : Nat) (b : Buf), off < 2 ^ 29 → bits errs 8 8 ≠ 0 → s.fld Fld.urnLayoutBufBase * 2 ^ 20 ≤ off / 64 * 64 →
    0x02800000 ≤ off / 64 * 64 → off / 64 * 64 < s.fld Fld.urnLayoutScratchBase * 2 ^ 20 → off / 64 * 64 < s.fld Fld.urnLayoutStageBase * 2 ^ 20 →
    s.bufs.find? (fun e => e.2.held && decide (4096 * e.2.page ≤ off / 64 * 64) && decide (off / 64 * 64 < 4096 * (e.2.page + e.2.pages))) = some (i, b) →
    Runs (exec (.urnScrubPatrol off errs) s) fun t =>
      (t.bufs.get i).poisoned = true ∧ (∀ a, off / 64 * 64 ≤ a → a < off / 64 * 64 + 64 → t.urn.get a = 0) ∧
      (∀ a, a < off / 64 * 64 ∨ off / 64 * 64 + 64 ≤ a → t.urn.get a = s.urn.get a) ∧
      t.fld Fld.urnEccUncorr = min (2 ^ Fld.urnEccUncorr.width - 1) (s.fld Fld.urnEccUncorr + 1)) ∧
  (∀ (s : State) (w value : Nat), w < 64 → Runs (exec (.urnWinCtrlWrite w value) s) fun t =>
    t.fld Fld.urnWinCtrlEnable w = value % 2 ∧ t.fld Fld.urnWinCtrlOwner w = bits value 8 8 ∧ t.fld Fld.urnWinCtrlFm w = bits value 16 1 ∧
    (∀ x, x ≠ w → t.rd .urnWinCtrl x 0 = s.rd .urnWinCtrl x 0) ∧ Only [.regs, .urn, .twbPos] s t ∧ RegsBut [.urnWinCtrl, .twbStatus, .twbCtrl] s t)

/-! ### The pool (spec/05, spec/06) -/

/-- CLAIM on the holding device of an aligned range inside the caller's partition that no extent meets gives a LIVE extent with the caller as claimant, the lease
length asked for (30 s for 0) within the home's limit, counted from acceptance, and answers that length in ms; over a range that meets a live or expired extent it
is BAD_FIELD, outside the partition and every extent granted to the caller OUT_OF_PARTITION, with no room NO_SPACE, and none of these three changes anything but the command.
Rows under R136. -/
def Obligations.ClaimGivesALiveExtent : Prop :=
  ∀ (s : State) (tag : Nat) (c : Cmd), Served s tag 0x10 c → claimFields c.entry = none → c.origin = none → s.isHere (Entry.object c.entry) = true →
    let e := c.entry
    let k := Addr.off (Entry.object e) / 2 ^ 21
    let n := Entry.length e / 2 ^ 21
    let l := s.leaseOf c.caller (Entry.spec e 40 4)
    let meets := fun (x : Nat × Extent) => decide (x.2.state ≠ .free) && rangesMeet k n x.1 x.2.len
    (c.inPart = false → s.claimAhead c = false → s.claimReach c.caller k n = false → Runs (exec (.claim tag) s) fun t => Ended s t tag .outOfPartition 0 0 ∧ OtherCmds s t tag ∧ Only [.cmds] s t) ∧
    (c.inPart = true → s.claimAhead c = false →
      ((∃ x ∈ s.extents, meets x = true ∧ (x.2.state = .live ∨ x.2.state = .expired)) → Runs (exec (.claim tag) s) fun t =>
        Ended s t tag .badField 0 0 ∧ OtherCmds s t tag ∧ Only [.cmds] s t) ∧
      ((∀ x ∈ s.extents, meets x = false) →
        (bit (Entry.spec e 46 2) 15 = true → s.keyHeld c.caller (Entry.specBits e 46 0 10) = true) →
        (s.leaseRoom c.caller = false → Runs (exec (.claim tag) s) fun t => Ended s t tag .noSpace 0 0 ∧ OtherCmds s t tag ∧ Only [.cmds] s t) ∧
        (s.leaseRoom c.caller = true → 0 < s.fld Fld.poolTablesExtentFree → Runs (exec (.claim tag) s) fun t =>
          Ended s t tag .ok (l * 1000) 0 ∧ OtherCmds s t tag ∧
          t.extents.get k = { state := .live, len := n, claimant := c.caller, leaseMs := l * 1000, expiry := c.since / 1000 + l * 1000,
                              hint := Entry.spec e 44 1, key := Entry.specBits e 46 0 10, enc := bit (Entry.spec e 46 2) 15 } ∧
          (∀ j, j ≠ k → t.extents.get j = s.extents.get j) ∧
          (c.caller.dev = s.dev → t.lindex.get c.caller.fn = s.lindex.get c.caller.fn ++ [⟨s.holdId, s.extentAddr k⟩]) ∧
          Only [.cmds, .extents, .lindex, .regs] s t ∧ RegsBut [.poolTables, .poolFnUse] s t)))

/-- RELEASE by the claimant of a LIVE extent that nothing uses puts it in RELEASING with no grants and ends OK, one of a free extent is ALREADY_FREE, one by another function
NOT_OWNER; RENEW moves the expiry of the claimant's LIVE extent, or the opener's open stream, to acceptance plus the length that then holds, changes no grant and answers that length, and is
NOT_OWNER for anyone else; GRANT replaces the list of grants and answers
how many there are, and refuses the caller itself and a seventeenth grantee. The end of a lease: LEASE_EXPIRY takes a LIVE extent or an open stream whose expiry has come,
and that no earlier RENEW still concerns, to EXPIRED; GRACE_END 2 s later to ORPHANED, with no grants; ZERO_FILL_START begins the fill of an ORPHANED or RELEASING extent
that nothing uses; ZERO_FILL_DONE leaves no record of it; and SEIZE takes every lease of the function that lies here to ORPHANED at once and answers how many were in
force.
Rows under R139, R140, R142, R144, R145, R147, R148, R149. Where it rests on the model's own choice: log entries 7, 16, 17, 81. -/
def Obligations.LeasesStandAndEnd : Prop :=
  ((∀ (s : State) (tag : Nat) (c : Cmd), Served s tag 0x11 c → Entry.object c.entry % 64 = 0 → s.isHere (Entry.object c.entry) = true → c.stage ≠ .running →
     let k := Addr.off (Entry.object c.entry) / 2 ^ 21
     let x := s.extents.get k
     (Addr.off (Entry.object c.entry) % 2 ^ 21 = 0 → x.state = .live → x.lapsed s.ms = false → x.claimant = c.caller → s.objBusy (.extent s.dev k) tag = false →
       Runs (exec (.release tag) s) fun t =>
         Ended s t tag .ok 0 0 ∧ OtherCmds s t tag ∧ t.extents.get k = { x with state := .releasing, former := x.grants.map (·.who), grants := [] } ∧
         (∀ j, j ≠ k → t.extents.get j = s.extents.get j) ∧ Only [.cmds, .extents] s t) ∧
     (x.state = .free → Runs (exec (.release tag) s) fun t =>
       Ended s t tag .alreadyFree 0 0 ∧ OtherCmds s t tag ∧ Only [.cmds, .regs] s t ∧ RegsBut [.poolFnStat] s t ∧
       (c.caller.dev = s.dev → t.fld Fld.poolFnStatDouble c.caller.fn =
         min (2 ^ Fld.poolFnStatDouble.width - 1) (s.fld Fld.poolFnStatDouble c.caller.fn + 1))) ∧
     (Addr.off (Entry.object c.entry) % 2 ^ 21 = 0 → x.state = .live → x.claimant ≠ c.caller → x.wasHeldBy c.caller = false → Runs (exec (.release tag) s) fun t =>
       Ended s t tag .notOwner 0 0 ∧ OtherCmds s t tag ∧ t.extents = s.extents)) ∧
   (∀ (s : State) (tag k : Nat) (c : Cmd), Served s tag 0x05 c → s.isHere (Entry.object c.entry) = true → s.leaseObj (Entry.object c.entry) = some (.extent k) →
     (s.extents.get k).state = .live → (s.extents.get k).lapsed (c.since / 1000) = false → (s.extents.get k).claimant = c.caller → Entry.spec c.entry 40 4 ≤ 3600 →
     let m := if Entry.spec c.entry 40 4 = 0 then (s.extents.get k).leaseMs else s.leaseOf c.caller (Entry.spec c.entry 40 4) * 1000
     Runs (exec (.renew tag) s) fun t =>
       Ended s t tag .ok m 0 ∧ OtherCmds s t tag ∧ t.extents.get k = { s.extents.get k with leaseMs := m, expiry := c.since / 1000 + m } ∧
       (∀ j, j ≠ k → t.extents.get j = s.extents.get j) ∧ Only [.cmds, .extents] s t) ∧
   (∀ (s : State) (tag k : Nat) (c : Cmd), Served s tag 0x05 c → s.isHere (Entry.object c.entry) = true → s.leaseObj (Entry.object c.entry) = some (.stream k) →
     (s.streams.get k).state = .opened → (s.streams.get k).lapsed (c.since / 1000) = false → (s.streams.get k).opener = c.caller → Entry.spec c.entry 40 4 ≤ 3600 →
     let m := if Entry.spec c.entry 40 4 = 0 then (s.streams.get k).leaseMs else s.leaseOf c.caller (Entry.spec c.entry 40 4) * 1000
     Runs (exec (.renew tag) s) fun t =>
       Ended s t tag .ok m 0 ∧ OtherCmds s t tag ∧ t.streams.get k = { s.streams.get k with leaseMs := m, expiry := c.since / 1000 + m } ∧
       (∀ j, j ≠ k → t.streams.get j = s.streams.get j) ∧ Only [.cmds, .streams] s t) ∧
   (∀ (s : State) (tag k : Nat) (c : Cmd), Served s tag 0x05 c → s.isHere (Entry.object c.entry) = true →
     (s.leaseObj (Entry.object c.entry) = some (.extent k) ∧ (s.extents.get k).lapsed (c.since / 1000) = false ∧ (s.extents.get k).claimant ≠ c.caller ∨
       s.leaseObj (Entry.object c.entry) = some (.stream k) ∧ (s.streams.get k).state ≠ .closing ∧ (s.streams.get k).lapsed (c.since / 1000) = false ∧
         (s.streams.get k).opener ≠ c.caller ∨
       s.leaseObj (Entry.object c.entry) = none) → Entry.spec c.entry 40 4 ≤ 3600 →
     Runs (exec (.renew tag) s) fun t => Ended s t tag .notOwner 0 0 ∧ OtherCmds s t tag ∧ Only [.cmds] s t) ∧
   (∀ (s : State) (tag k : Nat) (c : Cmd), Served s tag 0x12 c → s.isHere (Entry.object c.entry) = true → s.leaseObj (Entry.object c.entry) = some (.stream k) →
     let x := s.streams.get k
     let w : Who := ⟨Entry.specBits c.entry 40 0 10, Entry.spec c.entry 42 1⟩
     w ≠ c.caller → x.state = .opened → x.lapsed s.ms = false → x.opener = c.caller → Entry.spec c.entry 43 1 = 1 ∨ Entry.spec c.entry 43 1 = 2 →
       grantOf x.grants w = none → x.grants.length < 16 → Runs (exec (.grant tag) s) fun t =>
         Ended s t tag .ok 0 (x.grants.length + 1) ∧ OtherCmds s t tag ∧
         t.streams.get k = { x with grants := x.grants ++ [⟨w, decide (Entry.spec c.entry 43 1 = 2)⟩] } ∧
         (∀ j, j ≠ k → t.streams.get j = s.streams.get j) ∧ Only [.cmds, .streams] s t) ∧
   (∀ (s : State) (tag k : Nat) (c : Cmd), Served s tag 0x12 c → s.isHere (Entry.object c.entry) = true → s.leaseObj (Entry.object c.entry) = some (.extent k) →
     let x := s.extents.get k
     let w : Who := ⟨Entry.specBits c.entry 40 0 10, Entry.spec c.entry 42 1⟩
     (w = c.caller → Runs (exec (.grant tag) s) fun t => Ended s t tag .badField 0 0 ∧ Only [.cmds] s t) ∧
     (w ≠ c.caller → x.state = .live → x.lapsed s.ms = false → x.claimant = c.caller → Entry.spec c.entry 43 1 = 1 ∨ Entry.spec c.entry 43 1 = 2 →
       grantOf x.grants w = none → x.grants.length < 16 → Runs (exec (.grant tag) s) fun t =>
         Ended s t tag .ok 0 (x.grants.length + 1) ∧ OtherCmds s t tag ∧
         t.extents.get k = { x with grants := x.grants ++ [⟨w, decide (Entry.spec c.entry 43 1 = 2)⟩] } ∧
         (∀ j, j ≠ k → t.extents.get j = s.extents.get j) ∧ Only [.cmds, .extents] s t) ∧
     (w ≠ c.caller → x.state = .live → x.lapsed s.ms = false → x.claimant = c.caller → Entry.spec c.entry 43 1 = 0 → (grantOf x.grants w).isSome = true →
       Runs (exec (.grant tag) s) fun t =>
         Ended s t tag .ok 0 (x.grants.filter fun g => g.who ≠ w).length ∧ OtherCmds s t tag ∧
         t.extents.get k = { x with grants := x.grants.filter fun g => g.who ≠ w } ∧ Only [.cmds, .extents] s t) ∧
     (w ≠ c.caller → x.state = .live → x.lapsed s.ms = false → x.claimant = c.caller → Entry.spec c.entry 43 1 = 1 ∨ Entry.spec c.entry 43 1 = 2 →
       grantOf x.grants w = none → 16 ≤ x.grants.length → Runs (exec (.grant tag) s) fun t => Ended s t tag .noSpace 0 0 ∧ t.extents = s.extents))) ∧
  ((∀ (s : State) (k : Nat), (s.extents.get k).state = .live → (s.extents.get k).expiry ≤ s.ms →
     s.renewPending (.extent k) (s.extents.get k).expiry = false → Runs (exec (.leaseExpiry false k) s) fun t =>
       t.extents.get k = { s.extents.get k with state := .expired, former := (s.extents.get k).grants.map (·.who) } ∧
       (∀ j, j ≠ k → t.extents.get j = s.extents.get j) ∧ Only [.extents, .regs] s t ∧ RegsBut [.poolFnStat] s t) ∧
   (∀ (s : State) (k : Nat), (s.streams.get k).state = .opened → (s.streams.get k).expiry ≤ s.ms →
     s.renewPending (.stream k) (s.streams.get k).expiry = false → Runs (exec (.leaseExpiry true k) s) fun t =>
       t.streams.get k = { s.streams.get k with state := .expired, former := (s.streams.get k).grants.map (·.who) } ∧
       (∀ j, j ≠ k → t.streams.get j = s.streams.get j) ∧ Only [.streams, .regs] s t ∧ RegsBut [.poolFnStat] s t) ∧
   (∀ (s : State) (k : Nat), (s.extents.get k).state = .expired → (s.extents.get k).expiry + 2000 ≤ s.ms → Runs (exec (.graceEnd false k) s) fun t =>
     t.extents.get k = { s.extents.get k with state := .orphaned, grants := [] } ∧ (∀ j, j ≠ k → t.extents.get j = s.extents.get j) ∧
     Only [.extents, .regs, .out, .fns, .evRing, .evSent, .attn] s t) ∧
   (∀ (s : State) (k : Nat), (s.streams.get k).state = .expired → (s.streams.get k).expiry + 2000 ≤ s.ms → Runs (exec (.graceEnd true k) s) fun t =>
     t.streams.get k = { s.streams.get k with state := .orphaned, grants := [] } ∧ Only [.streams] s t) ∧
   (∀ (s : State) (k : Nat), ((s.extents.get k).state = .orphaned ∨ (s.extents.get k).state = .releasing) → (s.extents.get k).filling = false →
     s.objBusy (.extent s.dev k) 0 = false → Runs (exec (.zeroFillStart false k) s) fun t =>
       t.extents.get k = { s.extents.get k with filling := true } ∧ (∀ j, j ≠ k → t.extents.get j = s.extents.get j) ∧
       Only [.extents, .pairs, .blendRuns, .regs] s t) ∧
   (∀ (s : State) (k : Nat), (s.extents.get k).filling = true → (s.extents.get k).state ≠ .free → s.grouped = false → (s.extents.get k).claimant.dev = s.dev →
     Runs (exec (.zeroFillDone k) s) fun t =>
       t.extents.get k = {} ∧ (∀ j, j ≠ k → t.extents.get j = s.extents.get j) ∧
       (∀ p, 512 * k ≤ p → p < 512 * (k + (s.extents.get k).len) → (t.mapEntry p).mapped = false)) ∧
   (∀ (s : State) (tag : Nat) (c : Cmd), Served s tag 0x84 c → Entry.qspec c.entry = 0 → s.seam 0 = false → c.stage ≠ .running →
     let rs := (s.lindex.get (Entry.spec c.entry 42 1)).filter fun r => decide (Entry.object c.entry = 0) || decide (r.addr = Entry.object c.entry)
     s.remoteHolders rs = [] → Runs (exec (.seize tag) s) fun t =>
       Ended s t tag .ok (s.revokeHere rs).2 0 ∧ OtherCmds s t tag ∧
       (∀ r ∈ rs, ∀ k, s.leaseObj r.addr = some (.extent k) → (s.extents.get k).state = .live ∨ (s.extents.get k).state = .expired →
         (t.extents.get k).state = .orphaned ∧ (t.extents.get k).grants = []) ∧
       Only [.cmds, .extents, .streams, .regs, .out, .fns, .evRing, .evSent, .attn] s t))

/-- READ of pages that no write has reached returns zero bytes and counts them all as moved; WRITE of one whole page that finds room stores it under a new map
entry whose check value is the page's CRC and counts 4096 bytes moved; and either, of a range that the lease table refused at acceptance, moves nothing.
Rows under R111, R173. Where it rests on the model's own choice: log entries 20, 22. -/
def Obligations.PoolDataCommands : Prop :=
  (∀ (s : State) (tag : Nat) (c : Cmd), Served s tag 0x13 c → rangeRules c.entry = none → c.refuse = none → s.abandoned c = false → c.origin = none →
    Addr.sys (Entry.object c.entry) = s.sys → s.mine (Addr.dev (Entry.object c.entry)) = true →
    (∀ p, Addr.off (Entry.object c.entry) / 4096 ≤ p → 4096 * p < Addr.off (Entry.object c.entry) + Entry.length c.entry →
      (s.mapEntry p).mapped = false ∧ (s.mapEntry p).poison = false) → Runs (exec (.read tag) s) fun t =>
      Ended s t tag .ok (Entry.length c.entry) 0 ∧ OtherCmds s t tag ∧
      t.hostRead c.fn (Entry.hostBuf c.entry) (Entry.length c.entry) = zeroBytes (Entry.length c.entry) ∧
      Only [.cmds, .hostMem, .freeCtr, .regs] s t ∧ RegsBut [.grdMapcHit, .grdMapcMiss] s t) ∧
  (∀ (s : State) (tag : Nat) (c : Cmd) (st : Status), rangeRules c.entry = none → c.refuse = some st →
    (Served s tag 0x13 c → Runs (exec (.read tag) s) fun t => Ended s t tag st 0 0 ∧ OtherCmds s t tag ∧ Only [.cmds] s t) ∧
    (Served s tag 0x14 c → Runs (exec (.write tag) s) fun t => Ended s t tag st 0 0 ∧ OtherCmds s t tag ∧ Only [.cmds] s t)) ∧
  (∀ (s : State) (tag : Nat) (c : Cmd) (s' : State), Served s tag 0x14 c → rangeRules c.entry = none → c.refuse = none → s.abandoned c = false →
    c.origin = none → c.moved = 0 → Addr.sys (Entry.object c.entry) = s.sys → s.mine (Addr.dev (Entry.object c.entry)) = true →
    Entry.length c.entry = 4096 → Addr.off (Entry.object c.entry) % 4096 = 0 → 1 ≤ s.pageRoom 1 → s.seam 1 = false →
    s.storePage s.poolSpace (Addr.off (Entry.object c.entry) / 4096) (s.hostRead c.fn (Entry.hostBuf c.entry) 4096) = .ok s' →
    Runs (exec (.write tag) s) fun t =>
      Ended s t tag .ok 4096 0 ∧ (t.mapEntry (Addr.off (Entry.object c.entry) / 4096)).mapped = true ∧
      (t.mapEntry (Addr.off (Entry.object c.entry) / 4096)).check = crc32c (s.hostRead c.fn (Entry.hostBuf c.entry) 4096) ∧
      (∀ p, p ≠ Addr.off (Entry.object c.entry) / 4096 → t.mapEntry p = s.mapEntry p) ∧ t.hostMem = s.hostMem)

/-- PARTITION: ADD of whole GiB of this device that nobody else owns makes the function their owner, joins them to its record and answers its number of ranges; a
granule of another owner is refused with BAD_FIELD; REMOVE and CLEAR of ranges that no command and no extent uses take the ownership and the ranges away.
Rows under R130, R133. -/
def Obligations.PartitionCommands : Prop :=
  (∀ (s : State) (tag : Nat) (c : Cmd), Served s tag 0x80 c → Entry.qspec c.entry = 0 → s.seam 0 = false → Entry.spec c.entry 40 1 = 0 → c.table = none →
    s.isHere (Entry.object c.entry) = true → Addr.off (Entry.object c.entry) % 2 ^ 30 = 0 → Entry.length c.entry % 2 ^ 30 = 0 → 0 < Entry.length c.entry →
    let g := Addr.off (Entry.object c.entry) / 2 ^ 30
    let n := Entry.length c.entry / 2 ^ 30
    let f := Entry.spec c.entry 42 1
    let new := mergeRange ⟨Addr.dev (Entry.object c.entry), g, n⟩ (s.partitions.get f)
    g + n ≤ s.fld Fld.poolLogicalGib → new.length ≤ s.fld Fld.poolRangesFree + (s.partitions.get f).length →
    ((∀ i, i < n → s.owners.get (g + i) = none ∨ s.owners.get (g + i) = some ⟨s.dev, f⟩) → Runs (exec (.partitionAdd tag) s) fun t =>
      Ended s t tag .ok new.length 0 ∧ OtherCmds s t tag ∧ t.partitions.get f = new ∧ (∀ h, h ≠ f → t.partitions.get h = s.partitions.get h) ∧
      (∀ i, i < n → t.owners.get (g + i) = some ⟨s.dev, f⟩) ∧ (∀ i, i < g ∨ g + n ≤ i → t.owners.get i = s.owners.get i) ∧
      Only [.cmds, .partitions, .owners, .regs] s t ∧ RegsBut [.poolRanges, .poolFnUse] s t) ∧
    ((∃ i w, i < n ∧ s.owners.get (g + i) = some w ∧ w ≠ ⟨s.dev, f⟩) → Runs (exec (.partitionAdd tag) s) fun t =>
      Ended s t tag .badField 0 0 ∧ t.owners = s.owners ∧ t.partitions = s.partitions)) ∧
  (∀ (s : State) (tag : Nat) (c : Cmd), Served s tag 0x80 c → Entry.qspec c.entry = 0 → s.seam 0 = false → Entry.spec c.entry 40 1 = 1 → c.table = none →
    c.stage ≠ .running → s.isHere (Entry.object c.entry) = true → Addr.off (Entry.object c.entry) % 2 ^ 30 = 0 → Entry.length c.entry % 2 ^ 30 = 0 →
    0 < Entry.length c.entry →
    let g := Addr.off (Entry.object c.entry) / 2 ^ 30
    let n := Entry.length c.entry / 2 ^ 30
    let f := Entry.spec c.entry 42 1
    s.holdsGranules f (Addr.dev (Entry.object c.entry)) g n = true → s.rangeInUse c s.holdId (g * 2 ^ 30) (n * 2 ^ 30) = false → s.extentsMeeting g n = [] →
    Runs (exec (.partitionRemove tag) s) fun t =>
      t.partitions.get f = cutRange ⟨Addr.dev (Entry.object c.entry), g, n⟩ (s.partitions.get f) ∧
      Ended s t tag .ok (t.partitions.get f).length 0 ∧ (∀ h, h ≠ f → t.partitions.get h = s.partitions.get h) ∧
      (∀ i, i < n → t.owners.get (g + i) = none) ∧ (∀ i, i < g ∨ g + n ≤ i → t.owners.get i = s.owners.get i) ∧
      Only [.cmds, .partitions, .owners, .regs] s t) ∧
  (∀ (s : State) (tag : Nat) (c : Cmd) (r : PRange), Served s tag 0x80 c → Entry.qspec c.entry = 0 → s.seam 0 = false → Entry.spec c.entry 40 1 = 2 →
    c.table = none → c.stage ≠ .running → s.isHere (Entry.object c.entry) = true → Addr.off (Entry.object c.entry) = 0 → Entry.length c.entry = 0 →
    s.partitions.get (Entry.spec c.entry 42 1) = [r] → r.dev = Addr.dev (Entry.object c.entry) → 0 < r.len →
    s.rangeInUse c s.holdId (r.start * 2 ^ 30) (r.len * 2 ^ 30) = false → s.extentsMeeting r.start r.len = [] →
    Runs (exec (.partitionClear tag) s) fun t =>
      Ended s t tag .ok 0 0 ∧ t.partitions.get (Entry.spec c.entry 42 1) = [] ∧ (∀ i, i < r.len → t.owners.get (r.start + i) = none) ∧
      Only [.cmds, .partitions, .owners, .regs] s t)

/-- The map: a write of POOL_LOGICAL takes effect while no granule is owned and the size leaves sectors, and is ignored and logged otherwise; LOG_RETIRE moves the
oldest record to the DRAM copy, so that every page reads through the same entry as before; OLD_SECTORS_FREE frees the run of a relocated page that no scan reads;
MAP_DIRECT_EXIT clears the seam's flag.
Rows under R19, R20, R154, R176. Where it rests on the model's own choice: log entry 47. -/
def Obligations.MapUpkeep : Prop :=
  (∀ (s : State) (src gib : Nat),
    ((∀ e ∈ s.owners, e.2 = none) → 1 ≤ gib → gib ≤ 262144 → 1 ≤ usableSectors s.dramGib gib (s.fld Fld.libStageDramGib) →
      Runs (exec (.poolLogicalWrite src gib) s) fun t =>
        t.fld Fld.poolLogicalGib = gib ∧ t.fld Fld.poolSectorsTotalTotal = usableSectors s.dramGib gib (s.fld Fld.libStageDramGib) % 2 ^ Fld.poolSectorsTotalTotal.width ∧
        Only [.regs, .urn, .twbPos] s t ∧
        RegsBut [.poolLogical, .poolSectorsTotal, .poolSectorsRsv, .poolSectorsFree, .protSize, .twbStatus, .twbCtrl] s t) ∧
    ((∃ e ∈ s.owners, e.2 ≠ none) → Runs (exec (.poolLogicalWrite src gib) s) fun t => t.fld Fld.poolLogicalGib = s.fld Fld.poolLogicalGib ∧
      Only [.regs, .urn, .twbPos, .out, .fns, .evRing, .evSent, .attn] s t)) ∧
  (∀ (s : State) (r : LogRec) (rs : List LogRec), s.mapLog = r :: rs → s.grouped = false → Runs (exec .logRetire s) fun t =>
    t.mapLog = rs ∧ (∀ p, t.mapEntry p = s.mapEntry p) ∧ Only [.mapLog, .mapDram, .regs] s t ∧ RegsBut [.grdLog] s t) ∧
  (∀ (s : State) (base : Nat) (r : OldRun), s.oldRuns.find? (fun r => r.base = base) = some r → s.runPinned base = false → s.alloc.get base ≠ 0 →
    Runs (exec (.oldSectorsFree base) s) fun t =>
      t.oldRuns = s.oldRuns.erase r ∧ t.alloc.get base = 0 ∧ (∀ b, b ≠ base → t.alloc.get b = s.alloc.get b) ∧ t.sectors = s.sectors) ∧
  (∀ s : State, s.seam 1 = true → Runs (exec .mapDirectExit s) fun t => t.seam 1 = false ∧ (∀ n, n < 4 → n ≠ 1 → t.seam n = s.seam n))

/-! ### Streams (spec/08) -/

/-- SOPEN on the stream home device with a list of its own devices, a partition there, room for a lease and a free index: the lowest free index opens with the
next generation and the geometry asked for, and the reply names it by its sequence address; SCLOSE of the opener's stream that nothing uses any more frees the
descriptor and keeps its generation; and so does the start of the reclaim of an ORPHANED stream.
Rows under R145, R221, R232. Where it rests on the model's own choice: log entry 62. -/
def Obligations.StreamOpensAndCloses : Prop :=
  (∀ (s : State) (tag i : Nat) (c : Cmd) (l : List Nat), Served s tag 0x30 c → sopenFields c.entry = none → s.isHere (Entry.object c.entry) = true →
    c.stage ≠ .running → s.stripeList c s.holdId = (l, true) → stripeOk (if Entry.length c.entry = 0 then 2 else Entry.length c.entry) l = true →
    (∀ d ∈ l, s.mine d = true) → s.leaseRoom c.caller = true → s.freeStreamIdx = some i → (∃ x ∈ s.owners, x.2 = some c.caller) →
    (bit (Entry.spec c.entry 50 2) 15 = true → s.keyHeld c.caller (Entry.specBits c.entry 50 0 10) = true) →
    let gen := ((s.streams.get i).gen + 1) % 256
    let ms := s.leaseOf c.caller (Entry.spec c.entry 44 4) * 1000
    Runs (exec (.sopen tag) s) fun t =>
      Ended s t tag .ok (Addr.seq s.sys s.holdId i gen 0) 0 ∧ OtherCmds s t tag ∧
      t.streams.get i = { state := .opened, gen := gen, rsize := Entry.spec c.entry 40 4, hint := Entry.spec c.entry 48 1,
                          key := Entry.specBits c.entry 50 0 10, enc := bit (Entry.spec c.entry 50 2) 15, opener := c.caller, leaseMs := ms,
                          expiry := c.since / 1000 + ms, stripe := l } ∧
      (∀ j, j ≠ i → t.streams.get j = s.streams.get j) ∧
      Only [.cmds, .streams, .sinfo, .lindex, .regs] s t ∧ RegsBut [.seqStreams, .poolTables, .poolFnUse] s t) ∧
  (∀ (s : State) (tag : Nat) (c : Cmd), Served s tag 0x34 c → s.isHere (Entry.object c.entry) = true → c.refuse = none →
    let i := Addr.stream (Entry.object c.entry)
    (s.streams.get i).waiting = [] → s.objBusy (.stream s.dev i (Addr.gen (Entry.object c.entry))) tag = false →
    (∀ d ∈ (s.streams.get i).stripe, s.mine d = true) → Runs (exec (.sclose tag) s) fun t =>
      Ended s t tag .ok 0 0 ∧ t.streams.get i = { gen := (s.streams.get i).gen } ∧ (∀ j, j ≠ i → t.streams.get j = s.streams.get j)) ∧
  (∀ (s : State) (k : Nat), (s.streams.get k).state = .orphaned → s.objBusy (.stream s.dev k (s.streams.get k).gen) 0 = false →
    (∀ d ∈ (s.streams.get k).stripe, s.mine d = true) → Runs (exec (.zeroFillStart true k) s) fun t =>
      t.streams.get k = { gen := (s.streams.get k).gen } ∧ (∀ j, j ≠ k → t.streams.get j = s.streams.get j))

/-- An append: SAPPEND that its stream's descriptor accepted waits for its turn; APPEND_ORDERED gives the oldest one the stream's last token plus one as its first,
and an EXACT append that names another is BAD_FIELD and counted; APPEND_COMMIT of an append all of whose shares are durable moves the stream's end past its
records, and answers the bytes appended and the first token.
Rows under R223, R224. Where it rests on the model's own choice: log entry 19. -/
def Obligations.AppendTakesTokensInOrder : Prop :=
  (∀ (s : State) (tag : Nat) (c : Cmd), Served s tag 0x31 c → c.part = none → s.isHere (Entry.object c.entry) = true → rangeRules c.entry = none →
    (c.refuse = none → s.abandoned c = false → Runs (exec (.sappend tag) s) fun t =>
      t.cmd tag = { c with stage := .running } ∧ OtherCmds s t tag ∧ Only [.cmds] s t) ∧
    (∀ st, c.refuse = some st → Runs (exec (.sappend tag) s) fun t => Ended s t tag st 0 0 ∧ OtherCmds s t tag ∧ Only [.cmds, .streams] s t)) ∧
  (∀ (s : State) (tag : Nat), let c := s.cmd tag
    let i := Addr.stream (Entry.object c.entry)
    let r := s.streams.get i
    c.live = true → Entry.op c.entry = 0x31 → c.stage = .running → c.part = none → r.waiting.head? = some tag → r.ordered = false → s.abandoned c = false →
    ((bit (Entry.spec c.entry 40 1) 0 = true ∧ Addr.token (Entry.object c.entry) ≠ r.last) → Runs (exec (.appendOrdered tag) s) fun t =>
      Ended s t tag .badField 0 0 ∧ (t.streams.get i).last = r.last ∧ tag ∉ (t.streams.get i).waiting ∧
      t.fld Fld.seqStatExactFail = min (2 ^ Fld.seqStatExactFail.width - 1) (s.fld Fld.seqStatExactFail + 1)) ∧
    ((bit (Entry.spec c.entry 40 1) 0 = false ∨ Addr.token (Entry.object c.entry) = r.last) →
      Runs (exec (.appendOrdered tag) s) fun t =>
        (t.streams.get i).ordered = true ∧ (t.streams.get i).last = r.last ∧ (t.streams.get i).waiting = r.waiting ∧
        (t.cmd tag).first = r.last ∧ (t.cmd tag).started = true)) ∧
  (∀ (s : State) (tag m : Nat) (data : List Byte), let c := s.cmd tag
    let i := Addr.stream (Entry.object c.entry)
    let r := s.streams.get i
    c.live = true → Entry.op c.entry = 0x31 → c.stage = .running → r.waiting.head? = some tag → r.ordered = true → s.partsDone tag = true →
    0 < r.rsize → prefixOf (s.partsOf tag) = (m, data, none) → m = Entry.length c.entry → m % r.rsize = 0 → Runs (exec (.appendCommit tag) s) fun t =>
      Ended s t tag .ok m c.first ∧ OtherCmds s t tag ∧ (t.streams.get i).last = c.first + m / r.rsize ∧ (t.streams.get i).ordered = false ∧
      tag ∉ (t.streams.get i).waiting ∧ (∀ j, j ≠ i → t.streams.get j = s.streams.get j) ∧ Only [.cmds, .streams, .parts, .regs] s t)

/-- SREAD all of whose shares have come gives them to its caller in order and counts every byte; STRIM, which moved the stream's first token as it was accepted,
answers the tokens freed; CHUNK_FREE frees the record of a chunk all of whose tokens lie below the first token once no read of it is left.
Rows under R227, R231. Where it rests on the model's own choice: log entries 19, 62. -/
def Obligations.StreamReadsAndTrims : Prop :=
  (∀ (s : State) (tag : Nat) (c : Cmd) (data : List Byte), Served s tag 0x32 c → c.part = none → c.origin = none → s.isHere (Entry.object c.entry) = true →
    rangeRules c.entry = none → c.refuse = none → s.abandoned c = false → c.stage = .running → s.partsDone tag = true →
    prefixOf (s.partsOf tag) = (Entry.length c.entry, data, none) → partRecs (s.partsOf tag) = [] → Runs (exec (.sread tag) s) fun t =>
      Ended s t tag .ok (Entry.length c.entry) 0 ∧ OtherCmds s t tag ∧ t.hostRead c.fn (Entry.hostBuf c.entry) data.length = data ∧
      Only [.cmds, .parts, .hostMem, .regs] s t ∧ RegsBut [.seqStat] s t) ∧
  (∀ (s : State) (tag : Nat) (c : Cmd), Served s tag 0x33 c → s.isHere (Entry.object c.entry) = true →
    (∀ st, c.refuse = some st → Runs (exec (.strim tag) s) fun t => Ended s t tag st 0 0 ∧ OtherCmds s t tag ∧ Only [.cmds] s t) ∧
    (c.refuse = none → (∀ d ∈ (s.streams.get (Addr.stream (Entry.object c.entry))).stripe, s.mine d = true) → Runs (exec (.strim tag) s) fun t =>
      Ended s t tag .ok c.moved 0 ∧ OtherCmds s t tag ∧ Only [.cmds] s t)) ∧
  (∀ (s : State) (stream gen chunk : Nat), let r := s.streams.get stream
    r.state ≠ .free → r.gen = gen → 4096 * (chunk + 1) ≤ r.first → s.chunkRead s.holdId stream chunk = false →
    Runs (exec (.chunkFree s.holdId stream gen chunk) s) fun t =>
      (t.chunks.get (chunkKey s.holdId stream gen chunk)).present = false ∧
      (∀ k, k ≠ chunkKey s.holdId stream gen chunk → t.chunks.get k = s.chunks.get k) ∧ t.streams = s.streams)

/-! ### The library tier (spec/07) -/

/-- What a library data command of this device has passed: its checks, its volume's table and its route (R113, R199). -/
def Claims.LibraryWork (s : State) (tag op : Nat) (c : Cmd) : Prop :=
  Served s tag op c ∧ c.part = none ∧ c.origin = none ∧ rangeRules c.entry = none ∧ Addr.sys (Entry.object c.entry) = s.sys ∧
    (s.volumes.get (Addr.vol (Entry.object c.entry))).present = true ∧
    (∃ d, s.planner (s.volumes.get (Addr.vol (Entry.object c.entry))) = some d ∧ s.mine d = true) ∧ c.refuse = none ∧ s.abandoned c = false

/-- LREAD inside one stripe unit that this device holds, on the plain path: a copy staged in the Urn tier gives its bytes and is counted as a hit; a unit that was
never loaded reads as zero bytes; every byte asked for counts as moved.
Rows under R199. -/
def Obligations.LibraryRead : Prop :=
  ∀ (s : State) (tag : Nat) (c : Cmd), Claims.LibraryWork s tag 0x20 c → Entry.dlMode c.entry ≠ 1 → s.partsOf tag = [] →
    let vol := Addr.vol (Entry.object c.entry)
    let o := Addr.libOff (Entry.object c.entry)
    let n := Entry.length c.entry
    let u := o / 65536
    o % 65536 + n ≤ 65536 → s.mine ((s.volumes.get vol).place u).1 = true → s.lateNow c = false →
    ((s.staged.get (stagedKey vol u 1)).present = true →
      (∀ i, i < 1024 → s.poisoned (s.urnSlot (s.staged.get (stagedKey vol u 1)).slot + 64 * i) = false) → Runs (exec (.lread tag) s) fun t =>
        Ended s t tag .ok n 0 ∧ OtherCmds s t tag ∧
        t.hostRead c.fn (Entry.hostBuf c.entry) n = ((s.urnRead (s.urnSlot (s.staged.get (stagedKey vol u 1)).slot) 65536).drop (o % 65536)).take n ∧
        t.fld Fld.libStageStatHits = (s.fld Fld.libStageStatHits + 1) % 2 ^ Fld.libStageStatHits.width ∧
        Only [.cmds, .staged, .parts, .nextPart, .hostMem, .freeCtr, .regs] s t ∧ RegsBut [.libStageStat] s t) ∧
    ((s.staged.get (stagedKey vol u 1)).present = false → (s.staged.get (stagedKey vol u 0)).present = false →
      (s.unitRecs.get (unitKeyOf vol u)).present = false → Runs (exec (.lread tag) s) fun t =>
        Ended s t tag .ok n 0 ∧ OtherCmds s t tag ∧ t.hostRead c.fn (Entry.hostBuf c.entry) n = zeroBytes n ∧
        Only [.cmds, .parts, .nextPart, .hostMem, .freeCtr] s t)

/-- LSTAGE of one stripe unit that this device holds: a copy that is there already is kept; with room in the tier the unit is staged, protected, and counted; a tier full of
protected copies makes the command wait, or ends it with NO_SPACE under ABANDON, and so does the end of the wait. LLOAD: a load whose first byte is not the volume's
length, or of a sealed volume, is BAD_FIELD; one all of whose units were stored makes the volume that much longer, seals it where asked, and answers the bytes moved and
the new length.
Rows under R198, R203, R204, R205. Where it rests on the model's own choice: log entries 41, 61. -/
def Obligations.LibraryStagesAndLoads : Prop :=
  ((∀ (s : State) (tag : Nat) (c : Cmd), Claims.LibraryWork s tag 0x21 c → s.partsOf tag = [] → c.sq < 2 ^ 20 →
     let vol := Addr.vol (Entry.object c.entry)
     let o := Addr.libOff (Entry.object c.entry)
     let n := Entry.length c.entry
     let u := o / 65536
     let tier := Entry.spec c.entry 40 1
     o % 65536 + n ≤ 65536 → tier ≤ 1 → s.mine ((s.volumes.get vol).place u).1 = true → s.lateNow c = false →
     ((s.staged.get (stagedKey vol u tier)).present = true → Runs (exec (.lstage tag) s) fun t =>
       Ended s t tag .ok n 0 ∧ OtherCmds s t tag ∧ Only [.cmds, .parts, .nextPart] s t) ∧
     ((s.staged.get (stagedKey vol u tier)).present = false → s.fld (tierFill tier) < s.tierRoom tier →
       (s.unitRecs.get (unitKeyOf vol u)).present = false → Runs (exec (.lstage tag) s) fun t =>
         Ended s t tag .ok n 0 ∧ OtherCmds s t tag ∧ (t.staged.get (stagedKey vol u tier)).present = true ∧
         (t.staged.get (stagedKey vol u tier)).hold = true ∧ (t.staged.get (stagedKey vol u tier)).since = s.us ∧
         (∀ k, k ≠ stagedKey vol u tier → t.staged.get k = s.staged.get k) ∧ Only [.cmds, .staged, .urn, .parts, .nextPart, .regs] s t ∧
         RegsBut [.libStageFill] s t) ∧
     ((s.staged.get (stagedKey vol u tier)).present = false → s.tierRoom tier ≤ s.fld (tierFill tier) → s.victim tier = none →
       (Entry.dlMode c.entry ≠ 3 → Runs (exec (.lstage tag) s) fun t =>
         (t.cmd tag).stage = .running ∧ (t.cmd tag).waitSince = some (c.waitSince.getD s.us) ∧ OtherCmds s t tag ∧ Only [.cmds] s t) ∧
       (Entry.dlMode c.entry = 3 → Runs (exec (.lstage tag) s) fun t =>
         Ended s t tag .noSpace 0 0 ∧ OtherCmds s t tag ∧ Only [.cmds, .parts] s t))) ∧
   (∀ (s : State) (tag w : Nat), let c := s.cmd tag
     c.live = true → Entry.op c.entry = 0x21 → c.stage ≠ .done → c.part = none → c.waitSince = some w → w + s.fld Fld.libStageWaitUs ≤ s.us →
     s.partsOf tag = [] → Runs (exec (.stageWaitExpiry tag) s) fun t => Ended s t tag .noSpace 0 0 ∧ OtherCmds s t tag) ∧
   (∀ (s : State) (vol u tier : Nat), (s.staged.get (stagedKey vol u tier)).present = true →
     (s.staged.get (stagedKey vol u tier)).since + 1000 * s.fld Fld.libStageHoldMs ≤ s.us → Runs (exec (.stageHoldExpiry vol u tier) s) fun t =>
       t.staged.get (stagedKey vol u tier) = { s.staged.get (stagedKey vol u tier) with hold := false } ∧
       (∀ k, k ≠ stagedKey vol u tier → t.staged.get k = s.staged.get k) ∧ Only [.staged] s t)) ∧
  (∀ (s : State) (tag : Nat) (c : Cmd), Claims.LibraryWork s tag 0x22 c → Entry.spec c.entry 41 1 ≤ 8 →
     let vol := Addr.vol (Entry.object c.entry)
     let v := s.volumes.get vol
     let o := Addr.libOff (Entry.object c.entry)
     let n := Entry.length c.entry
     (c.stage ≠ .running → (o ≠ v.length ∨ v.sealed = true) →
       (∀ e ∈ s.cmds, ¬(e.2.live = true ∧ e.2.order < c.order ∧ Entry.op e.2.entry = 0x22 ∧ e.2.stage ≠ .done ∧ e.2.objs.contains (.volume vol) = true)) →
       Runs (exec (.lload tag) s) fun t => Ended s t tag .badField 0 v.length ∧ OtherCmds s t tag ∧ (t.volumes.get vol).length = v.length) ∧
     (∀ data, c.stage = .running → s.partsDone tag = true → s.asksOf tag = [] → c.moved = 0 → prefixOf (s.partsOf tag) = (n, data, none) →
       s.otherDevs v = [] → Runs (exec (.lload tag) s) fun t =>
         Ended s t tag .ok n (o + n) ∧ OtherCmds s t tag ∧ (t.volumes.get vol).length = o + n ∧
         (t.volumes.get vol).sealed = (v.sealed || bit (Entry.spec c.entry 40 1) 0) ∧ (∀ w, w ≠ vol → t.volumes.get w = s.volumes.get w)))

/-- VOLUME through the privileged queue, on a volume whose only device is this one: CREATE of an id that is free gives a volume of length 0 with the named function as
writer, starting on channel id mod 32; GRANT_READ, REVOKE_READ and SET_WRITER change its readers or its writer; DELETE stops acceptance at once, and the volume is
gone as the command ends; each leaves every other volume alone.
Rows under R192, R194. Where it rests on the model's own choice: log entry 61. -/
def Obligations.VolumeCommands : Prop :=
  ∀ (s : State) (tag : Nat) (c : Cmd), Served s tag 0x86 c → Entry.qspec c.entry = 0 → s.seam 0 = false → c.table = none → volFields c.entry = none →
    let id := Addr.vol (Entry.object c.entry)
    let v := s.volumes.get id
    let w : Who := ⟨s.dev, Entry.spec c.entry 42 1⟩
    (Entry.spec c.entry 40 1 = 0 → c.stage ≠ .running → Entry.length c.entry = 0 → v.present = false → shadowOf c.entry = none →
      (∀ ch, ch < 32 → s.flag Fld.libChStateAbsent ch = false) → s.fld Fld.libVolumesCount < 16384 → Runs (exec (.volumeCreate tag) s) fun t =>
        Ended s t tag .ok 0 0 ∧ OtherCmds s t tag ∧ t.volumes.get id = { present := true, writer := w, stripe := [s.dev], start := id % 32 } ∧
        (∀ x, x ≠ id → t.volumes.get x = s.volumes.get x) ∧ t.fld Fld.libVolumesCount = s.fld Fld.libVolumesCount + 1 ∧
        Only [.cmds, .volumes, .volPrev, .regs] s t ∧ RegsBut [.libVolumes] s t) ∧
    ((∀ d ∈ v.stripe, s.mine d = true) → v.present = true → v.deleting = false →
      (Entry.spec c.entry 40 1 = 1 → c.stage ≠ .running → (∀ e ∈ s.volumes, e.2.shadow ≠ some id) → Runs (exec (.volumeDelete tag) s) fun t =>
        (t.volumes.get id).deleting = true ∧ (t.cmd tag).stage = .running ∧ OtherCmds s t tag ∧ Only [.cmds, .volumes, .volPrev] s t) ∧
      (Entry.spec c.entry 40 1 = 2 → c.stage ≠ .running → v.readers.length < 64 → Runs (exec (.grantRead tag) s) fun t =>
        Ended s t tag .ok 0 0 ∧ OtherCmds s t tag ∧ w ∈ (t.volumes.get id).readers ∧ (∀ x ∈ v.readers, x ∈ (t.volumes.get id).readers) ∧
        (∀ x, x ≠ id → t.volumes.get x = s.volumes.get x) ∧ Only [.cmds, .volumes, .volPrev] s t) ∧
      (Entry.spec c.entry 40 1 = 3 → c.stage ≠ .running → Runs (exec (.revokeRead tag) s) fun t =>
        Ended s t tag .ok 0 0 ∧ OtherCmds s t tag ∧ (t.volumes.get id) = { v with readers := v.readers.filter (· ≠ w) } ∧
        (∀ x, x ≠ id → t.volumes.get x = s.volumes.get x) ∧ Only [.cmds, .volumes, .volPrev] s t) ∧
      (Entry.spec c.entry 40 1 = 4 → c.stage ≠ .running → Runs (exec (.setWriter tag) s) fun t =>
        Ended s t tag .ok 0 0 ∧ OtherCmds s t tag ∧ (t.volumes.get id) = { v with writer := w } ∧
        (∀ x, x ≠ id → t.volumes.get x = s.volumes.get x) ∧ Only [.cmds, .volumes, .volPrev] s t)) ∧
    (Entry.spec c.entry 40 1 = 1 → c.stage = .running → s.asksOf tag = [] → s.objBusy (.volume id) tag = false → Runs (exec (.volumeDelete tag) s) fun t =>
      Ended s t tag .ok 0 0 ∧ OtherCmds s t tag ∧ (t.volumes.get id).present = false ∧ (∀ x, x ≠ id → t.volumes.get x = s.volumes.get x))

/-- Flash reads: a frame read that ended at the hard decode changes no count, one that needed the retry counts RETRY, one decoded softly within the refresh limit RETRY and
SOFT; the patrol's reads count the same and are charged to the device's own account. Dies: a LUN that gives no status in time is marked FAILED; a block whose program or
erase failed counts against its LUN, which fails beyond the limit; a unit in a failed die whose stripe can be rebuilt moves to a free frame of its channel, where one is
reserved, and its record with it; with none reserved nothing moves.
Rows under R188, R189, R212, R213. Where it rests on the model's own choice: log entries 10, 63. -/
def Obligations.FlashReadsAndRebuilds : Prop :=
  ((∀ (s : State) (ch fr corrected : Nat), s.flag Fld.twbCtrlGo = false →
     exec (.flashFrameRead ch fr 1 corrected) s = .next s ∧
     Runs (exec (.flashFrameRead ch fr 2 corrected) s) (fun t =>
       t.fld Fld.libErrRetry = min (2 ^ Fld.libErrRetry.width - 1) (s.fld Fld.libErrRetry + 1) ∧ t.fld Fld.libErrSoft = s.fld Fld.libErrSoft ∧
       Only [.regs] s t ∧ RegsBut [.libErr] s t) ∧
     (corrected ≤ s.fld Fld.libCtrlRefreshBits → Runs (exec (.flashFrameRead ch fr 3 corrected) s) fun t =>
       t.fld Fld.libErrRetry = min (2 ^ Fld.libErrRetry.width - 1) (s.fld Fld.libErrRetry + 1) ∧
       t.fld Fld.libErrSoft = min (2 ^ Fld.libErrSoft.width - 1) (s.fld Fld.libErrSoft + 1) ∧
       Only [.regs] s t ∧ RegsBut [.libErr] s t)) ∧
   (∀ (s : State) (ch fr corrected : Nat), s.flag Fld.twbCtrlGo = false → Runs (exec (.libPatrol ch fr 2 corrected) s) fun t =>
     t.fld Fld.libErrRetry = min (2 ^ Fld.libErrRetry.width - 1) (s.fld Fld.libErrRetry + 1) ∧
     Only [.pairs, .blendRuns, .regs] s t)) ∧
  ((∀ (s : State) (ch x l : Nat), x < 8 → l < 4 → Runs (exec (.lunStatusTimeout ch x l) s) fun t =>
     bit (t.fld Fld.libChStateFailed ch) (4 * x + l) = true ∧ (∀ k, k ≠ ch → t.fld Fld.libChStateFailed k = s.fld Fld.libChStateFailed k) ∧
     Only [.svc, .regs, .out, .fns, .evRing, .evSent, .attn] s t ∧ RegsBut (.libChState :: [.evtCons, .evtStat, .evtProd, .pwrMbAttn, .pwrMbStatus, .twbOutHash]) s t) ∧
   (∀ (s : State) (ch x l : Nat) (erase : Bool), x < 8 → l < 4 →
     (s.lunFails.get (lunKey ch x l) + 1 ≤ s.fld Fld.libCtrlDieFailBlocks → Runs (exec (.flashProgramDone ch x l erase true) s) fun t =>
       t.lunFails.get (lunKey ch x l) = s.lunFails.get (lunKey ch x l) + 1 ∧ Only [.lunFails] s t) ∧
     (s.fld Fld.libCtrlDieFailBlocks < s.lunFails.get (lunKey ch x l) + 1 → Runs (exec (.flashProgramDone ch x l erase true) s) fun t =>
       bit (t.fld Fld.libChStateFailed ch) (4 * x + l) = true) ∧
     Runs (exec (.flashProgramDone ch x l erase false) s) (fun t => Only [.frames] s t ∧
       (erase = true → ∀ k, k / 2 ^ 28 = ch → (t.frames.get k).target = x → (t.frames.get k).lun = l → (t.frames.get k).stale = false))) ∧
   (∀ (s : State) (vol u fr new : Nat), let ch := ((s.volumes.get vol).place u).2
     (s.unitRecs.get (unitKeyOf vol u)).present = true → (s.unitRecs.get (unitKeyOf vol u)).frame = fr → s.frameLost ch fr = true → s.unitState 7 ch ≠ 0 →
     s.recoverState 2 (flashStripe ch fr) = .possible → s.unitOfFrame ch fr = some (vol, u) → s.freeFrame ch s.chFrames = some new →
     (0 < s.fld Fld.libFlashReserve → Runs (exec (.dieRebuildUnit vol u fr) s) fun t =>
       (t.unitRecs.get (unitKeyOf vol u)).frame = new ∧ t.flash.getN (frameKey ch new * 65536) 65536 = s.flash.getN (frameKey ch fr * 65536) 65536) ∧
     (s.fld Fld.libFlashReserve = 0 → Runs (exec (.dieRebuildUnit vol u fr) s) fun t => t.unitRecs = s.unitRecs ∧ t.flash = s.flash)))

/-- The staging sizes: LIB_STAGE_DRAM from 16 to 4096 GiB takes effect while no granule is owned and sectors are left, LIB_STAGE_URN up to 256 MiB while the Urn tier is
empty and the Urn's layout still fits, which then moves its bases; any other value leaves them as they are.
Rows under R215. Where it rests on the model's own choice: log entry 12. -/
def Obligations.StagingSizes : Prop :=
  (∀ (s : State) (src gib : Nat),
    ((∀ e ∈ s.owners, e.2 = none) → 16 ≤ gib → gib ≤ 4096 → 1 ≤ usableSectors s.dramGib (s.fld Fld.poolLogicalGib) gib →
      Runs (exec (.libStageDramWrite src gib) s) fun t => t.fld Fld.libStageDramGib = gib ∧ Only [.regs, .urn, .twbPos] s t ∧
        RegsBut [.libStageDram, .poolSectorsTotal, .poolSectorsRsv, .poolSectorsFree, .protSize, .twbStatus, .twbCtrl] s t) ∧
    ((gib < 16 ∨ 4096 < gib ∨ ∃ e ∈ s.owners, e.2 ≠ none) → Runs (exec (.libStageDramWrite src gib) s) fun t =>
      t.fld Fld.libStageDramGib = s.fld Fld.libStageDramGib)) ∧
  (∀ (s : State) (src mib : Nat),
    (s.fld Fld.libStageFillUrn = 0 → mib ≤ 256 → s.layoutFits mib (s.fld Fld.prsScratchMib) = true → Runs (exec (.libStageUrnWrite src mib) s) fun t =>
      t.fld Fld.libStageUrnMib = mib ∧ t.fld Fld.urnLayoutStageBase = (512 - mib) % 2 ^ Fld.urnLayoutStageBase.width ∧
      t.fld Fld.urnLayoutScratchBase = (512 - mib - s.fld Fld.prsScratchMib) % 2 ^ Fld.urnLayoutScratchBase.width ∧
      Only [.regs, .urn, .twbPos] s t ∧ RegsBut [.libStageUrn, .urnLayout, .twbStatus, .twbCtrl] s t) ∧
    ((s.fld Fld.libStageFillUrn ≠ 0 ∨ 256 < mib) → Runs (exec (.libStageUrnWrite src mib) s) fun t =>
      t.fld Fld.libStageUrnMib = s.fld Fld.libStageUrnMib))

/-! ### The Presses (spec/09) -/

/-- An object address that lies in this device's own pool. -/
def Claims.Here (s : State) (a : Nat) : Prop := Addr.sys a = s.sys ∧ s.mine (Addr.dev a) = true

/-- Pages that no write has reached and none of which is poisoned. -/
def Claims.Blank (s : State) (off n : Nat) : Prop :=
  ∀ p, off / 4096 ≤ p → 4096 * p < off + n → (s.mapEntry p).mapped = false ∧ (s.mapEntry p).poison = false

/-- What a Press command of this device has passed: its fields, its tables, its deadline; a Press is in service (R53, R116, R236). -/
def Claims.PressWork (s : State) (tag op : Nat) (c : Cmd) (check : Nat → Option Status) : Prop :=
  Served s tag op c ∧ check c.entry = none ∧ c.refuse = none ∧ s.abandoned c = false ∧ s.anyPress = true ∧ c.origin = none ∧ c.part = none ∧
    Claims.Here s (Entry.object c.entry)

/-- The Press commands over a whole range: PFILL stores its pattern repeated over the range and PCOPY of whole pages the source's pages, as far as the log has room,
and each counts every byte; PCMP EQUAL of two integer ranges that no write has reached writes one set bit for each element, and PREDUCE SUM of such a range one
record, the number of elements and the sum 0.
Rows under R241, R242, R243, R244. Where it rests on the model's own choice: log entries 22, 29. -/
def Obligations.PressCommands : Prop :=
  (∀ (s s' : State) (tag m : Nat) (c : Cmd), Claims.PressWork s tag 0x40 c fillCheck → c.moved = 0 →
    let o := Addr.off (Entry.object c.entry)
    let n := Entry.length c.entry
    let k := Entry.spec c.entry 56 1
    s.writeRange s.poolSpace (s.pageRoom (pageCount o n)) o ((List.range n).map fun i => (leBytes k (Entry.spec c.entry 40 k)).getD (i % k) 0#8) = (s', m, none) →
    (m = n → Runs (exec (.pfill tag) s) fun t =>
      Ended s' t tag .ok n 0 ∧ t.mapDram = s'.mapDram ∧ t.mapLog = s'.mapLog ∧ t.sectors = s'.sectors ∧ t.alloc = s'.alloc ∧ t.hostMem = s'.hostMem) ∧
    (m < n → s.rebuildOn = false → Runs (exec (.pfill tag) s) fun t =>
      (t.cmd tag).stage = .running ∧ (t.cmd tag).moved = m ∧ t.mapDram = s'.mapDram ∧ t.mapLog = s'.mapLog ∧ t.sectors = s'.sectors)) ∧
  (∀ (s s' : State) (tag m : Nat) (c : Cmd), Claims.PressWork s tag 0x41 c copyCheck → c.moved = 0 → Claims.Here s (Entry.spec c.entry 40 8) →
    let a := Addr.off (Entry.object c.entry)
    let b := Addr.off (Entry.spec c.entry 40 8)
    let n := Entry.length c.entry
    a % 4096 = 0 → b % 4096 = 0 → n % 4096 = 0 → s.pageRoom (n / 4096) = m → n = 4096 * m → s.copyPages (a / 4096) (b / 4096) m = (s', m, none) →
    Runs (exec (.pcopy tag) s) fun t =>
      Ended s' t tag .ok n 0 ∧ t.mapDram = s'.mapDram ∧ t.mapLog = s'.mapLog ∧ t.sectors = s'.sectors ∧ t.alloc = s'.alloc ∧ t.hostMem = s'.hostMem) ∧
  (∀ (s : State) (tag : Nat) (c : Cmd), Claims.PressWork s tag 0x42 c cmpCheck → Claims.Here s (Entry.spec c.entry 40 8) →
    let n := Entry.length c.entry
    let count := 8 * n / fmtBits (pressFmt c.entry)
    Claims.Blank s (Addr.off (Entry.object c.entry)) n → Claims.Blank s (Addr.off (Entry.spec c.entry 40 8)) n → pressFmt c.entry < 4 →
    Entry.spec c.entry 51 1 = 0 → Runs (exec (.pcmp tag) s) fun t =>
      Ended s t tag .ok ((count + 7) / 8) 0 ∧ OtherCmds s t tag ∧
      (∀ i, i < count → bit (leNat (t.hostRead c.fn (Entry.hostBuf c.entry) ((count + 7) / 8))) i = true) ∧
      Only [.cmds, .hostMem, .freeCtr, .regs] s t ∧ RegsBut [.prsDramIn, .prsLogicalIn, .prsOrders, .grdMapcHit, .grdMapcMiss] s t) ∧
  (∀ (s : State) (tag : Nat) (c : Cmd), Claims.PressWork s tag 0x43 c reduceCheck → pressFmt c.entry < 3 → Entry.spec c.entry 51 1 = 0 →
    let n := Entry.length c.entry
    Claims.Blank s (Addr.off (Entry.object c.entry)) n → Runs (exec (.preduce tag) s) fun t =>
      Ended s t tag .ok 16 1 ∧ OtherCmds s t tag ∧
      t.hostRead c.fn (Entry.hostBuf c.entry) 16 = leBytes 8 (8 * n / fmtBits (pressFmt c.entry)) ++ zeroBytes 8 ∧
      Only [.cmds, .hostMem, .freeCtr, .regs] s t ∧
      RegsBut [.prsDramIn, .prsLogicalIn, .prsOrders, .grdMapcHit, .grdMapcMiss, .prsStat] s t)

/-- PSCAN: its merge device starts a fragment with the query's elements over its own range; the oldest fragment that waits takes the lowest free slice; a pass over a
segment whose pages hold no planes scores every vector, and a fragment that another device sent answers its k best records (here all of them: fewer than k); when all
have answered, the k best records of all of them go to the host. The scratch size changes while no slice is held, and only to a layout that fits.
Rows under R246, R249, R254, R258. Where it rests on the model's own choice: log entry 29. -/
def Obligations.ScanRuns : Prop :=
  (∀ (s : State) (tag : Nat) (c : Cmd), Claims.PressWork s tag 0x44 c scanCheck → c.stage ≠ .running → scanList c.entry = false → scanQurn c.entry = false →
    rangeCheck (scanStride c.entry) (Entry.object c.entry, Entry.length c.entry) = none →
    s.poolChecks c [(Addr.off (Entry.object c.entry), Entry.length c.entry, false)] = none → s.partsOf tag = [] → Entry.object c.entry / 2 ^ 48 / 1024 = s.sys →
    Runs (exec (.pscan tag) s) fun t =>
      (t.frags.get s.nextFrag).live = true ∧ (t.frags.get s.nextFrag).tag = tag ∧ (t.frags.get s.nextFrag).slice = none ∧
      (t.frags.get s.nextFrag).ranges = [(Entry.object c.entry, Entry.length c.entry)] ∧ (t.frags.get s.nextFrag).k = pressK c.entry ∧
      (t.frags.get s.nextFrag).query = (elems (pressFmt c.entry) (s.hostRead c.fn (Entry.spec c.entry 40 8) (scanSize c.entry))).take (pressDim c.entry) ∧
      (∀ i, i ≠ s.nextFrag → t.frags.get i = s.frags.get i) ∧ (t.cmd tag).stage = .running ∧ (t.cmd tag).started = true ∧ OtherCmds s t tag ∧
      Only [.cmds, .frags, .nextFrag, .regs] s t ∧ RegsBut [.prsStat] s t) ∧
  (∀ (s : State) (tag : Nat) (c : Cmd) (p : Nat × Part), Served s tag 0x44 c → c.stage = .running → c.part = none → c.origin = none → s.partsOf tag = [p] →
    p.2.done = true → p.2.status = .ok → (∀ f ∈ s.frags, f.2.tag ≠ tag) →
    let best := bestOf (fmtFloat (pressFmt c.entry)) (distLarger (pressDist c.entry)) (pressK c.entry) (readAnswer (fmtFloat (pressFmt c.entry)) p.2.recs).1
    Runs (exec (.pscan tag) s) fun t =>
      (t.cmd tag).stage = .done ∧ (t.cmd tag).reply.result0 = 16 * best.length ∧ (t.cmd tag).reply.result1 % 2 ^ 16 = best.length % 2 ^ 16 ∧
      t.hostRead c.fn (Entry.hostBuf c.entry) (16 * best.length) = best.flatMap (fun r => recBytes r.1 r.2) ∧ t.partsOf tag = [] ∧ OtherCmds s t tag ∧
      Only [.cmds, .parts, .hostMem, .freeCtr, .regs] s t ∧ RegsBut [.prsStat] s t) ∧
  (∀ (s : State) (frag i : Nat), (s.frags.get frag).live = true → (s.frags.get frag).slice = none → fmtFloat (s.frags.get frag).fmt = false → s.freeSlice = some i →
    (∀ g ∈ s.frags, g.2.live = true → g.2.slice = none → fmtFloat g.2.fmt = false → (s.frags.get frag).order ≤ g.2.order) →
    Runs (exec (.sliceGrant frag) s) fun t =>
      t.frags.get frag = { s.frags.get frag with slice := some i } ∧ (∀ j, j ≠ frag → t.frags.get j = s.frags.get j) ∧ Only [.frags] s t) ∧
  (∀ (s : State) (frag : Nat), let f := s.frags.get frag
    let n := vectorsIn f.stride f.ranges
    f.live = true → f.slice.isSome = true → fmtFloat f.fmt = false → s.anyPress = true → f.degrade = false → f.pass = 0 → f.segStart = 0 → f.kept = [] →
    0 < n → n < f.k → n ≤ s.segVectors f → (s.cmd f.tag).live = true → (s.cmd f.tag).part.isSome = true →
    (∀ e ∈ s.pinPages f (s.segment f 0), e.2.mapped = false ∧ e.2.poison = false) → Runs (exec (.passComplete frag) s) fun t =>
      t.frags.get frag = default ∧ (∀ j, j ≠ frag → t.frags.get j = s.frags.get j) ∧ Ended s t f.tag .ok (16 * n) 0 ∧ (t.cmd f.tag).recs.length = 16 + 16 * n ∧
      OtherCmds s t f.tag ∧ Only [.cmds, .frags, .regs] s t) ∧
  (∀ (s : State) (src value : Nat), s.sliceHeld = false → s.layoutFits (s.fld Fld.libStageUrnMib) (max 16 (min 256 (bits value 0 9))) = true →
    Runs (exec (.prsScratchWrite src value) s) fun t =>
      t.fld Fld.prsScratchMib = max 16 (min 256 (bits value 0 9)) ∧ t.fld Fld.prsScratchSlice = max 8 (min 64 (bits value 16 7)) ∧
      Only [.regs, .urn, .twbPos] s t ∧ RegsBut [.prsScratch, .urnLayout, .twbStatus, .twbCtrl] s t)

/-! ### Pour position, triggers and the trace (spec/02, spec/01) -/

/-- A POUR of the domain's source that no rule refuses takes the next sequence number, moves the domain as R42 and R43 say, and answers the position and whether it was
held; one from elsewhere is NOT_OWNER and counted, one behind the last update POUR_REGRESS and counted. On a synchronised device a received update of the same
generation that is one ahead in sequence is applied, and a repeated one is not; a partner's request is answered on its link; and where no answer came within 10 µs
the domain stands on its own, and a reset that waited for it goes out as generation 1.
Rows under R42, R47, R48. Where it rests on the model's own choice: log entries 7, 42. -/
def Obligations.UpdatesMoveDomains : Prop :=
  (∀ (s : State) (tag d : Nat) (c : Cmd), Served s tag 0x50 c → (s.fn c.fn).domain = some d → bits (Entry.object c.entry) 48 16 = 0 → (s.dom d).state ≠ .off →
    let u := pourUpdate c.entry
    let r := s.dom d
    ((s.fld Fld.pourDomSrcDevid d ≠ s.dev ∨ s.fld Fld.pourDomSrcFunc d ≠ c.fn) → Runs (exec (.pour tag) s) fun t =>
      Ended s t tag .notOwner 0 0 ∧ OtherCmds s t tag ∧
      t.fld Fld.pourDomStatForeign d = min (2 ^ Fld.pourDomStatForeign.width - 1) (s.fld Fld.pourDomStatForeign d + 1) ∧
      Only [.cmds, .regs] s t ∧ RegsBut [.pourDomStat] s t) ∧
    (s.fld Fld.pourDomSrcDevid d = s.dev → s.fld Fld.pourDomSrcFunc d = c.fn → (∀ b, u.brim = some b → u.tick ≤ b) →
      (r.regress u = true → Runs (exec (.pour tag) s) fun t =>
        Ended s t tag .pourRegress 0 0 ∧ OtherCmds s t tag ∧
        t.fld Fld.pourDomStatRegress d = min (2 ^ Fld.pourDomStatRegress.width - 1) (s.fld Fld.pourDomStatRegress d + 1) ∧
        Only [.cmds, .regs] s t ∧ RegsBut [.pourDomStat] s t) ∧
      (r.regress u = false → r.synced = true → Runs (exec (.pour tag) s) fun t =>
        t.dom d = { r.applied u s.us with seq := (r.seq + 1) % 65536 } ∧ (∀ x, x ≠ d → t.dom x = s.dom x) ∧
        Ended s t tag .ok (t.dom d).pos (if u.epoch = r.epoch ∧ packPos u.epoch u.layer u.tick < r.pos then 1 else 0) ∧
        t.hostMem = s.hostMem ∧ t.extents = s.extents))) ∧
  (∀ (s : State) (link d ep ly tk rate brim seq : Nat) (hasRate hasBrim : Bool), link < 62 → d < 64 → ep < 65536 → ly < 65536 → tk < 65536 → rate < 2 ^ 32 →
    brim < 65536 → seq < 65536 → (s.dom d).rgen < 16 → (s.dom d).state ≠ .off → (s.dom d).synced = true →
    let r := s.dom d
    let u : Update := ⟨ep, ly, tk, if hasRate then some rate else none, if hasBrim then some brim else none⟩
    let slot := updateSlot (packPos ep ly tk) d (b2n hasRate + 2 * b2n hasBrim) r.rgen rate brim seq false
    (seq = (r.seq + 1) % 65536 → r.regress u = false → Runs (exec (.pourUpdateReceive link slot) s) fun t =>
      t.dom d = { r.applied u s.us with seq := seq } ∧ (∀ x, x ≠ d → t.dom x = s.dom x) ∧ t.hostMem = s.hostMem) ∧
    (seq = r.seq → Runs (exec (.pourUpdateReceive link slot) s) fun t => t.doms = s.doms ∧ t.trigs = s.trigs ∧ t.cmds = s.cmds)) ∧
  (∀ (s : State) (link d : Nat), link < 62 → (s.dom d).state ≠ .off → (s.dom d).synced = true → s.flag Fld.twbCtrlGo = false →
    let r := s.dom d
    Runs (exec (.pourSync link d) s) fun t =>
      Output.message link 2 (updateSlot r.pos d 11 r.rgen r.rate r.brim r.seq (decide (r.state = .live))) ∈ t.out ∧ t.doms = s.doms) ∧
  (∀ (s : State) (d : Nat),
    ((s.dom d).sync = some .nothing → Runs (exec (.pourSyncTimeout d) s) fun t =>
      t.dom d = { s.dom d with sync := none } ∧ (∀ x, x ≠ d → t.dom x = s.dom x) ∧ Only [.doms] s t) ∧
    ((s.dom d).sync = some .reset → Runs (exec (.pourSyncTimeout d) s) fun t =>
      (t.dom d).state = .live ∧ (t.dom d).pos = 0 ∧ (t.dom d).rate = 0 ∧ (t.dom d).brim = 0xFFFF ∧ (t.dom d).synced = true ∧ (t.dom d).rgen = 1 ∧
      (t.dom d).seq = 0 ∧ (t.dom d).sync = none ∧ (∀ x, x ≠ d → t.dom x = s.dom x)))

/-- A domain's life: enabling one gives it position 0:0:0, rate 0 and brim 0xFFFF, STALE and unsynchronised; disabling it takes it OFF with its entries; a reset of a
synchronised one starts its next generation at sequence 0, LIVE at 0:0:0; the overflow of the accumulator moves the tick on by one, and holds it at the brim; and silence
for the limit makes a LIVE domain STALE, unsynchronised, where it is. Each leaves every other domain alone.
Rows under R39, R40, R41, R50, R51. Where it rests on the model's own choice: log entries 7, 42. -/
def Obligations.DomainsLive : Prop :=
  (∀ (s : State) (d : Nat), d < 64 →
    (s.flag Fld.pourDomCtrlEnable d = false → Runs (exec (.pourDomEnable d) s) fun t =>
      t.flag Fld.pourDomCtrlEnable d = true ∧ (t.dom d).state = .stale ∧ (t.dom d).pos = 0 ∧ (t.dom d).rate = 0 ∧ (t.dom d).brim = 0xFFFF ∧
      (t.dom d).synced = false ∧ ((t.dom d).sync = none ↔ s.usableLinks (fun _ => true) 62 = []) ∧ (∀ x, x ≠ d → t.dom x = s.dom x)) ∧
    (s.flag Fld.pourDomCtrlEnable d = true → Runs (exec (.pourDomDisable d) s) fun t =>
      t.flag Fld.pourDomCtrlEnable d = false ∧ t.dom d = {} ∧ (∀ x, x ≠ d → t.dom x = s.dom x) ∧
      (∀ e, (t.trigs.get e).valid = true → (t.trigs.get e).domain ≠ d) ∧ (∀ e, (s.trigs.get e).domain ≠ d → t.trigs.get e = s.trigs.get e))) ∧
  (∀ (s : State) (d : Nat), (s.dom d).state ≠ .off → (s.dom d).synced = true → Runs (exec (.pourDomReset d) s) fun t =>
    (t.dom d).state = .live ∧ (t.dom d).pos = 0 ∧ (t.dom d).rate = 0 ∧ (t.dom d).brim = 0xFFFF ∧ (t.dom d).rgen = ((s.dom d).rgen + 1) % 16 ∧ (t.dom d).seq = 0 ∧
    (t.dom d).synced = true ∧ (∀ x, x ≠ d → t.dom x = s.dom x) ∧ (∀ e, (t.trigs.get e).valid = true → (t.trigs.get e).domain ≠ d)) ∧
  (∀ (s : State) (d : Nat), (s.dom d).state = .live → (s.dom d).frac < 2 ^ 32 →
    let r := s.dom d
    let inc := r.rate * 65536 / s.cyclesPerMs
    let n := (2 ^ 32 - r.frac + inc - 1) / inc
    0 < inc →
    (r.tick < r.brim → Runs (exec (.tickAdvance d) s) fun t =>
      t.dom d = { r with tick := r.tick + 1, frac := r.frac + n * inc - 2 ^ 32 } ∧ (∀ x, x ≠ d → t.dom x = s.dom x) ∧ t.hostMem = s.hostMem) ∧
    (r.brim ≤ r.tick → Runs (exec (.tickAdvance d) s) fun t =>
      t.dom d = { r with frac := 0, brimHeld := true } ∧ (∀ x, x ≠ d → t.dom x = s.dom x) ∧ t.hostMem = s.hostMem)) ∧
  (∀ (s : State) (d : Nat), (s.dom d).state = .live → (s.dom d).heard + s.fld Fld.pourDomSilenceLimit d ≤ s.us → Runs (exec (.silenceExpiry d) s) fun t =>
    t.dom d = { s.dom d with state := .stale, synced := false } ∧ (∀ x, x ≠ d → t.dom x = s.dom x) ∧
    t.fld Fld.pourDomStatStaleEntries d = min (2 ^ Fld.pourDomStatStaleEntries.width - 1) (s.fld Fld.pourDomStatStaleEntries d + 1) ∧
    Only [.doms, .regs, .out, .fns, .evRing, .evSent, .attn] s t)

/-- Triggers: TRIGGER_SET of an entry that no row of R56 refuses puts it at the lowest free index and answers that; TRIGGER_CLEAR of the caller's own entry frees it,
one of another owner is NOT_OWNER; the next entry of its batch fires: a one-shot VECTOR entry is free, counted, and its vector signalled, while one whose owner is no
longer admitted is skipped, logged and counted.
Rows under R56, R57, R61. Where it rests on the model's own choice: log entries 38, 40. -/
def Obligations.TriggersFire : Prop :=
  (∀ (s : State) (tag i : Nat) (c : Cmd), Served s tag 0x51 c →
    let x := trigOf c.entry c.fn (s.fmCmd c)
    (∀ st, s.refuseTrig x (bits (Entry.object c.entry) 48 16) = some st → Runs (exec (.triggerSet tag) s) fun t =>
      Ended s t tag st 0 0 ∧ OtherCmds s t tag ∧ Only [.cmds] s t) ∧
    (s.refuseTrig x (bits (Entry.object c.entry) 48 16) = none → i < 1024 → (s.trigs.get i).valid = false → (∀ j, j < i → (s.trigs.get j).valid = true) →
      Runs (exec (.triggerSet tag) s) fun t =>
        (∃ due, due ≤ 1 ∧ Ended s t tag .ok i due) ∧ OtherCmds s t tag ∧ t.trigs.get i = { x with fired := (t.trigs.get i).fired } ∧
        (∀ j, j ≠ i → t.trigs.get j = s.trigs.get j) ∧ Only [.cmds, .trigs, .dueNext, .regs] s t ∧ RegsBut [.pourTrigStat] s t)) ∧
  (∀ (s : State) (tag : Nat) (c : Cmd), Served s tag 0x52 c → (s.fn c.fn).domain ≠ none → s.fmCmd c = false →
    let i := Entry.spec c.entry 40 2
    i < 1024 → (s.trigs.get i).valid = true → (s.trigs.get i).fm = false →
    ((s.trigs.get i).owner = c.fn → Runs (exec (.triggerClear tag) s) fun t =>
      Ended s t tag .ok 0 0 ∧ OtherCmds s t tag ∧ t.trigs.get i = {} ∧ (∀ j, j ≠ i → t.trigs.get j = s.trigs.get j) ∧ t.isDue i = false ∧
      Only [.cmds, .trigs, .batch, .dueNext] s t) ∧
    ((s.trigs.get i).owner ≠ c.fn → Runs (exec (.triggerClear tag) s) fun t =>
      Ended s t tag .notOwner 0 0 ∧ OtherCmds s t tag ∧ t.trigs = s.trigs ∧ Only [.cmds, .regs, .out, .fns, .evRing, .evSent, .attn] s t)) ∧
  (∀ (s : State) (x : Due), s.batch = [] → s.dueNext = [x] →
    let r := s.trigs.get x.entry
    r.valid = true → r.fm = false → r.action = 6 → r.eachLayer = false →
    (s.admittedNow r.owner = true → (s.fn r.owner).resetState = 0 → (s.fn r.owner).domain = some r.domain → s.flag Fld.twbCtrlGo = false →
      Runs (exec (.triggerFire x.entry) s) fun t =>
        t.trigs.get x.entry = {} ∧ (∀ j, j ≠ x.entry → t.trigs.get j = s.trigs.get j) ∧ t.batch = [] ∧ t.dueNext = [] ∧
        (s.vectorOpen r.owner (r.arg % 64) = true → t.out = s.out ++ [.msix r.owner (r.arg % 64)]) ∧
        (s.vectorOpen r.owner (r.arg % 64) = false → bit (t.fn r.owner).pba (r.arg % 64) = true) ∧
        t.fld Fld.pourTrigStatFired = min (2 ^ Fld.pourTrigStatFired.width - 1) (s.fld Fld.pourTrigStatFired + 1) ∧
        Only [.trigs, .batch, .dueNext, .out, .fns, .regs] s t ∧ RegsBut [.pourTrigStat] s t) ∧
    (s.admittedNow r.owner = false → Runs (exec (.triggerFire x.entry) s) fun t =>
      t.trigs.get x.entry = {} ∧ t.batch = [] ∧ t.dueNext = [] ∧
      t.fld Fld.pourTrigStatSkipped = min (2 ^ Fld.pourTrigStatSkipped.width - 1) (s.fld Fld.pourTrigStatSkipped + 1) ∧
      Only [.trigs, .batch, .dueNext, .regs, .out, .fns, .evRing, .evSent, .attn] s t))

/-- The trace: a capture and a replay start, with GO clear and a SIZE, under their mode with the output hash, the record count and the position at zero; the end of a
replay's trace clears GO and sets DONE.
Rows under R30, R31. Where it rests on the model's own choice: log entries 15, 39. -/
def Obligations.TraceStartsAndEnds : Prop :=
  (∀ (s : State) (wrap : Bool), s.flag Fld.twbCtrlGo = false → s.fld Fld.twbSizeSize ≠ 0 →
    Runs (exec (.twbCaptureGo wrap) s) (fun t =>
      t.tracing 1 = true ∧ t.fld Fld.twbCtrlWrap = b2n wrap ∧ t.fld Fld.twbOutHashHash = 0 ∧ t.fld Fld.twbStatusRecords = 0 ∧ t.twbPos = 0 ∧
      Only [.regs, .twbPos] s t ∧ RegsBut [.twbCtrl, .twbOutHash, .twbStatus] s t) ∧
    Runs (exec (.twbReplayGo wrap) s) (fun t =>
      t.tracing 2 = true ∧ t.fld Fld.twbCtrlWrap = b2n wrap ∧ t.fld Fld.twbOutHashHash = 0 ∧ t.fld Fld.twbStatusRecords = 0 ∧ t.twbPos = 0 ∧
      Only [.regs, .twbPos] s t ∧ RegsBut [.twbCtrl, .twbOutHash, .twbStatus] s t)) ∧
  (∀ s : State, s.tracing 2 = true → Runs (exec .twbReplayDone s) fun t =>
    t.flag Fld.twbCtrlGo = false ∧ t.flag Fld.twbStatusDone = true ∧ Only [.regs] s t ∧ RegsBut [.twbCtrl, .twbStatus] s t)

/-! ### The DMA engines (spec/11) -/

/-- The registers of the DMA block that a change of a channel's state writes. -/
def Claims.chanRegs : List Reg := [.dmaChState, .dmaTenCh, .dmaEngState]

/-- A DSTART may go on: its handle names a channel of the caller whose engine is in service, its program lies in the pool, its fields are in range (R120, R121, R289). -/
def Claims.Start (s : State) (tag ch o : Nat) (c : Cmd) : Prop :=
  Served s tag 0x62 c ∧ Entry.specBits c.entry 50 0 2 = o ∧ c.stage ≠ .running ∧ s.chanOf c.fn (Entry.object c.entry) (s.fmCmd c) = .ok ch ∧
    startMode c.entry ≤ 1 ∧ startLoc c.entry = 1 ∧ s.unitIn 4 (engOf ch) = true ∧ Entry.spec c.entry 40 8 % 32 = 0

/-- Channels: DALLOC within the quota on an engine that has one free gives its lowest free channel to the caller, IDLE with its signals at zero, and answers the
handle; DFREE of one that no run uses frees it and moves its generation on; DSTART queues the channel's run and waits for it, ARM_ONLY leaves it ARMED, RESUME queues
a halted one again; DSTOP of an armed channel leaves it IDLE; and an idle engine takes its queued channel, whose fresh run begins at its first address. No other
channel's state changes.
Rows under R120, R285, R287, R288, R314, R321. Where it rests on the model's own choice: log entry 65. -/
def Obligations.ChannelsStartAndStop : Prop :=
  (∀ (s : State) (tag ch : Nat) (c : Cmd), Served s tag 0x60 c →
    let e := Entry.specBits c.entry 40 0 5
    e < 31 → c.fn < 256 → s.fmCmd c = false → (s.chansOf c.fn).length < s.dmaQuota c.fn → s.freeOn e = some ch → Runs (exec (.dalloc tag) s) fun t =>
      Ended s t tag .ok (ch + 256 * s.chGen ch) 0 ∧ OtherCmds s t tag ∧ 8 * e ≤ ch ∧ ch < 8 * e + 8 ∧ t.chState ch = 1 ∧ t.chOwner ch = c.fn ∧
      t.chFm ch = false ∧ (∀ n, n < 4 → t.signal (4 * ch + n) = 0) ∧ (∀ x, x ≠ ch → t.chState x = s.chState x ∧ t.chan x = s.chan x) ∧
      Only [.cmds, .chans, .regs] s t ∧ RegsBut (.dmaChSig :: Claims.chanRegs) s t) ∧
  (∀ (s : State) (tag ch : Nat) (c : Cmd), Served s tag 0x61 c → s.chanOf c.fn (Entry.object c.entry) (s.fmCmd c) = .ok ch → s.chState ch = 1 →
    Runs (exec (.dfree tag) s) fun t =>
      Ended s t tag .ok 0 0 ∧ OtherCmds s t tag ∧ t.chState ch = 0 ∧ t.chGen ch = (s.chGen ch + 1) % 256 ∧
      (∀ x, x ≠ ch → t.chState x = s.chState x ∧ t.chan x = s.chan x) ∧ Only [.cmds, .chans, .regs] s t ∧ RegsBut (.dmaChSig :: Claims.chanRegs) s t) ∧
  (∀ (s : State) (tag ch : Nat) (c : Cmd),
    (Claims.Start s tag ch 0 c → s.chState ch = 1 → Runs (exec (.dstart tag) s) fun t =>
      t.chState ch = 3 ∧ (t.cmd tag).stage = .running ∧ OtherCmds s t tag ∧ (t.chan ch).tag = some tag ∧ (t.chan ch).first = Entry.spec c.entry 40 8 ∧
      t.chFld Fld.dmaChStateMode ch = startMode c.entry ∧ t.chMoved ch = 0 ∧ (t.chan ch).resumed = false ∧
      (∀ x, x ≠ ch → t.chState x = s.chState x ∧ t.chan x = s.chan x) ∧ Only [.cmds, .chans, .nextRun, .regs] s t ∧
      RegsBut (.dmaChMoved :: .dmaChErr :: Claims.chanRegs) s t) ∧
    (Claims.Start s tag ch 1 c → s.chState ch = 1 → Runs (exec (.dstartArmOnly tag) s) fun t =>
      Ended s t tag .ok 0 0 ∧ OtherCmds s t tag ∧ t.chState ch = 2 ∧ (t.chan ch).first = Entry.spec c.entry 40 8 ∧ (t.chan ch).tag = none ∧
      (∀ x, x ≠ ch → t.chState x = s.chState x ∧ t.chan x = s.chan x) ∧ Only [.cmds, .chans, .regs] s t ∧
      RegsBut (.dmaChMoved :: .dmaChErr :: Claims.chanRegs) s t) ∧
    (Claims.Start s tag ch 2 c → s.chState ch = 6 → Runs (exec (.dstartResume tag) s) fun t =>
      t.chState ch = 3 ∧ (t.cmd tag).stage = .running ∧ OtherCmds s t tag ∧ (t.chan ch).tag = some tag ∧ (t.chan ch).resumed = true ∧
      t.chFld Fld.dmaChPcPc ch = s.chFld Fld.dmaChPcPc ch ∧ t.chMoved ch = 0 ∧ (∀ x, x ≠ ch → t.chState x = s.chState x ∧ t.chan x = s.chan x) ∧
      Only [.cmds, .chans, .nextRun, .regs] s t ∧ RegsBut (.dmaChMoved :: .dmaChErr :: Claims.chanRegs) s t)) ∧
  (∀ (s : State) (tag ch : Nat) (c : Cmd), Served s tag 0x63 c → c.stage ≠ .running → s.chanOf c.fn (Entry.object c.entry) (s.fmCmd c) = .ok ch →
    s.chState ch = 2 → (s.chan ch).tag = none → Runs (exec (.dstop tag) s) fun t =>
      Ended s t tag .ok 0 0 ∧ OtherCmds s t tag ∧ t.chState ch = 1 ∧ (∀ x, x ≠ ch → t.chState x = s.chState x ∧ t.chan x = s.chan x) ∧
      Only [.cmds, .chans, .regs] s t ∧ RegsBut Claims.chanRegs s t) ∧
  (∀ (s : State) (e ch : Nat), s.unitIn 4 e = true → s.engHolder e = none → engOf ch = e → s.chState ch = 3 →
    (∀ n, n < 8 → s.chState (8 * e + n) = 3 → 8 * e + n = ch) → (s.chan ch).resumed = false → Runs (exec (.channelDispatch e) s) fun t =>
      t.chState ch = 4 ∧ t.chFld Fld.dmaChPcPc ch = (s.chan ch).first % 2 ^ 64 ∧ t.chFld Fld.dmaChLoopI0 ch = 0 ∧ t.chFld Fld.dmaChLoopI1 ch = 0 ∧
      t.chFld Fld.dmaChLoopI2 ch = 0 ∧ (t.chan ch).word = none ∧ (∀ x, x ≠ ch → t.chState x = s.chState x ∧ t.chan x = s.chan x) ∧
      (∀ r, r < 8 → t.flag Fld.urnRegionValid (masterOf ch) r = false) ∧ Only [.chans, .regs] s t ∧
      RegsBut (.dmaChPc :: .dmaChLoop :: .urnRegion :: Claims.chanRegs) s t)

/-- Channel `ch` runs a program and the 16-byte instruction at its PC, in the word fetched last, is `n`, of opcode `op` and well formed. -/
def Claims.Insn (s : State) (ch op n : Nat) : Prop :=
  let pc := s.chFld Fld.dmaChPcPc ch
  s.chState ch = 4 ∧ s.chFld Fld.dmaChStateMode ch = 1 ∧ (s.chan ch).ended = false ∧ (s.chan ch).retryAt = none ∧
    (∃ w, (s.chan ch).word = some (pc / 64 * 64, w) ∧ leNat ((w.drop (pc % 64)).take 16) = n) ∧ insnOk n = true ∧ insn n 0 0 8 = op

/-- A transfer from host memory to host memory, in order, that the run begins now. -/
def Claims.HostCopy (s : State) (ch : Nat) (x : Xfer) : Prop :=
  x.ok = true ∧ x.ssp = 2 ∧ x.dsp = 2 ∧ x.shuf = 0 ∧ x.half = false ∧ x.full = false ∧ (s.fn (s.chWho ch)).busMaster = true ∧
    rangesMeet x.src.toNat x.len x.dst.toNat x.len = false ∧ (s.chan ch).todo = none ∧ (s.chan ch).moved = 0 ∧ (s.chan ch).charged = false

/-- The steps of a run: a transfer of a descriptor or of a MOVE puts the source's bytes at the destination, counts them in MOVED, and the PC moves on, to NEXT or by 16;
a slot is written; LOOP goes back while its counter is at most its bound and then clears it; SIGNAL adds to its channel's signal, up to 0xFFFF; END ends the program,
and its completion answers the command with MOVED and leaves the channel IDLE.
Rows under R296, R299, R300, R302, R303, R308. Where it rests on the model's own choice: log entry 65. -/
def Obligations.ProgramsRun : Prop :=
  (∀ (s : State) (ch n : Nat) (w : List Byte), let pc := s.chFld Fld.dmaChPcPc ch
    s.chState ch = 4 → s.chFld Fld.dmaChStateMode ch = 0 → (s.chan ch).ended = false → (s.chan ch).retryAt = none →
    (s.chan ch).word = some (pc / 64 * 64, w) → leNat ((w.drop (pc % 64)).take 32) = n → insn n 23 0 8 = 0 → insn n 24 0 64 % 32 = 0 →
    Claims.HostCopy s ch (descXfer n) → Runs (exec (.descriptor ch) s) fun t =>
      t.hostRead (s.chWho ch) (descXfer n).dst.toNat (descXfer n).len = s.hostRead (s.chWho ch) (descXfer n).src.toNat (descXfer n).len ∧
      t.chMoved ch = (s.chMoved ch + (descXfer n).len) % 2 ^ 64 ∧ (t.chan ch).todo = none ∧ t.chState ch = 4 ∧
      (insn n 20 7 1 = 1 → (t.chan ch).ended = true ∧ t.chFld Fld.dmaChPcPc ch = pc) ∧
      (insn n 20 7 1 = 0 → (t.chan ch).ended = false ∧ t.chFld Fld.dmaChPcPc ch = insn n 24 0 64) ∧
      Only [.chans, .hostMem, .pairs, .blendRuns, .regs] s t) ∧
  (∀ (s : State) (ch n : Nat), Claims.Insn s ch 1 n →
    (insn n 1 7 1 = 0 → Claims.HostCopy s ch (s.moveXfer ch n) → Runs (exec (.move ch) s) fun t =>
      t.hostRead (s.chWho ch) (s.moveXfer ch n).dst.toNat (s.moveXfer ch n).len = s.hostRead (s.chWho ch) (s.moveXfer ch n).src.toNat (s.moveXfer ch n).len ∧
      t.chMoved ch = (s.chMoved ch + (s.moveXfer ch n).len) % 2 ^ 64 ∧ t.chFld Fld.dmaChPcPc ch = (s.chFld Fld.dmaChPcPc ch + 16) % 2 ^ 64 ∧
      Only [.chans, .hostMem, .pairs, .blendRuns, .regs] s t) ∧
    (insn n 1 7 1 = 1 → insn n 2 0 4 < 8 → insn n 3 0 2 ≠ 0 → (s.chan ch).bases.length = 8 → (s.chan ch).spaces.length = 8 → Runs (exec (.move ch) s) fun t =>
      (t.chan ch).bases[insn n 2 0 4]? = some (insn n 8 0 64) ∧ (t.chan ch).spaces[insn n 2 0 4]? = some (insn n 3 0 2) ∧
      t.chFld Fld.dmaChPcPc ch = (s.chFld Fld.dmaChPcPc ch + 16) % 2 ^ 64 ∧ Only [.chans, .regs] s t ∧ RegsBut [.dmaChPc] s t)) ∧
  (∀ (s : State) (ch n : Nat), Claims.Insn s ch 2 n →
    let i := s.chFld (loopFld (insn n 1 0 2)) ch
    let back := 16 * insn n 4 0 12
    (s.chan ch).first + back ≤ s.chFld Fld.dmaChPcPc ch →
    (i + 1 ≤ insn n 2 0 16 → Runs (exec (.loop ch) s) fun t =>
      t.chFld (loopFld (insn n 1 0 2)) ch = i + 1 ∧ t.chFld Fld.dmaChPcPc ch = s.chFld Fld.dmaChPcPc ch - back ∧
      Only [.chans, .regs] s t ∧ RegsBut [.dmaChLoop, .dmaChPc] s t) ∧
    (insn n 2 0 16 < i + 1 → Runs (exec (.loop ch) s) fun t =>
      t.chFld (loopFld (insn n 1 0 2)) ch = 0 ∧ t.chFld Fld.dmaChPcPc ch = (s.chFld Fld.dmaChPcPc ch + 16) % 2 ^ 64 ∧
      Only [.chans, .regs] s t ∧ RegsBut [.dmaChLoop, .dmaChPc] s t)) ∧
  (∀ (s : State) (ch n : Nat), Claims.Insn s ch 4 n → insn n 1 0 2 = 0 →
    let g := insn n 2 0 10
    g / 4 = ch → Runs (exec (.signal ch) s) fun t =>
      t.signal g = min 0xFFFF (s.signal g + insn n 4 0 16) ∧ (∀ x, x ≠ g → t.signal x = s.signal x) ∧
      t.chFld Fld.dmaChPcPc ch = (s.chFld Fld.dmaChPcPc ch + 16) % 2 ^ 64 ∧ Only [.regs] s t ∧ RegsBut [.dmaChSig, .dmaChPc] s t) ∧
  (∀ (s : State) (ch n : Nat), Claims.Insn s ch 0 n → Runs (exec (.endInstr ch) s) fun t =>
    t.chan ch = { s.chan ch with ended := true } ∧ (∀ x, x ≠ ch → t.chan x = s.chan x) ∧ Only [.chans] s t) ∧
  (∀ (s : State) (ch tag : Nat), s.chState ch = 4 → (s.chan ch).ended = true → (s.chan ch).tag = some tag → (s.cmd tag).live = true → (s.cmd tag).stage ≠ .done →
    Runs (exec (.runComplete ch) s) fun t =>
      Ended s t tag .ok (s.chMoved ch % 2 ^ 40) 0 ∧ OtherCmds s t tag ∧ t.chState ch = 1 ∧ (∀ x, x ≠ ch → t.chState x = s.chState x ∧ t.chan x = s.chan x) ∧
      Only [.cmds, .chans, .regs] s t ∧ RegsBut Claims.chanRegs s t)

/-- Waits: a WAIT on another channel's signal passes at once where the count has reached its threshold, and CONSUME takes the threshold off; else the run waits, unless
it waits on its own signal, which stops it with WAIT_CYCLE; a waiting run goes on as its flag compares or its position is reached; at its limit the run stops with
WAIT_LIMIT and its command ends ABORTED with that fault as Result 1; and a retry timer that expires counts the retry.
Rows under R301, R313, R319. Where it rests on the model's own choice: log entry 66. -/
def Obligations.WaitsEnd : Prop :=
  (∀ (s : State) (ch n : Nat), Claims.Insn s ch 3 n → insn n 1 0 2 = 0 →
    let g := insn n 2 0 10
    let v := insn n 4 0 16
    s.sameOwner ch (g / 4) = true →
    (v ≤ s.signal g → Runs (exec (.wait ch) s) fun t =>
      t.chState ch = 4 ∧ t.chFld Fld.dmaChPcPc ch = (s.chFld Fld.dmaChPcPc ch + 16) % 2 ^ 64 ∧
      t.signal g = (if insn n 1 2 1 = 1 then s.signal g - v else s.signal g) ∧ (∀ x, x ≠ g → t.signal x = s.signal x) ∧
      Only [.chans, .regs] s t ∧ RegsBut (.dmaChSig :: .dmaChPc :: Claims.chanRegs) s t) ∧
    (s.signal g < v → g / 4 ≠ ch → s.chState (g / 4) ≠ 3 → Runs (exec (.wait ch) s) fun t =>
      t.chState ch = 5 ∧ (t.chan ch).waiting.isSome = true ∧ t.chFld Fld.dmaChPcPc ch = s.chFld Fld.dmaChPcPc ch ∧
      (∀ x, t.signal x = s.signal x) ∧ Only [.chans, .regs] s t ∧ RegsBut Claims.chanRegs s t) ∧
    (s.signal g < v → g / 4 = ch → (s.chan ch).sub = none → (s.chan ch).tag = none → Runs (exec (.wait ch) s) fun t =>
      t.chState ch = 1 ∧ t.chFld Fld.dmaChErrFault ch = 2 ∧ t.cmds = s.cmds ∧
      t.fld Fld.dmaEngStatWaitCycle (engOf ch) = min (2 ^ Fld.dmaEngStatWaitCycle.width - 1) (s.fld Fld.dmaEngStatWaitCycle (engOf ch) + 1))) ∧
  (∀ (s s' : State) (ch n : Nat) (b : List Byte), s.waitInsn ch = some n → insn n 1 0 2 = 2 → s.urnGet ch (insn n 8 0 30) 4 = (s', .ok b) →
    flagHolds (insn n 1 3 2) (leNat b) (insn n 4 0 32) = true → Runs (exec (.waitFlagPoll ch) s) fun t =>
      t.chState ch = 4 ∧ (t.chan ch).waiting = none ∧ t.chFld Fld.dmaChPcPc ch = (s.chFld Fld.dmaChPcPc ch + 16) % 2 ^ 64 ∧ t.urn = s.urn ∧ t.cmds = s.cmds) ∧
  (∀ (s : State) (ch n d : Nat), s.waitInsn ch = some n → insn n 1 0 2 = 1 → s.chDomain ch = some d → (s.dom d).state = .live → insn n 8 0 48 ≤ (s.dom d).pos →
    Runs (exec (.waitSatisfied ch) s) fun t =>
      t.chState ch = 4 ∧ (t.chan ch).waiting = none ∧ t.chFld Fld.dmaChPcPc ch = (s.chFld Fld.dmaChPcPc ch + 16) % 2 ^ 64 ∧
      Only [.chans, .regs] s t ∧ RegsBut (.dmaChPc :: Claims.chanRegs) s t) ∧
  (∀ (s : State) (ch tag : Nat) (w : DmaWait), (s.chan ch).waiting = some w → s.chState ch = 5 → s.waitOver ch w = true → (s.chan ch).sub = none →
    (s.chan ch).tag = some tag → (s.cmd tag).live = true → (s.cmd tag).stage ≠ .done → Runs (exec (.waitLimitExpiry ch) s) fun t =>
      Ended s t tag .aborted (s.chMoved ch % 2 ^ 40) 3 ∧ OtherCmds s t tag ∧ t.chState ch = 1 ∧ t.chFld Fld.dmaChErrFault ch = 3 ∧
      Only [.cmds, .chans, .regs] s t ∧ RegsBut (.dmaEngStat :: .dmaChErr :: .dmaChMoved :: Claims.chanRegs) s t) ∧
  (∀ (s : State) (ch at' : Nat), (s.chan ch).retryAt = some at' → s.chState ch = 4 → at' ≤ s.us → Runs (exec (.dmaRetryTimer ch) s) fun t =>
    t.chan ch = { s.chan ch with retryAt := none } ∧ t.chFld Fld.dmaChErrRetries ch = (s.chFld Fld.dmaChErrRetries ch + 1) % 16 ∧
    (∀ x, x ≠ ch → t.chan x = s.chan x) ∧ Only [.chans, .regs] s t ∧ RegsBut [.dmaChErr] s t)

/-! ### DRAM (spec/12) and blends (spec/13) -/

/-- What an event log entry can change beside the log: the log's registers, an interrupt, and the attention line. -/
def Claims.logParts : List Field := [.regs, .out, .fns, .evRing, .evSent, .attn]

/-- DRAM: an interval adds four quarters to a rank's debt, and where the debt reaches the forcing threshold an all-bank refresh takes four off, is counted and closes the
rank's banks; an idle rank whose debt is above 0 refreshes, another does not; a row idle for too long is closed; HOT follows the DIMMs' report; the scrub counts a corrected
burst, and latches and counts an uncorrectable one; a channel that fails takes the device OUT; a hash register takes a value that R333 allows, and no other; and
initialisation only moves on, and is done at the capacity.
Rows under R333, R335, R336, R337, R338, R346, R347, R352. Where it rests on the model's own choice: log entries 7, 67, 68. -/
def Obligations.DramKeepsItself : Prop :=
  (∀ (s : State) (c r : Nat), s.dramAwake c = true → s.hasRank c r = true →
    let thr : Int := 4 * (max 1 (min 4 (s.fld Fld.drcRefSoft c)) : Nat)
    (s.flag Fld.drcRefMode c = false → s.flag Fld.drcRtStatPanic c = false → s.flag Fld.drcRefWindow c = false →
      (s.debt c r + 4 < thr → -128 ≤ s.debt c r → Runs (exec (.trefiElapse c r) s) fun t =>
        t.debt c r = s.debt c r + 4 ∧ (∀ x, x < 16 → x ≠ r → t.debt c x = s.debt c x) ∧ Only [.regs] s t ∧
        RegsBut [.drcRefPostpone, .drcRefDebt, .drcRefDebtHi] s t) ∧
      (thr ≤ s.debt c r + 4 → s.debt c r < thr → Runs (exec (.trefiElapse c r) s) fun t =>
        t.debt c r = s.debt c r ∧ t.fld Fld.drcRefStatRefab c = (s.fld Fld.drcRefStatRefab c + 1) % 2 ^ Fld.drcRefStatRefab.width ∧
        (∀ b, b < 32 → (t.banks.get (bankKey c r b)).opened = false) ∧ Only [.banks, .regs] s t ∧
        RegsBut [.drcRefPostpone, .drcRefDebt, .drcRefDebtHi, .drcRefStat] s t)) ∧
    (s.debt c r ≤ 0 → 0 < s.refLimit c → exec (.opportunisticRefresh c r) s = .next s) ∧
    (0 < s.debt c r → s.debt c r < 4 * (s.refThreshold c : Int) → s.refLimit c = 4 → Runs (exec (.opportunisticRefresh c r) s) fun t =>
      t.debt c r = s.debt c r - 4 ∧ (∀ b, b < 32 → (t.banks.get (bankKey c r b)).opened = false) ∧
      t.fld Fld.drcRefStatRefab c = (s.fld Fld.drcRefStatRefab c + 1) % 2 ^ Fld.drcRefStatRefab.width ∧ Only [.banks, .regs] s t ∧
      RegsBut [.drcRefDebt, .drcRefDebtHi, .drcRefStat] s t)) ∧
  (∀ (s : State) (c bank : Nat), bank < 512 → Runs (exec (.rowIdleClose c bank) s) fun t =>
    t.banks.get (c * 512 + bank) = { s.banks.get (c * 512 + bank) with opened := false } ∧
    (∀ k, k ≠ c * 512 + bank → t.banks.get k = s.banks.get k) ∧ Only [.banks] s t) ∧
  (∀ (s : State) (c : Nat), c < 16 →
    Runs (exec (.thermalHot c) s) (fun t => t.flag Fld.drcRefHot c = true ∧ (∀ d, d ≠ c → t.rd .drcRef d 0 = s.rd .drcRef d 0) ∧ Only [.regs] s t ∧ RegsBut [.drcRef] s t) ∧
    Runs (exec (.thermalHotEnd c) s) (fun t =>
      t.flag Fld.drcRefHot c = false ∧ (∀ d, d ≠ c → t.rd .drcRef d 0 = s.rd .drcRef d 0) ∧ Only [.regs] s t ∧ RegsBut [.drcRef] s t)) ∧
  (∀ (s : State) (c addr errs : Nat), let a := addr / 64 * 64
    s.dramAwake c = true → (s.burstAt a).chan = c → s.initialised a = true → a < 2 ^ s.capBits →
    (1 ≤ errs → errs ≤ 10 → Runs (exec (.dramPatrolScrub c addr errs) s) fun t =>
      t.fld Fld.drcEccCorrected c = min (2 ^ Fld.drcEccCorrected.width - 1) (s.fld Fld.drcEccCorrected c + 1) ∧
      Only (.banks :: .eccCount :: .pairs :: .blendRuns :: Claims.logParts) s t) ∧
    (11 ≤ errs → Runs (exec (.dramPatrolScrub c addr errs) s) fun t =>
      t.fld Fld.drcEccUncorr c = min (2 ^ Fld.drcEccUncorr.width - 1) (s.fld Fld.drcEccUncorr c + 1) ∧ t.flag Fld.drcEccAddrValid c = true ∧
      (s.flag Fld.drcEccAddrValid c = false → t.fld Fld.drcEccAddrAddr c = a / 64 % 2 ^ Fld.drcEccAddrAddr.width) ∧ t.hostMem = s.hostMem)) ∧
  (∀ (s : State) (c : Nat), c < 16 → s.unitState 0 c ≠ 0 → s.unitState 6 0 ≠ 0 → (s.svc.get (unitKey 0 c)).waiting = none →
    Runs (exec (.dramChannelLost c) s) fun t => t.unitState 0 c = 0 ∧ t.unitState 6 0 = 0) ∧
  (∀ (s : State) (i value : Nat), i < 5 →
    (s.hashOk value = true → Runs (exec (.drcHashNextWrite i value) s) fun t =>
      t.fld Fld.drcHashNextSel0Sel7 i = value % 2 ^ Fld.drcHashNextSel0Sel7.width ∧ (∀ j, j ≠ i → t.rd .drcHashNext j 0 = s.rd .drcHashNext j 0) ∧
      Only [.regs, .urn, .twbPos] s t ∧ RegsBut [.drcHashNext, .twbStatus, .twbCtrl] s t) ∧
    (s.hashOk value = false → Runs (exec (.drcHashNextWrite i value) s) fun t =>
      (∀ j, t.rd .drcHashNext j 0 = s.rd .drcHashNext j 0) ∧ Only (.urn :: .twbPos :: Claims.logParts) s t)) ∧
  (∀ (s : State) (gib : Nat), 0 < s.dramGib → s.dramGib < 2 ^ 14 → s.fld Fld.drcInitDoneGib ≤ s.dramGib → s.flag Fld.drcInitDone = false →
    Runs (exec (.dramInitDone gib) s) fun t =>
      t.fld Fld.drcInitDoneGib = max (s.fld Fld.drcInitDoneGib) (min gib s.dramGib) ∧
      (t.flag Fld.drcInitDone = true ↔ s.dramGib ≤ max (s.fld Fld.drcInitDoneGib) (min gib s.dramGib)) ∧ Only [.regs] s t ∧ RegsBut [.drcInit] s t)

/-- Blends: a µs adds each pair's share to its credits, up to their caps, and one µs to the window; the window's end latches what each blend charged and completed and
starts the next; a commit puts the staged guarantee and limits into its entry and into no other, a staged guarantee above its limit is ignored and logged; a write of
BLD_ACTIVE selects the sets; and a DECAF work order that has waited AGE cycles competes as STANDARD.
Rows under R357, R358, R359, R362, R365. Where it rests on the model's own choice: log entries 4, 28. -/
def Obligations.BlendsAccountForWork : Prop :=
  (∀ s : State,
    (s.flag Fld.glbClkLock = false → Runs (exec .blendUsTick s) fun t => t.us = s.us + 1 ∧ Only [.us] s t) ∧
    (s.flag Fld.glbClkLock = true → Runs (exec .blendUsTick s) fun t =>
      t.us = s.us + 1 ∧ t.winUs = s.winUs + 1 ∧ t.fld Fld.glbCycleCycle = (s.fld Fld.glbCycleCycle + s.cyclesPerMs / 1000) % 2 ^ Fld.glbCycleCycle.width ∧
      (∀ a b, b < 64 → (∃ e ∈ s.pairs, e.1 = pairKey a b) →
        (t.pair a b).cg = min ((s.pair a b).cg + (s.shareG b : Int)) (s.creditCap (s.shareG b)) ∧
        (∀ l, s.shareL a b = some l → (t.pair a b).cl = min ((s.pair a b).cl + (l : Int)) (s.creditCap l)) ∧
        (t.pair a b).bytes = (s.pair a b).bytes) ∧
      Only [.us, .winUs, .pairs, .blendRuns, .regs] s t ∧ RegsBut [.glbCycle] s t)) ∧
  (∀ (s : State) (utils backlog : List Nat), s.winLen ≤ s.winUs → Runs (exec (.blendWindowEnd utils backlog 0) s) fun t =>
    t.winUs = 0 ∧ t.winLen = max 100 (min 100000 (s.fld Fld.bldCtrlWindowUs)) ∧ t.blendRuns = [] ∧ t.loads = utils.map (min 255) ∧
    (∀ b, b < 64 → t.fld Fld.bldWinBytesBytes b = (s.blendRuns.get b).bytes % 2 ^ Fld.bldWinBytesBytes.width ∧
      t.fld Fld.bldWinReqsReplies b = (s.blendRuns.get b).replies % 2 ^ Fld.bldWinReqsReplies.width ∧
      t.fld Fld.bldWinDoneBytes b = (s.blendRuns.get b).done % 2 ^ Fld.bldWinDoneBytes.width) ∧
    Only (.loads :: .attPairs :: .pairs :: .blendRuns :: .winUs :: .winLen :: Claims.logParts) s t) ∧
  (∀ (s : State) (b : Nat), b < 64 →
    (s.stagedOk = true → Runs (exec (.bldCommit b) s) fun t =>
      t.fld Fld.bldGuar0Mbps b = s.fld Fld.bldStageGuar0Mbps ∧ t.fld Fld.bldLimit0Mbps b = s.fld Fld.bldStageLimit0Mbps ∧
      t.fld Fld.bldGuar1Mbps b = s.fld Fld.bldStageGuar1Mbps ∧ t.fld Fld.bldLimit1Mbps b = s.fld Fld.bldStageLimit1Mbps ∧
      t.fld Fld.bldCfgPolicy b = s.fld Fld.bldStageCfgPolicy ∧ bit (t.fld Fld.bldCheckFailFail) b = false ∧
      (∀ x, x ≠ b → t.fld Fld.bldGuar0Mbps x = s.fld Fld.bldGuar0Mbps x ∧ t.fld Fld.bldLimit0Mbps x = s.fld Fld.bldLimit0Mbps x ∧
        t.fld Fld.bldGuar1Mbps x = s.fld Fld.bldGuar1Mbps x ∧ t.fld Fld.bldLimit1Mbps x = s.fld Fld.bldLimit1Mbps x) ∧ t.hostMem = s.hostMem) ∧
    (s.fld Fld.bldStageLimit0Mbps < s.fld Fld.bldStageGuar0Mbps → Runs (exec (.bldCommit b) s) fun t =>
      (∀ x, t.guarOf x = s.guarOf x ∧ t.limitOf x = s.limitOf x) ∧ t.pairs = s.pairs ∧ Only (.urn :: .twbPos :: Claims.logParts) s t)) ∧
  (∀ (s : State) (value : Nat), Runs (exec (.bldActiveWrite value) s) fun t =>
    t.fld Fld.bldActiveSet = value % 2 ^ 64 ∧ Only [.regs, .urn, .twbPos, .pairs] s t ∧ RegsBut [.bldActive, .twbStatus, .twbCtrl] s t) ∧
  (∀ (s : State) (k v : Nat) (w : TxFlit), k < 64 → v < 4 → s.linkUsable k = false → (s.link k).waiting = [w] → w.typ ≠ 3 → w.vc = v → w.tier = 2 →
    Runs (exec (.decafAge (145 + 4 * k + v) 0) s) fun t =>
      (t.link k).waiting = [{ w with tier := 1 }] ∧ (∀ j, j ≠ k → t.link j = s.link j) ∧ Only [.links] s t)

/-! ### Tenants (spec/14) and units in service (spec/19) -/

/-- A command of the privileged queue that this device serves itself (R71, R123). -/
def Claims.Priv (s : State) (tag op : Nat) (c : Cmd) : Prop := Served s tag op c ∧ Entry.qspec c.entry = 0 ∧ s.seam 0 = false

/-- Admission: ADMIT of a function that is not admitted and UPDATE of one that is end OK with fields in range, else BAD_FIELD; EXPEL clears the record at once and ends when
no earlier command of the function is left; each is TENANT_RESET while its target is under reset. KEY_LOAD of a wrapped pair that unwraps fills its empty slot for the
function named, and one that does not is BAD_FORMAT; ERASE of a slot under which nothing is stored empties it.
Rows under R123, R180, R381, R382. Where it rests on the model's own choice: log entry 50. -/
def Obligations.AdmissionAndKeys : Prop :=
  (∀ (s : State) (tag : Nat) (c : Cmd), Claims.Priv s tag 0x81 c →
    let f := Entry.spec c.entry 42 1
    let ok := s.admitFields c.entry
    ((s.fn f).resetState ≠ 0 →
      (Entry.spec c.entry 40 1 = 0 → Runs (exec (.admitFunction tag) s) fun t => Ended s t tag .tenantReset 0 0 ∧ OtherCmds s t tag ∧ Only [.cmds] s t) ∧
      (Entry.spec c.entry 40 1 = 2 → Runs (exec (.update tag) s) fun t => Ended s t tag .tenantReset 0 0 ∧ OtherCmds s t tag ∧ Only [.cmds] s t)) ∧
    ((s.fn f).resetState = 0 →
      (Entry.spec c.entry 40 1 = 0 → Runs (exec (.admitFunction tag) s) fun t =>
        Ended s t tag (if s.admittedNow f = false ∧ ok = true then .ok else .badField) 0 0 ∧ OtherCmds s t tag ∧ Only [.cmds] s t) ∧
      (Entry.spec c.entry 40 1 = 2 → Runs (exec (.update tag) s) fun t =>
        Ended s t tag (if s.admittedNow f = true ∧ ok = true then .ok else .badField) 0 0 ∧ OtherCmds s t tag ∧ Only [.cmds] s t) ∧
      (Entry.spec c.entry 40 1 = 1 → s.admittedNow f = true → Runs (exec (.expel tag) s) fun t =>
        (t.fn f).admitted = false ∧ (t.fn f).domain = none ∧ (∀ g, g ≠ f → t.fn g = s.fn g) ∧ OtherCmds s t tag ∧ Only [.cmds, .fns] s t ∧
        (s.expelWaits c f = false → Ended s t tag .ok 0 0) ∧ (s.expelWaits c f = true → (t.cmd tag).stage = .running)))) ∧
  (∀ (s : State) (tag : Nat) (c : Cmd), Claims.Priv s tag 0x82 c → c.origin = none → (Entry.specBits c.entry 45 0 1 = 1 ∨ (s.fn (Entry.spec c.entry 44 1)).resetState = 0) →
    let slot := Entry.specBits c.entry 40 0 10
    (Entry.spec c.entry 42 1 = 0 → Entry.length c.entry = 72 → (s.keys.get slot).loaded = false →
      Runs (exec (.keyLoad tag) s) fun t =>
        OtherCmds s t tag ∧ (∀ x, x ≠ slot → t.keys.get x = s.keys.get x) ∧
        (∀ k, keyUnwrap Config.deviceKek (s.hostRead c.fn (Entry.hostBuf c.entry) 72) = some k →
          Ended s t tag .ok 0 0 ∧
          t.keys.get slot = { loaded := true, key1 := natsLe (k.take 32), key2 := natsLe (k.drop 32), owner := Entry.spec c.entry 44 1,
                              fm := decide (Entry.specBits c.entry 45 0 1 = 1) } ∧
          bit (t.rd .grdKeys (slot / 64) 0) (slot % 64) = true) ∧
        (keyUnwrap Config.deviceKek (s.hostRead c.fn (Entry.hostBuf c.entry) 72) = none → Ended s t tag .badFormat 0 0 ∧ t.keys = s.keys) ∧
        Only [.cmds, .keys, .regs, .urn, .twbPos] s t ∧ RegsBut [.grdKeys, .twbStatus, .twbCtrl] s t) ∧
    (Entry.spec c.entry 42 1 = 1 → Entry.length c.entry = 0 → (s.keys.get slot).loaded = true →
      (s.keyUsed slot = false → Runs (exec (.keyErase tag) s) fun t =>
        Ended s t tag .ok 0 0 ∧ OtherCmds s t tag ∧ t.keys.get slot = {} ∧ (∀ x, x ≠ slot → t.keys.get x = s.keys.get x) ∧
        bit (t.rd .grdKeys (slot / 64) 0) (slot % 64) = false ∧ Only [.cmds, .keys, .regs] s t ∧ RegsBut [.grdKeys] s t) ∧
      (s.keyUsed slot = true → Runs (exec (.keyErase tag) s) fun t => Ended s t tag .badField 0 0 ∧ OtherCmds s t tag ∧ Only [.cmds] s t)))

/-- Function resets: the reset of a function with no work elsewhere runs through at once: epoch one on, out of reset, no queue, no interrupt, not ready, counted as FLR;
a port reset does the same to the PF, and PERST_RELEASE shows its link up again; a reset that waits for cancels goes on without them 50 ms after its start; VF Enable
brings NumVFs functions of the PF into being, and, cleared, takes idle ones away; NumVFs changes only while it is clear; and a new TEN_FM takes effect at once while the
privileged queue is idle, or as it falls idle.
Rows under R374, R379, R385, R391, R565. Where it rests on the model's own choice: log entries 51, 52, 53, 89. -/
def Obligations.FunctionsResetAndMove : Prop :=
  (∀ (s : State) (f : Nat), s.hostMay f = true →
    ((s.fn f).vf ≠ 0 ∧ (s.fn (s.pfOf f)).resetState = 0 ∧ s.pfOf f ≠ f ∨ (s.fn f).vf = 0 ∧ s.pfOf f = f ∧ s.vfsOf f = []) → s.isPriv f = false → (s.fn f).removed = false →
    (∀ e ∈ s.cmds, e.2.fn ≠ f ∨ e.2.live = false) → s.chansOf f = [] → (∀ e ∈ s.bufs, e.2.owner ≠ f ∨ e.2.named = false) → Runs (exec (.flr f) s) fun t =>
      (t.fn f).resetState = 0 ∧ (t.fn f).epoch = ((s.fn f).epoch + 1) % 256 ∧ (t.fn f).ready = false ∧ (t.fn f).msixEnable = false ∧ (t.fn f).busMaster = false ∧
      t.sqsOf f = [] ∧ t.cqsOf f = [] ∧ t.fld Fld.tenFnStatFlr f = min (2 ^ Fld.tenFnStatFlr.width - 1) (s.fld Fld.tenFnStatFlr f + 1) ∧
      (∀ q, (s.sqs.get q).owner ≠ f → t.sqs.get q = s.sqs.get q) ∧ t.hostMem = s.hostMem ∧ t.extents = s.extents) ∧
  (∀ (s : State) (f : Nat), (s.fn f).resetState ≠ 0 → (s.fn f).cancels ≠ 0 → (s.fn f).resetStart + 50000 ≤ s.us → (s.fn f).vf ≠ 0 → s.pfOf f ≠ f →
    (s.fn (s.pfOf f)).resetState = 0 → Runs (exec (.flrCancelTimeout f) s) fun t =>
      (t.fn f).resetState = 0 ∧ (t.fn f).cancels = 0 ∧ t.sqsOf f = [] ∧ t.hostMem = s.hostMem) ∧
  (∀ (s : State) (att pf : Nat), s.pfAt att = some pf → (s.fn pf).present = true → (s.fn pf).resetState = 0 → (s.fn pf).vf = 0 → s.vfsOf pf = [] →
    s.isPriv pf = false → (∀ e ∈ s.cmds, e.2.fn ≠ pf ∨ e.2.live = false) → s.chansOf pf = [] → (∀ e ∈ s.bufs, e.2.owner ≠ pf ∨ e.2.named = false) →
    Runs (exec (.portReset att) s) (fun t =>
      (t.fn pf).resetState = 0 ∧ (t.fn pf).epoch = ((s.fn pf).epoch + 1) % 256 ∧ (t.fn pf).numVfs = 0 ∧ (t.fn pf).vfEnable = false ∧ t.sqsOf pf = [] ∧
      t.fld Fld.tenFnStatPerst pf = min (2 ^ Fld.tenFnStatPerst.width - 1) (s.fld Fld.tenFnStatPerst pf + 1) ∧
      bit (t.rd .tenPort (att / 4) 0) (4 + att % 4) = false ∧ bit (t.rd .tenPort (att / 4) 0) (8 + att % 4) = true) ∧
    Runs (exec (.perstRelease att) s) (fun t =>
      bit (t.rd .tenPort (att / 4) 0) (4 + att % 4) = true ∧ bit (t.rd .tenPort (att / 4) 0) (8 + att % 4) = false ∧ Only [.regs] s t ∧ RegsBut [.tenPort] s t)) ∧
  (∀ (s : State) (pf n : Nat), s.hostMay pf = true → s.isPf pf = true → (s.fn pf).vfEnable = false →
    (n ≤ s.totalVfs (pf / 64) → Runs (exec (.numvfsWrite pf n) s) fun t =>
      t.fn pf = { s.fn pf with numVfs := n } ∧ (∀ g, g ≠ pf → t.fn g = s.fn g) ∧ Only [.fns, .regs, .urn, .twbPos] s t ∧ RegsBut [.twbStatus, .twbCtrl] s t) ∧
    (s.totalVfs (pf / 64) < n → Runs (exec (.numvfsWrite pf n) s) fun t => t.fns = s.fns) ∧
    Runs (exec (.vfEnableSet pf) s) (fun t =>
      (t.fn pf).vfEnable = true ∧ (∀ i, i < (s.fn pf).numVfs → (t.fn (pf + 1 + i)).present = true ∧ (t.fn (pf + 1 + i)).vf = i + 1) ∧
      (∀ g, g < pf ∨ pf + (s.fn pf).numVfs < g → t.fn g = s.fn g) ∧ Only [.fns, .regs, .urn, .twbPos] s t ∧ RegsBut [.twbStatus, .twbCtrl] s t)) ∧
  (∀ (s : State) (pf : Nat), s.hostMay pf = true → s.isPf pf = true → (s.fn pf).vfEnable = true → s.vfsOf pf = [] → Runs (exec (.vfEnableClear pf) s) fun t =>
    t.fn pf = { s.fn pf with vfEnable := false } ∧ (∀ g, g ≠ pf → t.fn g = s.fn g) ∧ Only [.fns, .regs, .urn, .twbPos] s t ∧ RegsBut [.twbStatus, .twbCtrl] s t) ∧
  (∀ (s : State) (src value : Nat), src = 1 ∨ src = 2 ∨ src = 0 ∧ s.privFn ≠ none → value < 2 ^ 64 →
    (s.privIdle = true → Runs (exec (.tenFmWrite src value) s) fun t =>
      t.fld Fld.tenFmDevid = bits value Fld.tenFmDevid.lo Fld.tenFmDevid.width ∧ t.fld Fld.tenFmFunc = bits value Fld.tenFmFunc.lo Fld.tenFmFunc.width ∧
      t.fmNext = none ∧ (t.flag Fld.tenFmLocal = true ↔ t.flag Fld.tenFmValid = true ∧ t.fld Fld.tenFmDevid = t.dev ∧ t.isPf (t.fld Fld.tenFmFunc) = true) ∧
      Only (.fmNext :: .sqs :: .urn :: .twbPos :: Claims.logParts) s t) ∧
    (s.privIdle = false → Runs (exec (.tenFmWrite src value) s) fun t =>
      t.fmNext = some value ∧ Only [.fmNext, .regs, .urn, .twbPos] s t ∧ RegsBut [.twbStatus, .twbCtrl] s t)) ∧
  (∀ (s : State) (value : Nat), s.fmNext = some value → s.privIdle = true → Runs (exec .tenFmHandover s) fun t =>
    t.fld Fld.tenFmDevid = bits value Fld.tenFmDevid.lo Fld.tenFmDevid.width ∧ t.fmNext = none ∧ Only (.fmNext :: .sqs :: Claims.logParts) s t)

/-- UNIT_SERVICE of a Press or a Grinder: from OUT to QUARANTINE with its self-test ahead, from there to WARM once that has passed, or MEDIA_ERROR with the test's code, then
to SERVING, and from any state to OUT; each answers the state before it; a step from another state is BAD_FIELD. A self-test that ends answers the step that waits for it.
Only that unit's state changes.
Rows under R527. Where it rests on the model's own choice: log entry 85. -/
def Obligations.UnitsStepThroughService : Prop :=
  (∀ (s : State) (tag : Nat) (c : Cmd), Served s tag 0x85 c → Entry.qspec c.entry = 0 → s.seam 3 = false → c.stage ≠ .running →
    let cls := Entry.spec c.entry 40 1
    let i := Entry.spec c.entry 41 2
    let want := Entry.spec c.entry 43 1
    let u := s.svc.get (unitKey cls i)
    let parts : List Field := .cmds :: .svc :: Claims.logParts
    (cls = 1 ∧ i < 64 ∨ cls = 2 ∧ i < 128) → u.waiting = none →
    (want = 0 → Runs (exec (.unitServiceOut tag) s) fun t =>
      Ended s t tag .ok u.state 0 ∧ OtherCmds s t tag ∧ t.unitState cls i = 0 ∧ (∀ k, k ≠ unitKey cls i → t.svc.get k = s.svc.get k) ∧ Only parts s t) ∧
    (want = 1 → u.state = 0 → Runs (exec (.unitServiceQuarantine tag) s) fun t =>
      Ended s t tag .ok 0 0 ∧ OtherCmds s t tag ∧ t.unitState cls i = 1 ∧ (t.svc.get (unitKey cls i)).test = none ∧
      (∀ k, k ≠ unitKey cls i → t.svc.get k = s.svc.get k) ∧ Only parts s t) ∧
    (want = 1 → u.state ≠ 0 → Runs (exec (.unitServiceQuarantine tag) s) fun t => Ended s t tag .badField 0 0 ∧ OtherCmds s t tag ∧ Only [.cmds] s t) ∧
    (want = 2 → u.state = 1 → Runs (exec (.unitServiceWarm tag) s) fun t =>
      OtherCmds s t tag ∧ (∀ k, k ≠ unitKey cls i → t.svc.get k = s.svc.get k) ∧ Only parts s t ∧
      (u.test = some 0 → Ended s t tag .ok 1 0 ∧ t.unitState cls i = 2) ∧
      (∀ code, u.test = some code → code ≠ 0 → Ended s t tag .mediaError 0 code ∧ t.unitState cls i = 1) ∧
      (u.test = none → (t.cmd tag).stage = .running ∧ (t.svc.get (unitKey cls i)).waiting = some tag ∧ t.unitState cls i = 1)) ∧
    (want = 3 → u.state = 2 → Runs (exec (.unitServiceServing tag) s) fun t =>
      Ended s t tag .ok 2 0 ∧ OtherCmds s t tag ∧ t.unitState cls i = 3 ∧ (∀ k, k ≠ unitKey cls i → t.svc.get k = s.svc.get k) ∧ Only parts s t)) ∧
  (∀ (s : State) (cls i code tag : Nat), cls = 1 ∨ cls = 2 → (s.svc.get (unitKey cls i)).state = 1 → code < 2 ^ 16 →
    ((s.svc.get (unitKey cls i)).waiting = none → Runs (exec (.selfTestDone cls i code) s) fun t =>
      t.svc.get (unitKey cls i) = { s.svc.get (unitKey cls i) with test := some code } ∧ Only [.svc] s t) ∧
    ((s.svc.get (unitKey cls i)).waiting = some tag → (s.cmd tag).live = true → code ≠ 0 → Runs (exec (.selfTestDone cls i code) s) fun t =>
      Ended s t tag .mediaError 0 code ∧ OtherCmds s t tag ∧ t.unitState cls i = 1 ∧ Only [.svc, .cmds] s t))

/-! ### Links (spec/15) -/

/-- What a change of a link's state can change: the links, what goes out, their registers, and the device's own link-state notice. -/
def Claims.linkParts : List Field := [.links, .out, .regs, .lsSeq, .lsSent]

/-- Flits: on an ACTIVE link a flit whose CRC and header are right and whose sequence number is the one expected is accepted, its 240 bytes joining its virtual channel's
buffer; one whose CRC is wrong is counted, and a replay is asked for; when the replay timer runs out everything outstanding is sent again, up to the retry limit, and
beyond it the link retrains. A self-test message is consumed. LINK_LOST is kept until this end has lost the link too, or ends the exchange, as does 1 ms without it.
Rows under R402, R403, R421, R422. Where it rests on the model's own choice: log entries 55, 57, 94. -/
def Obligations.LinksCarryFlits : Prop :=
  (∀ (s : State) (k corrected : Nat) (data p : List Byte) (h : FlitHead), k < 64 → s.tstate k = 5 → data = flitBytes h p → p.length = 240 →
    flitHeadOk h.word = true → h.seq = (s.link k).expected → (s.link k).expected < 4096 → Runs (exec (.flitReceive k data corrected false) s) fun t =>
      (h.typ = 3 → (t.link k).expected = ((s.link k).expected + 1) % 4096 ∧ (t.link k).rx = .ok ∧ (t.link k).rx0 = (s.link k).rx0) ∧
      (h.typ = 1 → h.vc = 0 → ((s.link k).rx0 ++ p).getD 4 0 ≠ 0 →
        (t.link k).expected = ((s.link k).expected + 1) % 4096 ∧ (t.link k).rx = .ok ∧ (t.link k).rx0 = (s.link k).rx0 ++ p) ∧
      t.cmds = s.cmds ∧ t.hostMem = s.hostMem) ∧
  (∀ (s : State) (k corrected : Nat) (data : List Byte), s.tstate k = 5 → leNat (data.drop 248) ≠ crc64 (data.take 248) →
    Runs (exec (.flitReceive k data corrected false) s) fun t =>
      t.fld Fld.wlkErrCrc k = min (2 ^ Fld.wlkErrCrc.width - 1) (s.fld Fld.wlkErrCrc k + 1) ∧ (t.link k).expected = (s.link k).expected ∧ (t.link k).rx ≠ .ok ∧
      (t.link k).rx0 = (s.link k).rx0 ∧ (∀ j, j ≠ k → t.link j = s.link j)) ∧
  (∀ (s : State) (k : Nat), s.tstate k = 5 → (s.link k).replay ≠ [] → max 5 (min 640 (s.fld Fld.wlkCtrlReplay100ns k)) ≤ (s.us - (s.link k).timer) * 10 →
    ((s.link k).fails + 1 ≤ max 1 (s.fld Fld.wlkCtrlRetryLimit k) → Runs (exec (.replayTimerExpiry k) s) fun t =>
      (t.link k).fails = (s.link k).fails + 1 ∧ (t.link k).timer = s.us ∧ (t.link k).replay = (s.link k).replay ∧
      t.fld Fld.wlkErrReplay k = min (2 ^ Fld.wlkErrReplay.width - 1) (s.fld Fld.wlkErrReplay k + 1) ∧
      (s.flag Fld.twbCtrlGo = false → t.out.length = s.out.length + (s.link k).replay.length) ∧ (∀ j, j ≠ k → t.link j = s.link j) ∧ Only [.links, .out, .regs] s t) ∧
    (max 1 (s.fld Fld.wlkCtrlRetryLimit k) < (s.link k).fails + 1 → Runs (exec (.replayTimerExpiry k) s) fun t => t.tstate k = 7 ∧ Only Claims.linkParts s t)) ∧
  (∀ (s : State) (k : Nat) (msg rest : List Byte), k < 64 → msg ≠ [] → (s.link k).rx3 = msg ++ rest → rest.getD 4 0 ≠ 0 → Runs (exec (.test k msg) s) fun t =>
    (t.link k).rx3 = rest ∧ (∀ j, j ≠ k → t.link j = s.link j) ∧ Only [.links] s t) ∧
  (∀ (s : State) (link : Nat) (slot : List Byte), let k := leNat ((slot.drop 3).take 1) % 64
    let l := s.link k
    let p := l.partner.getD (s.partnerOf k)
    64 ≤ link → leNat (slot.take 2) = p.1 + p.2.1 * 1024 → leNat ((slot.drop 2).take 1) = p.2.2 →
    (l.lostWait = none → Runs (exec (.linkLost link slot) s) fun t =>
      t.link k = { l with early := some (leNat ((slot.drop 4).take 2) % 4096) } ∧ (∀ j, j ≠ k → t.link j = s.link j) ∧ Only [.links] s t) ∧
    (l.lostWait ≠ none → l.lost = [] → l.held = [] → Runs (exec (.linkLost link slot) s) fun t =>
      t.link k = { l with lostWait := none } ∧ (∀ j, j ≠ k → t.link j = s.link j) ∧ Only [.links] s t)) ∧
  (∀ (s : State) (k since : Nat), (s.link k).lostWait = some since → since + 1000 ≤ s.us → (s.link k).held = [] → Runs (exec (.linkLostTimeout k) s) fun t =>
    t.link k = { s.link k with lost := [], lostWait := none } ∧ (∀ j, j ≠ k → t.link j = s.link j) ∧
    t.fld Fld.wlkErr2Lost k = min (2 ^ Fld.wlkErr2Lost.width - 1) (s.fld Fld.wlkErr2Lost k + 1) ∧ Only (.links :: Claims.logParts) s t)

/-- Training: from ACTIVE a request or a write of FAST begins a fast retrain, which enters PARAM within 20 µs or turns cold; a request or a write of COLD begins a cold
retrain, which passes DETECT and PHY_TRAIN to PARAM, or puts the link OUT after 5 ms; right parameters with PACK make the link ACTIVE with its partner named, wrong ones
set MISWIRE; PARAM ends OUT after 5 ms; a lost lane degrades the link and one lost last puts it OUT; a degraded link tries again after REUP_S seconds; and a credit
division that keeps its bounds is taken, another is not.
Rows under R414, R416, R417, R419, R420, R423. Where it rests on the model's own choice: log entries 10, 56. -/
def Obligations.LinksTrain : Prop :=
  (∀ (s : State) (k : Nat), (s.tstate k = 5 ∨ s.tstate k = 6) →
    (let fast := fun (t : State) => t.tstate k = 7 ∧ (t.link k).partner = some (s.partnerOf k) ∧
        t.fld Fld.wlkErrFastrt k = min (2 ^ Fld.wlkErrFastrt.width - 1) (s.fld Fld.wlkErrFastrt k + 1)
     Runs (exec (.fastReq k) s) (fun t => fast t ∧ Only Claims.linkParts s t) ∧ Runs (exec (.fastRetrain k) s) (fun t => fast t ∧ Only Claims.linkParts s t) ∧
     Runs (exec (.wlkCtrlFast k) s) fun t => fast t ∧ Only (.urn :: .twbPos :: Claims.linkParts) s t)) ∧
  (∀ (s : State) (k : Nat), s.tstate k = 7 →
    (s.us ≤ (s.link k).since + 20 → Runs (exec (.fastRetrain k) s) fun t => t.tstate k = 4 ∧ (t.link k).since = s.us ∧ Only [.links, .out, .regs] s t) ∧
    ((s.link k).since + 20 < s.us → s.unitState 3 k ≠ 0 → Runs (exec (.fastRetrain k) s) fun t => t.tstate k = 8 ∧ Only Claims.linkParts s t)) ∧
  (∀ (s : State) (k : Nat), s.tstate k ≠ 0 → s.unitState 3 k ≠ 0 →
    (let cold := fun (t : State) => t.tstate k = 8 ∧ (t.link k).lanes = 3 ∧
        t.fld Fld.wlkErrColdrt k = min (2 ^ Fld.wlkErrColdrt.width - 1) (s.fld Fld.wlkErrColdrt k + 1)
     Runs (exec (.coldReq k) s) (fun t => cold t ∧ Only Claims.linkParts s t) ∧
     Runs (exec (.wlkCtrlCold k) s) (fun t => cold t ∧ Only (.urn :: .twbPos :: Claims.linkParts) s t) ∧
     (s.tstate k = 5 → Runs (exec (.coldRetrain k) s) fun t => cold t ∧ Only Claims.linkParts s t) ∧
     (s.tstate k = 5 → ∀ from', (s.link k).degraded = some from' → 0 < s.fld Fld.wlkCtrlReupS k → from' + s.fld Fld.wlkCtrlReupS k * 1000000 ≤ s.us →
       Runs (exec (.reupTimer k) s) fun t => cold t ∧ (t.link k).degraded = some s.us ∧ Only Claims.linkParts s t))) ∧
  (∀ (s : State) (k : Nat),
    (s.tstate k = 8 → Runs (exec (.coldRetrain k) s) fun t => t.tstate k = 1 ∧ (t.link k).since = s.us ∧ Only [.links, .regs] s t) ∧
    (s.tstate k = 2 → s.us ≤ (s.link k).since + 5000 → Runs (exec (.coldRetrain k) s) fun t => t.tstate k = 4 ∧ (t.link k).since = s.us ∧ Only [.links, .out, .regs] s t) ∧
    (s.tstate k = 2 → (s.link k).since + 5000 < s.us → s.unitState 3 k ≠ 0 → Runs (exec (.coldRetrain k) s) fun t => t.tstate k = 0 ∧ t.unitState 3 k = 0) ∧
    (s.tstate k = 1 → (s.link k).since + 1000 ≤ s.us → Runs (exec (.detectTimeout k) s) fun t =>
      t.tstate k = 1 ∧ t.link k = { s.link k with since := s.us } ∧ Only [.links, .regs] s t) ∧
    (∀ lanes, s.tstate k = 1 → lanes % 4 ≠ 0 → Runs (exec (.signalDetect k lanes) s) fun t =>
      t.tstate k = 2 ∧ t.link k = { s.link k with since := s.us, lanes := lanes % 4 } ∧ (∀ j, j ≠ k → t.link j = s.link j) ∧ Only [.links, .regs] s t) ∧
    (s.tstate k = 4 → (s.link k).since + 5000 ≤ s.us → s.unitState 3 k ≠ 0 → Runs (exec (.paramTimeout k) s) fun t => t.tstate k = 0 ∧ t.unitState 3 k = 0)) ∧
  (∀ (s : State) (k : Nat) (data : List Byte), s.tstate k = 4 → data.length = 256 → leNat (data.drop 248) = crc64 (data.take 248) →
    (FlitHead.of (leNat (data.take 8))).typ = 4 →
    let x := Train.of (data.drop 8)
    (s.trainOk k x = false → Runs (exec (.trainFlit k data) s) fun t =>
      t.tstate k = 4 ∧ t.flag Fld.wlkStateMiswire k = true ∧ Only (.urn :: .twbPos :: Claims.logParts) s t) ∧
    (s.trainOk k x = true → x.pack = true → Runs (exec (.trainFlit k data) s) fun t =>
      t.tstate k = 5 ∧ t.fld Fld.wlkStatePartnerDev k = x.dev ∧ t.fld Fld.wlkStatePartnerSys k = x.sys ∧ t.fld Fld.wlkStatePartnerLink k = x.link % 64 ∧
      t.fld Fld.wlkStateLanes k = ((s.link k).lanes &&& x.lanes) % 4 ∧ (t.link k).partner = none ∧ t.hostMem = s.hostMem)) ∧
  (∀ (s : State) (k lane : Nat), s.tstate k = 5 →
    (s.fld Fld.wlkStateLanes k = 3 → Runs (exec (.laneSignalLoss k lane) s) fun t =>
      t.tstate k = 7 ∧ (t.link k).lanes = 3 - 2 ^ (lane % 2) ∧ (t.link k).degraded = some s.us ∧
      t.fld Fld.wlkErr2Degrade k = min (2 ^ Fld.wlkErr2Degrade.width - 1) (s.fld Fld.wlkErr2Degrade k + 1)) ∧
    (s.fld Fld.wlkStateLanes k = 2 ^ (lane % 2) → s.unitState 3 k ≠ 0 → Runs (exec (.laneSignalLoss k lane) s) fun t => t.tstate k = 0 ∧ t.unitState 3 k = 0)) ∧
  (∀ (s : State) (k value : Nat),
    let d := [bits value 0 10, bits value 16 10, bits value 32 10, bits value 48 10]
    (divisionOk d = true → Runs (exec (.wlkCreditWrite k value) s) fun t =>
      t.ownSlots k = d ∧ (∀ j, j ≠ k → t.ownSlots j = s.ownSlots j) ∧ Only [.regs, .urn, .twbPos] s t ∧ RegsBut [.wlkCredit, .twbStatus, .twbCtrl] s t) ∧
    (divisionOk d = false → Runs (exec (.wlkCreditWrite k value) s) fun t =>
      (∀ j, t.ownSlots j = s.ownSlots j) ∧ Only (.urn :: .twbPos :: Claims.logParts) s t))

/-! ### Messages and notices between devices (spec/15, spec/14) -/

/-- What sending messages and notices can change: links, pins, their registers, what goes out, and the records of a message that found no route. -/
def Claims.sendParts : List Field := .links :: .pins :: Claims.logParts

/-- CMD_FWD and WORK: the command that the message carries is accepted under the next tag, with the function, epoch and tier of the header and an origin to answer; an opcode
that this device does not serve ends BAD_OPCODE, one of group 0x8_ without the fabric manager's identity FM_ONLY. WRITE_DATA and BULK join the data of the command with the
message's origin and tag, and change nothing where there is none.
Rows under R410. Where it rests on the model's own choice: log entries 7, 59. -/
def Obligations.MessagesBringCommands : Prop :=
  (∀ (s : State) (link : Nat) (msg : List Byte), s.msgHere 0x01 msg = true →
    let h := MsgHead.of msg
    let e := bodyNat (msgBody msg) 0 64
    Runs (exec (.cmdFwd link msg) s) fun t =>
      let c := t.cmd s.nextTag
      t.nextTag = s.nextTag + 1 ∧ OtherCmds s t s.nextTag ∧ c.live = true ∧ c.entry = e ∧ c.fn = h.fn ∧ c.epoch = h.epoch ∧ c.tier = h.tier ∧ c.part = none ∧
      c.origin = some (h.orgDev + 1024 * h.orgSys, h.tag) ∧ t.hostMem = s.hostMem ∧
      (Entry.op e ∉ servedOps false → c.stage = .done ∧ c.reply.status = .badOpcode) ∧
      (Entry.op e ∈ servedOps false → Entry.op e / 16 = 8 → s.fromFm h.orgSys h.orgDev h.fn = false → c.stage = .done ∧ c.reply.status = .fmOnly) ∧
      (Entry.op e ∈ servedOps false → (Entry.op e / 16 = 8 → s.fromFm h.orgSys h.orgDev h.fn = true) →
        c.stage = .accepted ∧ Only [.links, .cmds, .nextTag, .streams, .volumes] s t)) ∧
  (∀ (s : State) (link : Nat) (msg : List Byte), s.msgHere 0x02 msg = true →
    let h := MsgHead.of msg
    let b := msgBody msg
    let e := bodyNat b 0 64
    Runs (exec (.work link msg) s) fun t =>
      let c := t.cmd s.nextTag
      t.nextTag = s.nextTag + 1 ∧ OtherCmds s t s.nextTag ∧ c.live = true ∧ c.entry = e ∧ c.fn = h.fn ∧ c.epoch = h.epoch ∧ c.tier = h.tier ∧
      c.part = some (bodyNat b 80 8, bodyNat b 88 8, bodyNat b 96 8) ∧ c.origin = some (h.orgDev + 1024 * h.orgSys, h.tag) ∧
      (Entry.op e ∉ servedOps true → c.stage = .done ∧ c.reply.status = .badOpcode) ∧ (Entry.op e ∈ servedOps true → c.stage = .accepted) ∧
      Only [.links, .cmds, .nextTag] s t) ∧
  (∀ (s : State) (link : Nat) (msg : List Byte), let h := MsgHead.of msg
    let o := h.orgDev + 1024 * h.orgSys
    (∀ k c, s.cmdFrom o h.tag = some (k, c) →
      (s.msgHere 0x03 msg = true → Runs (exec (.writeData link msg) s) fun t =>
        t.cmd k = { c with inData := c.inData ++ msgBody msg } ∧ OtherCmds s t k ∧ Only [.links, .cmds] s t) ∧
      (s.msgHere 0x30 msg = true → h.devwork = false → Runs (exec (.bulk link msg) s) fun t =>
        t.cmd k = { c with inData := c.inData ++ msgBody msg } ∧ OtherCmds s t k ∧ Only [.links, .cmds] s t)) ∧
    (s.cmdFrom o h.tag = none →
      (s.msgHere 0x03 msg = true → Runs (exec (.writeData link msg) s) fun t => Only [.links] s t) ∧
      (s.msgHere 0x30 msg = true → h.devwork = false → Runs (exec (.bulk link msg) s) fun t => Only [.links] s t)) ∧
    (s.msgHere 0x30 msg = true → h.devwork = true → bodyNat (msgBody msg) 20 4 ≠ crc32c ((msgBody msg).take 20) → Runs (exec (.bulk link msg) s) fun t =>
      Only Claims.sendParts s t))

/-- REPLY ends the command whose whole was forwarded with the reply's status and result words, and its parts are gone; PART_DONE ends the part with its tag; READ_DATA joins
a part's data, or, of a forwarded command, lands in the host buffer after what came before; a response of another epoch, or whose tag names no part, changes nothing but
its buffer. A delta's answer that finds no damage takes the delta out of those outstanding.
Rows under R410. Where it rests on the model's own choice: log entries 59, 92. -/
def Obligations.ResponsesFindTheirCommand : Prop :=
  ∀ (s : State) (link : Nat) (msg : List Byte), let h := MsgHead.of msg
    let b := msgBody msg
    (∀ k p, s.partAt h.tag = some (k, p) → let c := s.cmd p.cmd
      (s.msgHere 0x10 msg = true → p.whole = true → s.inEpoch h c = true → c.stage ≠ .done → Runs (exec (.replyMsg link msg) s) fun t =>
        Ended s t p.cmd ((Status.ofCode (bodyNat b 2 1)).getD .internal) (bodyNat b 8 8) (bodyNat b 16 8) ∧ OtherCmds s t p.cmd ∧ t.partsOf p.cmd = [] ∧
        t.hostMem = s.hostMem) ∧
      (s.msgHere 0x10 msg = true → s.inEpoch h c = false → Runs (exec (.replyMsg link msg) s) fun t => Only [.links] s t) ∧
      (s.msgHere 0x11 msg = true → h.devwork = false → p.whole = false → p.done = false → s.inEpoch h c = true → c.abort = false → Entry.op c.entry ≠ 0x44 →
        Runs (exec (.partDone link msg) s) fun t =>
          t.parts.get k = { p with done := true, status := (Status.ofCode (bodyNat b 0 1)).getD .internal, moved := bodyNat b 8 8, recs := b.drop 16,
                                   util := bodyNat b 2 1 } ∧
          (∀ j, j ≠ k → t.parts.get j = s.parts.get j) ∧ Only (.parts :: .cancels :: Claims.sendParts) s t) ∧
      (s.msgHere 0x11 msg = true → h.devwork = false → s.inEpoch h c = false → Runs (exec (.partDone link msg) s) fun t => Only [.links] s t) ∧
      (s.msgHere 0x12 msg = true → p.done = false → s.inEpoch h c = true →
        (p.whole = false → Runs (exec (.readData link msg) s) fun t =>
          t.parts.get k = { p with data := (p.data ++ b).take p.len } ∧ (∀ j, j ≠ k → t.parts.get j = s.parts.get j) ∧ Only [.links, .parts] s t) ∧
        (p.whole = true → c.origin = none → Runs (exec (.readData link msg) s) fun t =>
          let bs := b.take (returned c.entry - p.moved)
          t.hostMem = s.hostMem.putN (hostKey c.fn (Entry.hostBuf c.entry + p.moved)) bs ∧ t.parts.get k = { p with moved := p.moved + bs.length } ∧
          (∀ j, j ≠ k → t.parts.get j = s.parts.get j) ∧ Only [.links, .parts, .hostMem] s t))) ∧
    (s.partAt h.tag = none →
      (s.msgHere 0x10 msg = true → Runs (exec (.replyMsg link msg) s) fun t => Only [.links] s t) ∧
      (s.msgHere 0x11 msg = true → h.devwork = false → Runs (exec (.partDone link msg) s) fun t => Only [.links] s t) ∧
      (s.msgHere 0x12 msg = true → Runs (exec (.readData link msg) s) fun t => Only [.links] s t)) ∧
    (∀ k d, (s.deltas.find? fun e => e.2.live && decide (partTag e.1 = h.tag)) = some (k, d) → s.msgHere 0x11 msg = true → h.devwork = true →
      bodyNat b 0 1 ≠ Status.badFormat.code → Runs (exec (.partDone link msg) s) fun t =>
        t.deltas.get k = {} ∧ (∀ j, j ≠ k → t.deltas.get j = s.deltas.get j) ∧ Only [.links, .deltas] s t)

/-- Notices: a CANCEL ends the work that it names and that can end, ABORTED, and is acknowledged at once where nothing of it is left; its acknowledgement ends the part
that was cancelled; a REVOKE of which nothing is held here changes no lease; REVOKE_ACK and TABLE_ACK answer the change they name and no other; and a TABLE notice of a volume's
new length sets the length here, seals where it says so, and keeps the rest of the entry.
Rows under R126, R149, R413. Where it rests on the model's own choice: log entries 30, 59, 60. -/
def Obligations.NoticesAreAnswered : Prop :=
  (∀ (s : State) (link : Nat) (slot : List Byte),
    let x := (bodyNat slot 0 2, bodyNat slot 2 1, bodyNat slot 3 1, bodyNat slot 4 2)
    let named := s.cmds.sel fun _ c => c.cancelled x && decide (c.stage ≠ .done)
    (named = [] → Runs (exec (.cancel link slot) s) fun t => x ∉ t.cancels ∧ Only (.cancels :: Claims.sendParts) s t) ∧
    (∀ tag, named = [tag] → s.abortable tag = true → s.chanFor tag = none → s.partsOf tag = [] →
      Entry.op (s.cmd tag).entry ∉ [0x20, 0x22, 0x31, 0x32, 0x44] → Runs (exec (.cancel link slot) s) fun t =>
        (t.cmd tag).stage = .done ∧ (t.cmd tag).reply.status = .aborted ∧ OtherCmds s t tag)) ∧
  (∀ (s : State) (link k : Nat) (p : Part) (slot : List Byte), bodyNat slot 0 2 = s.dev + 1024 * s.sys → bodyNat slot 4 2 ≠ 0xFFFF →
    s.partAt (bodyNat slot 4 2) = some (k, p) → p.done = false → p.cancelled = true → (s.cmd p.cmd).abort = false → Entry.op (s.cmd p.cmd).entry ≠ 0x44 →
    Runs (exec (.cancelAck link slot) s) fun t =>
      t.parts.get k = { p with done := true, status := .aborted } ∧ (∀ j, j ≠ k → t.parts.get j = s.parts.get j) ∧
      Only (.parts :: .cancels :: Claims.sendParts) s t) ∧
  (∀ (s : State) (link : Nat) (slot : List Byte),
    (s.leasesHeld (s.whoNamed (bodyNat slot 8 2) (bodyNat slot 10 1))).filter (fun r => decide (bodyNat slot 0 8 = 0) || decide (r.addr = bodyNat slot 0 8)) = [] →
    Runs (exec (.revoke link slot) s) fun t => Only Claims.sendParts s t) ∧
  (∀ (s : State) (link k : Nat) (a : Ask) (slot : List Byte), s.askAt (bodyNat slot 12 2) = some (k, a) → a.code = 0x100 →
    Runs (exec (.revokeAck link slot) s) fun t =>
      t.asks.get k = { a with status := some .ok, count := bodyNat slot 14 2 } ∧ (∀ j, j ≠ k → t.asks.get j = s.asks.get j) ∧ Only [.links, .asks] s t) ∧
  (∀ (s : State) (link k : Nat) (a : Ask) (slot : List Byte), s.askAt (bodyNat slot 4 2) = some (k, a) → a.code ≠ 0x100 → a.dev = bodyNat slot 0 2 % 1024 →
    Runs (exec (.tableAck link slot) s) fun t =>
      t.asks.get k = { a with status := some ((Status.ofCode (bodyNat slot 2 1)).getD .internal) } ∧ (∀ j, j ≠ k → t.asks.get j = s.asks.get j) ∧
      Only [.links, .asks] s t) ∧
  (∀ (s : State) (link : Nat) (slot : List Byte), bodyNat slot 80 1 = 2 ∨ bodyNat slot 80 1 = 3 →
    let v := Addr.vol (Entry.object (bodyNat slot 0 64))
    Runs (exec (.table link slot) s) fun t =>
      t.volumes.get v = { s.volumes.get v with length := bodyNat slot 88 8, sealed := (s.volumes.get v).sealed || decide (bodyNat slot 80 1 = 3) } ∧
      (∀ j, j ≠ v → t.volumes.get j = s.volumes.get j) ∧ t.cmds = s.cmds ∧ t.extents = s.extents ∧ t.hostMem = s.hostMem)

/-! ### Routing and naps (spec/16), steps at a distance (spec/19) -/

/-- A message for another device leaves on the link that its route begins with, pinned to it, its bytes those that came, with DETOUR where the route is one; what a service or
federation link may not pass on is discarded and counted; a kind that this device does not implement is counted, or answered. An envelope for another device is routed in the
same way, and one for this device is opened, its notice acted on as the notice's own row says.
Rows under R126, R149, R413, R421, R434, R439. Where it rests on the model's own choice: log entries 59, 95. -/
def Obligations.MessagesArePassedOn : Prop :=
  (∀ (s : State) (link : Nat) (msg : List Byte), let h := MsgHead.of msg
    let vc := kindVc h.kind
    16 ≤ msg.length → msg.length = 16 + 16 * h.len →
    (s.forMe (selfMessage msg) h.sys h.dev = true → knownMessage h.kind = false →
      (vc ≠ 0 → Runs (exec (.messageForward link msg) s) fun t =>
        t.fld Fld.wlkErr2Protocol link = min (2 ^ Fld.wlkErr2Protocol.width - 1) (s.fld Fld.wlkErr2Protocol link + 1) ∧ Only [.links, .regs] s t ∧ RegsBut [.wlkErr2] s t) ∧
      (vc = 0 → Runs (exec (.messageForward link msg) s) fun t => Only Claims.sendParts s t)) ∧
    (s.forMe (selfMessage msg) h.sys h.dev = false →
      (s.arrivalDrop link h.sys ≠ none → Runs (exec (.messageForward link msg) s) fun t =>
        t.fld Fld.wlkRtStatDiscards = min (2 ^ Fld.wlkRtStatDiscards.width - 1) (s.fld Fld.wlkRtStatDiscards + 1) ∧ Only (.links :: Claims.logParts) s t) ∧
      (∀ c, s.arrivalDrop link h.sys = none → s.devTakes (s.aliasOf h.dev) = true → s.linkMode link ≠ 1 → s.pinOf h vc = none → s.pins.length < 16384 →
        s.choose false h.orgDev h.sys h.dev h.detour (selfMessage msg) = some c → c.link < 62 → s.flag Fld.twbCtrlGo = false →
        Runs (exec (.messageForward link msg) s) fun t =>
          Output.message c.link vc (if c.detour then markDetour msg else msg) ∈ t.out ∧ Pin.mk h.orgSys h.orgDev h.tag h.sys h.dev vc c.link s.us ∈ t.pins ∧
          Only [.links, .pins, .regs, .out] s t))) ∧
  (∀ (s : State) (link : Nat) (slots : List Byte), let h := envHead slots
    bodyNat slots 0 1 = 1 →
    (s.forMe (selfEnvelope slots) h.sys h.dev = false →
      (s.arrivalDrop link h.sys ≠ none → Runs (exec (.route link slots) s) fun t =>
        t.fld Fld.wlkRtStatDiscards = min (2 ^ Fld.wlkRtStatDiscards.width - 1) (s.fld Fld.wlkRtStatDiscards + 1) ∧ Only (.links :: Claims.logParts) s t) ∧
      (∀ c, s.arrivalDrop link h.sys = none → s.linkMode link ≠ 1 → s.choose false h.orgDev h.sys h.dev h.detour (selfEnvelope slots) = some c → c.link < 62 →
        s.flag Fld.twbCtrlGo = false → Runs (exec (.route link slots) s) fun t =>
          Output.message c.link 2 (overlay slots 1 [BitVec.ofNat 8 (bodyNat slots 1 1 / 2 * 2 + b2n (h.detour || c.detour))]) ∈ t.out ∧
          Only [.links, .regs, .out] s t)) ∧
    (s.forMe (selfEnvelope slots) h.sys h.dev = true → bit (bodyNat slots 1 1) 1 = false →
      let b := (slots.drop 16).take (16 * bodyNat slots 7 1)
      let u := s.takeSlots link 0x09 slots
      let org := 65 + h.orgDev + 1024 * h.orgSys
      Runs (exec (.route link slots) s) fun t =>
        (h.kind = 0x02 → exec (.cancel org b) u = .next t) ∧ (h.kind = 0x03 → exec (.cancelAck org b) u = .next t) ∧ (h.kind = 0x04 → exec (.revoke org b) u = .next t) ∧
        (h.kind = 0x05 → exec (.revokeAck org b) u = .next t) ∧ (h.kind = 0x06 → exec (.table org b) u = .next t) ∧ (h.kind = 0x07 → exec (.tableAck org b) u = .next t) ∧
        (h.kind = 0x0A → exec (.linkLost org b) u = .next t)))

/-- The link-state table: a notice of another device that is newer than what is held becomes its entry, an older one changes nothing, and none is taken from links 62 and 63; a
device tells its own state again, numbered one on, once the period has passed; one that has been silent for three periods is stale, with no usable link and OUT, as
every other device is at start-up; and a pin not used for PIN_US lapses. A
STEP for this device from the fabric manager becomes a command, from anyone else it is FM_ONLY, and a STEP_ACK ends the command it answers.
Naps: a link that meets the conditions asks for the shorter of MAX_US and its cap; a request that meets them here is granted for at most the cap, and the link naps until
then, counted; one that does not is refused, and both are counted; a grant begins the nap asked for, and a refusal ends the asking.
Rows under R429, R430, R431, R436, R444, R445, R520. Where it rests on the model's own choice: log entries 7, 37. -/
def Obligations.LinkStatesStepsAndNaps : Prop :=
  (∀ (s : State) (link : Nat) (slots : List Byte), bodyNat slots 0 1 = 2 →
    let d := bodyNat slots 2 2 % 1024
    let e := s.lsTable.get d
    let ahead := (bodyNat slots 4 2 + 65536 - e.seq) % 65536
    (link = 62 ∨ link = 63 → Runs (exec (.linkState link slots) s) fun t => Only [.links] s t) ∧
    (link ≠ 62 → link ≠ 63 → bodyNat slots 2 2 / 1024 = s.sys → d ≠ s.dev →
      (e.heard = none ∨ bodyNat slots 1 1 ≠ e.count ∨ 1 ≤ ahead ∧ ahead ≤ 32767 → Runs (exec (.linkState link slots) s) fun t =>
        t.lsTable.get d = { heard := some s.us, count := bodyNat slots 1 1, seq := bodyNat slots 4 2, links := bodyNat slots 6 16,
                            devState := bodyNat slots 22 1 % 4, stale := false } ∧
        (∀ j, j ≠ d → t.lsTable.get j = s.lsTable.get j) ∧ (s.grouped = false → Only (.lsTable :: .joinDue :: Claims.sendParts) s t)) ∧
      (e.heard ≠ none → bodyNat slots 1 1 = e.count → ¬(1 ≤ ahead ∧ ahead ≤ 32767) → Runs (exec (.linkState link slots) s) fun t => Only Claims.sendParts s t))) ∧
  (∀ (s : State), s.pwrgood = true → s.halted = false → s.flag Fld.glbClkLock = true → s.starting = none → 8 ≤ s.fld Fld.pwrStartStep →
    s.lsSent + 1000 * max 10 (min 10000 (s.fld Fld.wlkRtCtrlRefreshMs)) ≤ s.us → Runs (exec .linkStateRefresh s) fun t =>
      t.lsSeq = (s.lsSeq + 1) % 65536 ∧ t.lsSent = s.us ∧ Only (.lsSeq :: .lsSent :: .joinDue :: Claims.sendParts) s t) ∧
  (∀ (s : State) (d since : Nat), (s.lsTable.get d).heard = some since → (s.lsTable.get d).stale = false →
    since + 3000 * max 10 (min 10000 (s.fld Fld.wlkRtCtrlRefreshMs)) ≤ s.us → Runs (exec (.linkStateStale d) s) fun t =>
      t.lsTable.get d = { s.lsTable.get d with stale := true } ∧ (∀ j, j ≠ d → t.lsTable.get j = s.lsTable.get j) ∧ (s.grouped = false → Only [.lsTable] s t) ∧
      (d ≠ s.dev → (∀ k, t.linkAt d k = 0) ∧ t.devIn d = false)) ∧
  (∀ d k, d ≠ State.reset.dev → State.reset.linkAt d k = 0 ∧ State.reset.devIn d = false) ∧
  (∀ (s : State) (o d vc : Nat), Runs (exec (.pinLapse o d vc) s) fun t =>
    (∀ p, p ∈ t.pins ↔ p ∈ s.pins ∧ ¬(p.org + 1024 * p.orgSys = o ∧ p.dst + 1024 * p.dstSys = d ∧ p.vc = vc ∧
      p.used + max 10 (min 10000 (s.fld Fld.wlkRtCtrlPinUs)) ≤ s.us)) ∧
    t.fld Fld.wlkRtPinsUsed = t.pins.length % 2 ^ Fld.wlkRtPinsUsed.width ∧ Only [.pins, .regs] s t ∧ RegsBut [.wlkRtPins] s t) ∧
  (∀ (s : State) (link : Nat) (slot : List Byte), bodyNat slot 0 1 = 3 → bodyNat slot 2 2 = s.dev + 1024 * s.sys →
    let o := bodyNat slot 4 2
    let f := bodyNat slot 6 1
    Runs (exec (.step link slot) s) fun t =>
      let c := t.cmd s.nextTag
      t.nextTag = s.nextTag + 1 ∧ OtherCmds s t s.nextTag ∧ c.live = true ∧ c.step = true ∧ c.fn = f ∧ c.origin = some (o, bodyNat slot 12 2) ∧
      Entry.op c.entry = 0x85 ∧ Entry.spec c.entry 40 1 = bodyNat slot 7 1 ∧ Entry.spec c.entry 41 2 = bodyNat slot 8 2 ∧ Entry.spec c.entry 43 1 = bodyNat slot 1 1 ∧
      (s.fromFm (o / 1024) (o % 1024) f = true → c.stage = .accepted ∧ Only [.links, .cmds, .nextTag] s t) ∧
      (s.fromFm (o / 1024) (o % 1024) f = false → c.stage = .done ∧ c.reply.status = .fmOnly)) ∧
  (∀ (s : State) (link k : Nat) (p : Part) (slot : List Byte), bodyNat slot 0 1 = 4 → bodyNat slot 4 2 = s.dev + 1024 * s.sys →
    s.partAt (bodyNat slot 12 2) = some (k, p) → p.whole = true → p.dev = bodyNat slot 2 2 % 1024 → (s.cmd p.cmd).live = true → (s.cmd p.cmd).stage ≠ .done →
    Entry.op (s.cmd p.cmd).entry = 0x85 → Runs (exec (.stepAck link slot) s) fun t =>
      Ended s t p.cmd ((Status.ofCode (bodyNat slot 1 1)).getD .internal) (bodyNat slot 10 1 % 4) (bodyNat slot 14 2) ∧ OtherCmds s t p.cmd ∧
      t.partsOf p.cmd = [] ∧ Only [.links, .cmds, .parts] s t) ∧
  (∀ (s : State) (k : Nat), s.napReady k = true → (s.link k).napAsked = none → Runs (exec (.napIdle k) s) fun t =>
    (t.link k).napAsked = some (min (max 100 (min 10000 (s.fld Fld.wlkNapCtrlMaxUs k))) (s.fld Fld.wlkNapStateCapUs k)) ∧ t.tstate k = s.tstate k ∧
    (∀ j, j ≠ k → t.link j = s.link j) ∧ Only [.links, .regs, .out] s t) ∧
  (∀ (s : State) (k : Nat) (slot : List Byte), s.tstate k = 5 →
    ((s.link k).napAsked = none ∨ s.fld Fld.wlkStatePartnerDev k + 1024 * s.fld Fld.wlkStatePartnerSys k ≤ s.dev + 1024 * s.sys) →
    (s.napReady k = true → Runs (exec (.napReq k slot) s) fun t =>
      let i := min (bodyNat slot 4 4) (s.fld Fld.wlkNapStateCapUs k)
      t.tstate k = 6 ∧ (t.link k).napUntil = s.us + i ∧ (t.link k).napAsked = none ∧ t.fld Fld.wlkNapStateLastUs k = i % 2 ^ Fld.wlkNapStateLastUs.width ∧
      t.fld Fld.wlkNapStatNaps k = min (2 ^ Fld.wlkNapStatNaps.width - 1) (s.fld Fld.wlkNapStatNaps k + 1) ∧ Only Claims.linkParts s t) ∧
    (s.napReady k = false → Runs (exec (.napReq k slot) s) fun t =>
      t.tstate k = 5 ∧ (t.link k).napAsked = none ∧ t.fld Fld.wlkNapStatRefused k = min (2 ^ Fld.wlkNapStatRefused.width - 1) (s.fld Fld.wlkNapStatRefused k + 1) ∧
      (∀ j, j ≠ k → t.link j = s.link j) ∧ Only [.links, .regs, .out] s t)) ∧
  (∀ (s : State) (k : Nat) (slot : List Byte), (s.link k).napAsked ≠ none →
    (s.tstate k = 5 → Runs (exec (.napAck k slot) s) fun t =>
      t.tstate k = 6 ∧ (t.link k).napUntil = s.us + bodyNat slot 4 4 % 2 ^ 14 ∧ (t.link k).napAsked = none ∧ Only Claims.linkParts s t) ∧
    (slot.length = 16 → Runs (exec (.napNak k slot) s) fun t =>
      t.link k = { s.link k with napAsked := none } ∧ (∀ j, j ≠ k → t.link j = s.link j) ∧
      t.fld Fld.wlkNapStatRefused k = min (2 ^ Fld.wlkNapStatRefused.width - 1) (s.fld Fld.wlkNapStatRefused k + 1) ∧
      Only [.links, .regs] s t ∧ RegsBut [.wlkNapStat] s t))

/-- The cap on naps: it starts at MAX_US; at the wake time the link is ACTIVE again and the clean wakes are one more, and the eighth gives the cap back; where the partner is
not heard two microseconds later the link retrains, its clean wakes are none and its cap is halved, to no less than 100, and the missed wake is counted.
Rows under R446, R447. -/
def Obligations.NapCapFollowsWakes : Prop :=
  (∀ k, State.reset.fld Fld.wlkNapStateCapUs k = State.reset.fld Fld.wlkNapCtrlMaxUs k) ∧
  (∀ (s : State) (k : Nat), s.tstate k = 6 →
    ((s.link k).napUntil ≤ s.us → Runs (exec (.napWake k) s) fun t =>
      t.tstate k = 5 ∧ (t.link k).timer = s.us ∧ Only Claims.linkParts s t ∧
      (s.fld Fld.wlkNapStateClean k ≠ 7 → t.fld Fld.wlkNapStateClean k = (s.fld Fld.wlkNapStateClean k + 1) % 2 ^ Fld.wlkNapStateClean.width ∧
        t.fld Fld.wlkNapStateCapUs k = s.fld Fld.wlkNapStateCapUs k) ∧
      (s.fld Fld.wlkNapStateClean k = 7 → t.fld Fld.wlkNapStateClean k = 0 ∧
        t.fld Fld.wlkNapStateCapUs k = max 100 (min 10000 (s.fld Fld.wlkNapCtrlMaxUs k)))) ∧
    ((s.link k).napUntil + 2 ≤ s.us → Runs (exec (.napWakeMissed k) s) fun t =>
      t.tstate k = 7 ∧ t.fld Fld.wlkNapStateClean k = 0 ∧ t.fld Fld.wlkNapStateCapUs k = max (s.fld Fld.wlkNapStateCapUs k / 2) 100 ∧
      t.fld Fld.wlkNapStatMissed k = min (2 ^ Fld.wlkNapStatMissed.width - 1) (s.fld Fld.wlkNapStatMissed k + 1) ∧ Only Claims.linkParts s t))

/-! ### Protection (spec/17) -/

/-- Groups: COMMIT that meets R454 sends JOIN and waits for the others', or, with all of them here, forms the group in SYNCING with an empty sector area; one that does not
sets MISMATCH; a group that stands keeps its width. SYNCING ends WHOLE where every member is IN. A member that is lost becomes ABSENT, with the device named as its proxy;
after FAIL_MS the coordinator declares it FAILED; ASSUME names the device that answers; RETURN brings a member back with nothing of it stale. An evacuation copies, waits for
the commands here, and leaves service. DESIGNATE makes a device without tables a hot spare, unless its shelf has two, and WITHDRAW ends that.
Rows under R123, R454, R467, R471, R472, R478, R479. Where it rests on the model's own choice: log entries 70, 73, 75, 76. -/
def Obligations.GroupsFormAndChange : Prop :=
  (∀ (s : State) (width : Nat),
    (s.fld Fld.protStateState ≠ 0 → Runs (exec (.protCommit width) s) fun t =>
      t.fld Fld.protGroupWidth = s.fld Fld.protGroupWidth ∧ t.fld Fld.protStateState = s.fld Fld.protStateState ∧ Only (.urn :: .twbPos :: Claims.logParts) s t) ∧
    (s.fld Fld.protStateState = 0 → s.groupOpen = true → width % 8 ≠ 0 →
      let u := ((s.fmInput 0 8 (width % 8 + 2 ^ 16)).setFld Fld.protGroupWidth (width % 8)).sizeParity
      (u.groupRefused = true → Runs (exec (.protCommit width) s) fun t =>
        t.flag Fld.protStateMismatch = true ∧ t.fld Fld.protStateState = 0 ∧ t.fld Fld.protGroupWidth = width % 8 ∧ Only (.urn :: .twbPos :: Claims.logParts) s t) ∧
      (u.groupRefused = false → (∃ p, p < u.gn ∧ u.memberId p ≠ u.dev ∧ u.joins.get (u.memberId p) ≠ some u.sizeCheck) →
        Runs (exec (.protCommit width) s) fun t =>
          t.joining = true ∧ t.fld Fld.protStateState = 0 ∧ t.fld Fld.protGroupWidth = width % 8 ∧ t.joins = s.joins ∧ t.sectors = s.sectors) ∧
      (u.groupRefused = false → (∀ p, p < u.gn → u.memberId p ≠ u.dev → u.joins.get (u.memberId p) = some u.sizeCheck) →
        Runs (exec (.protCommit width) s) fun t => t.joining = false ∧ t.fld Fld.protStateState = 1 ∧ t.sectors = [] ∧ t.joins = []))) ∧
  (∀ (s : State) (link : Nat) (slots : List Byte), slotSub slots = 1 → s.fld Fld.protStateState = 0 →
    let js := s.joins.put (slotSubject slots) (some (bodyNat slots 8 4))
    (s.joining = false → Runs (exec (.join link slots) s) fun t => t.joins = js ∧ Only [.links, .joins] s t) ∧
    (s.joining = true → (∀ p, p < s.gn → s.memberId p ≠ s.dev → js.get (s.memberId p) = some s.sizeCheck) → Runs (exec (.join link slots) s) fun t =>
      t.joining = false ∧ t.fld Fld.protStateState = 1 ∧ t.sectors = [] ∧ t.joins = [])) ∧
  (∀ (s : State), s.fld Fld.protStateState = 1 → s.flag Fld.protEvacBusy = false → (∀ p, p < s.gn → s.memberState p = 0) →
    Runs (exec .groupSyncDone s) fun t => t.fld Fld.protStateState = 2 ∧ Only [.regs] s t ∧ RegsBut [.protState] s t) ∧
  (∀ (s : State) (link p : Nat) (slots : List Byte), let d := slotSubject slots
    let x := slotOther slots
    s.posOf d = some p →
    (slotSub slots = 2 → s.memberState p ≠ 2 → Runs (exec (.absent link slots) s) fun t =>
      t.memberState p = 1 ∧ t.aliases.get d = (if d = x then none else some x) ∧ (∀ j, j ≠ d → t.aliases.get j = s.aliases.get j) ∧
      t.absentAt.get p = (if s.memberState p = 1 then s.absentAt.get p else s.us) ∧ t.hostMem = s.hostMem ∧ t.sectors = s.sectors) ∧
    (slotSub slots = 3 → s.memberState p = 1 ∨ s.memberState p = 2 →
      (x ≠ s.dev → ¬(2 ≤ s.fld Fld.protSpareState ∧ s.fld Fld.protSpareFor = d) → Runs (exec (.assume link slots) s) fun t =>
        t.memberState p = 2 ∧ t.aliases.get d = (if d = x then none else some x) ∧ (∀ j, j ≠ d → t.aliases.get j = s.aliases.get j) ∧
        Only (.aliases :: Claims.sendParts) s t) ∧
      (x = s.dev → d ≠ s.dev → s.fld Fld.protSpareState = 1 → Runs (exec (.assume link slots) s) fun t =>
        t.fld Fld.protSpareState = 2 ∧ t.fld Fld.protSpareFor = d ∧ t.fld Fld.protRebuildArea = 1 ∧ t.fld Fld.protRebuildStripe = 0 ∧ t.rebuilding = true ∧
        t.memberState p = 2 ∧ t.aliases.get d = some x)) ∧
    (slotSub slots = 4 → Runs (exec (.return link slots) s) fun t =>
      t.memberState p = 0 ∧ t.aliases.get d = none ∧ (∀ j, j ≠ d → t.aliases.get j = s.aliases.get j) ∧ t.absentAt.get p = 0 ∧
      (∀ k, t.dirty.get k = if k / 2 ^ 72 = p then false else s.dirty.get k) ∧ Only (.aliases :: .absentAt :: .dirty :: Claims.sendParts) s t)) ∧
  (∀ (s : State) (p : Nat), s.coordinates = true → p < s.gn → s.memberState p = 1 →
    s.absentAt.get p + 1000 * max 100 (min 600000 (s.fld Fld.protCtrlFailMs)) ≤ s.us → Runs (exec (.failTimeout p) s) fun t => t.memberState p = 2) ∧
  (∀ (s : State) (target : Nat), s.grouped = true → s.flag Fld.protEvacBusy = false → s.memberState s.myPos ≠ 1 → s.memberState s.myPos ≠ 2 → s.rebuildDue = false →
    Runs (exec (.protEvacGo target) s) fun t =>
      t.flag Fld.protEvacBusy = true ∧ t.fld Fld.protStateState = 5 ∧ t.fld Fld.protEvacTarget = target % 1024 ∧ t.sectors = s.sectors ∧ t.cmds = s.cmds) ∧
  (∀ (s : State), s.flag Fld.protEvacBusy = true →
    ((∃ e ∈ s.cmds, e.2.live = true) → Runs (exec .evacuationDone s) fun t => t.draining = true ∧ Only [.draining] s t) ∧
    ((∀ e ∈ s.cmds, e.2.live = false) → s.fld Fld.protSpareState < 2 → Runs (exec .evacuationDone s) fun t =>
      t.draining = false ∧ t.flag Fld.protEvacBusy = false ∧ t.unitState 6 0 = 0)) ∧
  (∀ (s : State) (tag : Nat) (c : Cmd), Claims.Priv s tag 0x83 c →
    (Entry.spec c.entry 40 1 = 0 →
      ((s.owners.any fun e => e.2.isSome) = true → Runs (exec (.designate tag) s) fun t => Ended s t tag .badField 0 0 ∧ OtherCmds s t tag ∧ Only [.cmds] s t) ∧
      (s.owners = [] → s.unitRecs = [] → s.volumes = [] → s.fld Fld.protSpareState = 0 → Runs (exec (.designate tag) s) fun t =>
        OtherCmds s t tag ∧ Only [.cmds, .freeCtr, .regs] s t ∧ RegsBut [.protSpare] s t ∧
        (Ended s t tag .noSpace 0 0 ∧ t.fld Fld.protSpareState = 0 ∨ (Ended s t tag .ok 1 0 ∨ Ended s t tag .ok 2 0) ∧ t.fld Fld.protSpareState = 1))) ∧
    (Entry.spec c.entry 40 1 = 1 →
      (s.fld Fld.protSpareState ≠ 1 → Runs (exec (.withdraw tag) s) fun t => Ended s t tag .badField 0 0 ∧ OtherCmds s t tag ∧ Only [.cmds] s t) ∧
      (s.fld Fld.protSpareState = 1 → Runs (exec (.withdraw tag) s) fun t =>
        OtherCmds s t tag ∧ Only [.cmds, .freeCtr, .regs] s t ∧ RegsBut [.protSpare] s t ∧ t.fld Fld.protSpareState = 0 ∧
        (Ended s t tag .ok 0 0 ∨ Ended s t tag .ok 1 0))))

/-- Frames: a delta not answered for DELTA_MS is given up and its holder's frame listed as stale; a rebuild takes its stripes one at a time, asking the survivors for theirs,
writes what they give, and moves on; once the metadata stand the tables come back and the data areas follow; LOCK holds a stripe at a survivor, UNLOCK lets it go and clears
what was stale of it, LOST and DIRTY are noted; a flash stripe that stays open asks its members, which pad or report DEAD, and one that is dead throughout is freed.
Rows under R464, R465, R472, R473, R478, R481. Where it rests on the model's own choice: log entries 70, 74. -/
def Obligations.FramesAreRebuilt : Prop :=
  (∀ (s : State) (stripe k : Nat) (d : Delta),
    (s.deltas.filter fun e => e.2.live && decide (e.2.stripe = stripe) && decide (e.2.sent + 1000 * max 1 (min 4095 (s.fld Fld.protCtrlDeltaMs)) ≤ s.us)) = [(k, d)] →
    s.dirty.length < 1048576 → Runs (exec (.deltaAckTimeout stripe) s) fun t =>
      t.deltas.get k = {} ∧ (∀ j, j ≠ k → t.deltas.get j = s.deltas.get j) ∧ t.dirty.get (frameOf d.pos d.area d.stripe) = true ∧
      (∀ j, j ≠ frameOf d.pos d.area d.stripe → t.dirty.get j = s.dirty.get j) ∧
      t.fld Fld.protStatStale = min (2 ^ Fld.protStatStale.width - 1) (s.fld Fld.protStatStale + 1) ∧ Only (.deltas :: .dirty :: Claims.logParts) s t) ∧
  (∀ (s : State), s.rebuildOn = true → s.resync = [] → s.fld Fld.protRebuildArea = 1 → s.areaStripes 1 ≤ s.fld Fld.protRebuildStripe →
    Runs (exec .spareRestoreDone s) fun t =>
      t.fld Fld.protRebuildArea = 0 ∧ t.fld Fld.protRebuildStripe = 0 ∧ (s.fld Fld.protSpareState = 2 → t.fld Fld.protSpareState = 3) ∧
      t.sectors = s.sectors ∧ t.cmds = s.cmds) ∧
  (∀ (s : State), s.rebuildDue = true → s.itemInHand.2 < s.areaStripes s.itemInHand.1 → let a := s.itemInHand.1
    let x := s.itemInHand.2
    (s.rebuilding = false → Runs (exec .stripeRebuild s) fun t =>
      t.rebuilding = true ∧ t.srcBytes = [] ∧ t.srcGot = [] ∧ Only (.rebuilding :: .srcBytes :: .srcGot :: Claims.sendParts) s t) ∧
    (s.rebuilding = true → (∃ p ∈ s.survivors, s.hasSource a x (s.roleOf p a x) = false) → Runs (exec .stripeRebuild s) fun t => t = s) ∧
    (s.rebuilding = true → (∀ p ∈ s.survivors, s.hasSource a x (s.roleOf p a x) = true) → s.heldDeltas = [] →
      (∀ ds, s.solve a x = some ds → a = 0 → Runs (exec .stripeRebuild s) fun t =>
        t.sectors = s.sectors.putN (65536 * x) (roleFrame (s.roleOf s.myPos a x) ds) ∧ t.lostFrames.get (frameOf s.myPos a x) = false) ∧
      (s.solve a x = none → Runs (exec .stripeRebuild s) fun t =>
        t.lostFrames.get (frameOf s.myPos a x) = true ∧ t.sectors = s.sectors ∧ t.flash = s.flash))) ∧
  (∀ (s : State) (link : Nat) (slots : List Byte), let a := slotArea slots
    let x := slotStripe slots
    (slotSub slots = 5 → s.grouped = true → Runs (exec (.lock link slots) s) fun t =>
      t.locks.get (areaKey a x) = some (slotOther slots) ∧ (∀ j, j ≠ areaKey a x → t.locks.get j = s.locks.get j) ∧ Only (.locks :: .deltaSeq :: Claims.sendParts) s t) ∧
    (slotSub slots = 6 → s.grouped = true → s.heldDeltas = [] → Runs (exec (.unlock link slots) s) fun t =>
      t.locks.get (areaKey a x) = none ∧ (∀ j, j ≠ areaKey a x → t.locks.get j = s.locks.get j) ∧
      (∀ p, s.posOf (slotSubject slots) = some p → t.dirty.get (frameOf p a x) = false ∧ t.lostFrames.get (frameOf p a x) = false) ∧
      Only (.locks :: .dirty :: .lostFrames :: .heldDeltas :: Claims.sendParts) s t) ∧
    (slotSub slots = 11 → (∀ p, s.posOf (slotSubject slots) = some p → Runs (exec (.lost link slots) s) fun t =>
      t.lostFrames.get (frameOf p a x) = true ∧ (∀ j, j ≠ frameOf p a x → t.lostFrames.get j = s.lostFrames.get j) ∧ Only [.links, .lostFrames] s t)) ∧
    (slotSub slots = 10 → Runs (exec (.dirty link slots) s) fun t =>
      (s.grouped = true → slotSubject slots = s.holdId → (a, x) ∈ t.resync) ∧ (slotSubject slots ≠ s.holdId → t.resync = s.resync) ∧ Only [.links, .resync] s t) ∧
    (slotSub slots = 7 → s.grouped = true → s.holdsData 2 x = true →
      let k := frameKey (x % 32) (x / 32)
      ((s.frames.get k).used = true → Runs (exec (.recoveryWait link slots) s) fun t => Only [.links] s t) ∧
      ((s.frames.get k).used = false → Runs (exec (.recoveryWait link slots) s) fun t =>
        (t.frames.get k).used = true ∧ (∀ j, j ≠ k → t.frames.get j = s.frames.get j) ∧
        (∀ b, t.flash.get b = if b / 65536 = k then 0 else s.flash.get b) ∧ Only (.frames :: .flash :: .freeCtr :: Claims.sendParts) s t)) ∧
    (slotSub slots = 8 → s.grouped = true → a = 2 → 16 ≤ s.roleOf s.myPos 2 x →
      let f := s.flashStripes.get x
      let dead := f.dead ||| 2 ^ (slotIndex slots % 16)
      (f.here ||| dead) &&& s.allIndices ≠ s.allIndices → Runs (exec (.dead link slots) s) fun t =>
        t.flashStripes.get x = { f with opened := true, since := if f.opened then f.since else s.us, dead := dead } ∧
        (∀ j, j ≠ x → t.flashStripes.get j = s.flashStripes.get j) ∧ Only [.links, .flashStripes] s t) ∧
    (slotSub slots = 9 → s.grouped = true →
      let k := frameKey (x % 32) (x / 32)
      Runs (exec (.free link slots) s) fun t =>
        (t.frames.get k).used = false ∧ (t.frames.get k).stale = ((s.frames.get k).stale || (s.frames.get k).used) ∧ (∀ j, j ≠ k → t.frames.get j = s.frames.get j) ∧
        t.flashStripes.get x = {} ∧ (∀ j, j ≠ x → t.flashStripes.get j = s.flashStripes.get j) ∧
        Only [.links, .frames, .flashStripes, .regs] s t ∧ RegsBut [.libFlash] s t)) ∧
  (∀ (s : State) (x : Nat), s.grouped = true → s.roleOf s.myPos 2 x = 16 →
    (s.flashStripes.get x).opened = true → (s.flashStripes.get x).closed = false →
    ((s.flashStripes.get x).here ||| (s.flashStripes.get x).dead) &&& s.allIndices ≠ s.allIndices →
    (s.flashStripes.get x).since + 1000 * max 10 (min 65535 (s.fld Fld.protCtrlCloseMs)) ≤ s.us → s.flag Fld.twbCtrlGo = false →
    Runs (exec (.flashStripeCloseTimeout x) s) fun t =>
      Only Claims.sendParts s t ∧
      ∀ p k, p < s.gn → p ≠ s.myPos → s.aliasOf (s.memberId p) = s.memberId p → s.memberId p ≠ s.dev → linkNo s.dev (s.memberId p) = some k → s.linkUsable k = true →
        Output.message k 2 (recoverySlot 7 0 s.holdId s.dev s.sys 2 0 x) ∈ t.out)

/-! ### The management bus (spec/18) -/

/-- A pair's interface answers, and no trace runs. -/
def Claims.BusHere (s : State) (p : Nat) : Prop := s.pairUp p = true ∧ s.flag Fld.twbCtrlGo = false

/-- The target: an address byte for the device begins a write or a read and is acknowledged, another is not, and either ends what went before; two bytes set the pointer; a read
byte comes from the register at the pointer and moves the pointer on, within 16 bits; a written byte that is taken waits for its register's byte 7, one that nothing takes is counted,
and the pointer stays in its page; a stretch given up, a STOP and a hung clock end the transfer; and in SLEEP the device's own address asks for a wake.
Rows under R484, R486, R487, R488, R492, R497, R500, R504. Where it rests on the model's own choice: log entries 82, 88. -/
def Obligations.BusTargetServesTransfers : Prop :=
  (∀ (s : State) (p : Nat), Claims.BusHere s p →
    (∀ byte, (s.busPair p).fillAt = none → s.fld Fld.pwrStateState ≠ 1 → Runs (exec (.mbAddress p byte) s) fun t =>
      let b := s.busPair p
      let own := byte % 256 / 2 = s.busAddr
      (own → t.out = s.out ++ [.busAck p true] ∧
        t.busPair p = { b with fill := 0, got := 0, state := .busy, pointed := false, snapAt := none, snap := 0, sent := 0,
                               role := if byte % 2 = 1 then .read else .write }) ∧
      (¬own → byte % 256 / 2 ≠ 0x0C → t.out = s.out ++ [.busAck p false] ∧ (t.busPair p).role = .none) ∧
      (¬own → byte % 256 = 0x19 → s.mayCall = true → t.out = s.out ++ [.busAck p true] ∧ (t.busPair p).role = .alert) ∧
      (∀ x, x ≠ p → t.busPair x = s.busPair x) ∧ Only [.bus, .out] s t) ∧
    (∀ hi lo, (s.busPair p).role = .write → (s.busPair p).pointed = false → Runs (exec (.mbPointerWrite p hi lo) s) fun t =>
      t.busPair p = { s.busPair p with pointer := lo % 256 + 256 * (hi % 256), pointed := true } ∧ t.out = s.out ++ [.busAck p true, .busAck p true] ∧
      (∀ x, x ≠ p → t.busPair x = s.busPair x) ∧ Only [.bus, .out] s t) ∧
    ((s.busPair p).role = .read → (s.busPair p).snapAt ≠ some ((s.busPair p).pointer - (s.busPair p).pointer % 8) → (s.busPair p).pointer < 65536 →
      Runs (exec (.mbReadByte p true) s) fun t =>
        let b := s.busPair p
        let at' := b.pointer - b.pointer % 8
        t.out = s.out ++ [.busByte p (byteField (s.busRead at') (b.pointer % 8) 1)] ∧
        t.busPair p = { b with pointer := (b.pointer + 1) % 65536, snapAt := some at', snap := s.busRead at', sent := 2 ^ (b.pointer % 8) } ∧
        (∀ x, x ≠ p → t.busPair x = s.busPair x) ∧ Only [.bus, .out] s t) ∧
    (∀ byte, (s.busPair p).role = .write → (s.busPair p).pointed = true → (s.busPair p).fillAt = none → (s.busPair p).pointer % 8 < 7 →
      (s.busTakes (s.busPair p).pointer = true → Runs (exec (.mbWriteByte p byte) s) fun t =>
        let b := s.busPair p
        let k := b.pointer % 8
        t.busPair p = { b with fillAt := some (b.pointer - k), fill := setBits 0 (8 * k) 8 (byte % 256), got := setBits 0 k 1 1, pointer := b.pointer + 1 } ∧
        t.out = s.out ++ [.busAck p true] ∧ (∀ x, x ≠ p → t.busPair x = s.busPair x) ∧ Only [.bus, .out] s t) ∧
      (s.busTakes (s.busPair p).pointer = false → Runs (exec (.mbWriteByte p byte) s) fun t =>
        t.fld Fld.pwrMbStatDenied = min (2 ^ Fld.pwrMbStatDenied.width - 1) (s.fld Fld.pwrMbStatDenied + 1) ∧ (t.busPair p).pointer = (s.busPair p).pointer + 1 ∧
        t.out = s.out ++ [.busAck p true] ∧ Only [.bus, .out, .regs] s t ∧ RegsBut [.pwrMbStat] s t)) ∧
    ((s.busPair p).role = .read → Runs (exec (.mbStretchAbort p) s) fun t =>
      t.fld Fld.pwrMbStatStretchAbort = min (2 ^ Fld.pwrMbStatStretchAbort.width - 1) (s.fld Fld.pwrMbStatStretchAbort + 1) ∧ t.out = s.out ++ [.busByte p 0xFF] ∧
      Only [.bus, .out, .regs] s t ∧ RegsBut [.pwrMbStat] s t) ∧
    ((s.busPair p).role = .alert → ∀ won, Runs (exec (.mbAlertResponse p won) s) fun t =>
      (t.busPair p).role = .none ∧
      (won = true → t.out = s.out ++ [.busByte p (2 * s.busAddr)] ∧ t.attn = { served := true, last := none, interval := 1000 } ∧ t.flag Fld.pwrMbStatusPending = false ∧
        t.fld Fld.pwrMbAttnCause = s.fld Fld.pwrMbAttnCause) ∧
      (won = false → Only [.bus] s t)) ∧
    ((s.busPair p).fillAt = none → s.sleepHeld = false → Runs (exec (.mbStop p) s) fun t =>
      (t.busPair p).role = .none ∧ (t.busPair p).pointed = false ∧ ((s.busPair p).state = .busy → (t.busPair p).state = .idle) ∧
      (t.busPair p).pointer = (s.busPair p).pointer ∧ (∀ x, x ≠ p → t.busPair x = s.busPair x) ∧ Only [.bus] s t) ∧
    ((s.busPair p).fillAt = none → s.xfer = none →
      ((s.busPair p).waits = 0 → Runs (exec (.mbSclTimeout p) s) fun t =>
        (t.busPair p).state = .recovering ∧ (t.busPair p).role = .none ∧ (t.busPair p).waits = 1 ∧
        t.fld Fld.pwrMbStatSclTimeout = min (2 ^ Fld.pwrMbStatSclTimeout.width - 1) (s.fld Fld.pwrMbStatSclTimeout + 1) ∧ Only [.bus, .regs] s t) ∧
      (3 ≤ (s.busPair p).waits → Runs (exec (.mbSclTimeout p) s) fun t =>
        (t.busPair p).state = .dead ∧ bit (t.fld Fld.pwrMbAttnCause) 3 = true ∧ Only (.bus :: Claims.logParts) s t))) ∧
  (∀ (s : State) (p byte : Nat), s.fld Fld.pwrStateState = 2 → s.pwrgood = true → p < 2 → (s.busPair p).state ≠ .dead → byte % 256 / 2 = s.busAddr →
    s.flag Fld.twbCtrlGo = false → Runs (exec (.mbWakeMatch p byte) s) fun t =>
      t.waking = true ∧ t.out = s.out ++ [.busAck p true] ∧ (t.busPair p).role = (if byte % 2 = 1 then .read else .write) ∧ Only [.waking, .bus, .out] s t)

/-- Attention and the controller: attention that is pending is signalled on an idle pair, and again at doubled intervals of at most 100 ms; another target's call is polled and each
caller recorded; a written REQ asks for attention; LOCK is set by the privileged function; GO begins a transfer on the pair in use, or shows status 6 where it is dead; a transfer
ends with its status, count and bytes, a lost arbitration with another try; three failed recoveries make a pair dead, and one whose lines are free again lives.
Rows under R490, R495, R496, R499, R503, R505. Where it rests on the model's own choice: log entries 7, 83. -/
def Obligations.BusCallsAndTransfers : Prop :=
  (∀ (s : State) (p : Nat), s.mayCall = true → s.pairIdle p = true → s.flag Fld.twbCtrlGo = false → Runs (exec (.mbAttentionSignal p) s) fun t =>
    t.out = s.out ++ [.busHold p] ∧ t.attn = { s.attn with last := some (s.us + 100) } ∧ Only [.attn, .out] s t) ∧
  (∀ (s : State) (last : Nat), s.attn.last = some last → s.mayCall = true → last + s.attn.interval ≤ s.us → s.flag Fld.twbCtrlGo = false →
    Runs (exec .attentionBackoff s) fun t =>
      t.attn.interval = min 100000 (2 * s.attn.interval) ∧ (∀ p, p < 2 → s.pairIdle p = true → Output.busHold p ∈ t.out ∧ t.attn.last = some (s.us + 100)) ∧
      Only [.attn, .out] s t) ∧
  (∀ (s : State) (p a : Nat), s.flag Fld.pwrMbCtrlPollEn = true → s.pairIdle p = true → s.calling = false → s.fld Fld.pwrStateState ≠ 2 → s.flag Fld.twbCtrlGo = false →
    Runs (exec (.mbAttentionDetect p [a]) s) fun t =>
      t.fld Fld.pwrMbStatAttnSeen = min (2 ^ Fld.pwrMbStatAttnSeen.width - 1) (s.fld Fld.pwrMbStatAttnSeen + 1) ∧ t.fld Fld.pwrMbAttnLogLast = a % 128 ∧
      t.fld Fld.pwrMbAttnLogCount = min (2 ^ Fld.pwrMbAttnLogCount.width - 1) (s.fld Fld.pwrMbAttnLogCount + 1) ∧ Output.busTransfer p 0x0C [] 1 ∈ t.out ∧
      Only Claims.logParts s t) ∧
  (∀ (s : State), s.flag Fld.glbClkLock = true → Runs (exec .mbAttnReq s) fun t =>
    bit (t.fld Fld.pwrMbAttnCause) 0 = true ∧ (bit (s.fld Fld.pwrMbAttnCause) 0 = false → t.attn.served = false) ∧ Only [.regs, .attn, .urn, .twbPos] s t) ∧
  (∀ (s : State) (f : Nat), s.coreUp = true → s.hostMay f = true →
    (s.isPriv f = true → Runs (exec (.mbLock f) s) fun t => t.flag Fld.pwrMbCtrlLock = true ∧ Only [.regs, .urn, .twbPos] s t ∧ RegsBut [.pwrMbCtrl, .twbStatus, .twbCtrl] s t) ∧
    (s.isPriv f = false → Runs (exec (.mbLock f) s) fun t => Only [.regs, .urn, .twbPos] s t ∧ RegsBut [.twbStatus, .twbCtrl] s t)) ∧
  (∀ (s : State) (value : Nat), s.busUp = true → s.xfer = none → s.flag Fld.twbCtrlGo = false →
    let u := (s.wr .pwrMbXcmd 0 0 (setBits value 31 1 0)).setFld Fld.pwrMbXstatDoneBytes 0
    (∀ p, u.xferPair (u.fld Fld.pwrMbXcmdPair) = some p → Runs (exec (.mbXcmdGo value) s) fun t =>
      t.xfer = some { pair := p } ∧ t.fld Fld.pwrMbXstatStatus = 1 ∧ t.fld Fld.pwrMbXstatDoneBytes = 0 ∧
      t.out = s.out ++ [.busTransfer p (u.fld Fld.pwrMbXcmdAddr) (u.xdata.take (min 32 (u.fld Fld.pwrMbXcmdWlen))) (min 32 (u.fld Fld.pwrMbXcmdRlen))] ∧
      Only [.xfer, .regs, .out] s t ∧ RegsBut [.pwrMbXcmd, .pwrMbXstat] s t) ∧
    (u.xferPair (u.fld Fld.pwrMbXcmdPair) = none → Runs (exec (.mbXcmdGo value) s) fun t =>
      t.fld Fld.pwrMbXstatStatus = 6 ∧ Only [.regs] s t ∧ RegsBut [.pwrMbXcmd, .pwrMbXstat] s t)) ∧
  (∀ (s : State) (x : BusXfer) (status count : Nat) (data : List Byte), s.xfer = some x → s.flag Fld.twbCtrlGo = false →
    (status ∈ [2, 3, 4, 7] → count < 2 ^ Fld.pwrMbXstatDoneBytes.width → Runs (exec (.mbTransferDone status count data) s) fun t =>
      t.xfer = none ∧ t.fld Fld.pwrMbXstatStatus = status ∧ t.fld Fld.pwrMbXstatDoneBytes = count ∧ Only [.xfer, .regs] s t ∧ RegsBut [.pwrMbXdata, .pwrMbXstat] s t) ∧
    (x.retries < s.fld Fld.pwrMbCtrlArbRetry → Runs (exec (.mbTransferDone 5 count data) s) fun t =>
      t.xfer = some { x with retries := x.retries + 1 } ∧ t.fld Fld.pwrMbStatArbLost = min (2 ^ Fld.pwrMbStatArbLost.width - 1) (s.fld Fld.pwrMbStatArbLost + 1) ∧
      Only [.xfer, .regs, .out] s t ∧ RegsBut [.pwrMbStat] s t) ∧
    (s.fld Fld.pwrMbCtrlArbRetry ≤ x.retries → Runs (exec (.mbTransferDone 5 count data) s) fun t =>
      t.xfer = none ∧ t.fld Fld.pwrMbXstatStatus = 5 ∧ Only [.xfer, .regs] s t ∧ RegsBut [.pwrMbStat, .pwrMbXstat] s t)) ∧
  (∀ (s : State) (p : Nat), Claims.BusHere s p →
    Runs (exec (.mbStuckSda p true) s) (fun t =>
      (t.busPair p).state = .idle ∧ (t.busPair p).tries = 0 ∧ t.out = s.out ++ [.busClocks p] ∧
      t.fld Fld.pwrMbStatRecover = min (2 ^ Fld.pwrMbStatRecover.width - 1) (s.fld Fld.pwrMbStatRecover + 1) ∧ Only [.bus, .out, .regs] s t) ∧
    ((s.busPair p).tries < 2 → Runs (exec (.mbStuckSda p false) s) fun t =>
      (t.busPair p).state = .recovering ∧ (t.busPair p).tries = (s.busPair p).tries + 1 ∧ Only [.bus, .out, .regs] s t) ∧
    (2 ≤ (s.busPair p).tries → s.xfer = none → Runs (exec (.mbStuckSda p false) s) fun t =>
      (t.busPair p).state = .dead ∧ bit (t.fld Fld.pwrMbAttnCause) 3 = true ∧
      t.fld (if p = 0 then Fld.pwrMbStatusPair0 else Fld.pwrMbStatusPair1) = 2 ∧ Only (.bus :: Claims.logParts) s t)) ∧
  (∀ (s : State) (p : Nat), s.busUp = true → p < 2 → s.pairDead p = true → Runs (exec (.mbDeadPairCheck p true) s) fun t =>
    (t.busPair p).state = .idle ∧ (t.busPair p).pointer = (s.busPair p).pointer ∧ t.fld (if p = 0 then Fld.pwrMbStatusPair0 else Fld.pwrMbStatusPair1) = 0 ∧
    bit (t.fld Fld.pwrMbAttnCause) 3 = true ∧ Only (.bus :: Claims.logParts) s t)

/-! ### Power, start-up, resets and firmware (spec/19, spec/21) -/

/-- Power states: DOZE and SLEEP are entered where R508 allows, SLEEP with every link and the PLL stopped, once no bus transfer addresses the device; elsewhere the request is
refused; ON and an access leave DOZE; WAKE_N and a wake end SLEEP with the service state that stood. Rails: a loss of PWRGOOD, a rail fault, a thermal trip, a lost PLL and a
loss of standby each put the device OFF: nothing is in flight, its memories but flash are empty, its registers but those that the log names are as after reset.
Rows under R508, R509, R510, R513, R544, R546, R547, R550, R552, R554, R557, R559. Where it rests on the model's own choice: log entries 35, 80. -/
def Obligations.PowerStatesAndRails : Prop :=
  (∀ (s : State) (src : Nat), s.coreUp = true → s.fld Fld.pwrStateState ≤ 1 → s.sleepHeld = false →
    (s.lockedOut src = true →
      (let denied := fun (t : State) => t.fld Fld.pwrMbStatDenied = min (2 ^ Fld.pwrMbStatDenied.width - 1) (s.fld Fld.pwrMbStatDenied + 1) ∧
          Only [.regs] s t ∧ RegsBut [.pwrMbStat] s t
       Runs (exec (.pwrTargetDoze src) s) denied ∧ Runs (exec (.pwrTargetSleep src) s) denied ∧ Runs (exec (.pwrTargetOn src) s) denied)) ∧
    (s.lockedOut src = false →
      (s.mayDoze = true → Runs (exec (.pwrTargetDoze src) s) (fun t => t.fld Fld.pwrStateState = 1 ∧ t.fld Fld.pwrStateTarget = 1 ∧ t.svc = s.svc ∧ t.hostMem = s.hostMem) ∧
        (s.busTalks = false → Runs (exec (.pwrTargetSleep src) s) fun t =>
          t.fld Fld.pwrStateState = 2 ∧ t.flag Fld.glbClkLock = false ∧ (∀ k, k < 64 → t.tstate k = 0) ∧ t.svc = s.svc) ∧
        (s.busTalks = true → Runs (exec (.pwrTargetSleep src) s) fun t =>
          t.sleepHeld = true ∧ t.flag Fld.glbClkLock = true ∧ t.fld Fld.pwrStateTarget = 2 ∧ (∀ k, k < 64 → t.tstate k = 0))) ∧
      (s.mayDoze = false →
        (let refused := fun (t : State) => t.flag Fld.pwrStateRefused = true ∧ t.fld Fld.pwrStateState = s.fld Fld.pwrStateState ∧ Only [.regs, .urn, .twbPos] s t ∧
            RegsBut [.pwrState, .twbStatus, .twbCtrl] s t
         Runs (exec (.pwrTargetDoze src) s) refused ∧ Runs (exec (.pwrTargetSleep src) s) refused)) ∧
      Runs (exec (.pwrTargetOn src) s) fun t => t.fld Fld.pwrStateState = 0 ∧ t.fld Fld.pwrStateTarget = 0 ∧ Only (.urn :: .twbPos :: Claims.logParts) s t)) ∧
  (∀ (s : State) (cause : Nat),
    (s.fld Fld.pwrStateState = 1 → s.sleepHeld = false → Runs (exec (.dozeWake cause) s) fun t => t.fld Fld.pwrStateState = 0 ∧ Only Claims.logParts s t) ∧
    (s.fld Fld.pwrStateState ≠ 1 → Runs (exec (.dozeWake cause) s) fun t => t = s) ∧
    (s.fld Fld.pwrStateState = 2 → s.waking = true → Runs (exec (.sleepWake cause) s) fun t =>
      t.fld Fld.pwrStateState = 0 ∧ t.flag Fld.glbClkLock = true ∧ t.fld Fld.pwrCauseLast = 6 ∧ t.waking = false ∧ t.fld Fld.pwrStateTarget = 0 ∧ t.svc = s.svc)) ∧
  (∀ (s : State),
    (s.fld Fld.pwrStateState = 2 ∨ s.sleepHeld = true → Runs (exec .wakeN s) fun t => t = { s with waking := true }) ∧
    (s.fld Fld.pwrStateState ≠ 2 → s.sleepHeld = false → Runs (exec .wakeN s) fun t => t = s)) ∧
  (∀ (s : State) (x : Nat) (level : Bool),
    (s.standby = false → Runs (exec (.vstbyRise x) s) fun t => t = { s with standby := true, straps := x % 2 ^ 21 }) ∧
    Runs (exec (.spiHizNChange level) s) (fun t => t = { s with spiHiz := !level }) ∧
    (s.standby = true → s.halted = false → s.pwrgood = false →
      (x % 128 = 127 → Runs (exec (.pwrgoodAssert x) s) fun t =>
        t.pwrgood = true ∧ t.starting = some ⟨3, true⟩ ∧ t.faultN = false ∧ t.thermtrip = false ∧ t.fld Fld.pwrStartStep = 3 ∧ t.flag Fld.pwrStartFail = false ∧
        Only [.pwrgood, .starting, .faultN, .thermtrip, .regs] s t ∧ RegsBut [.pwrStart] s t) ∧
      (x % 128 ≠ 127 → Runs (exec (.pwrgoodAssert x) s) fun t => t = { s with starting := some ⟨2, true⟩ }))) ∧
  (∀ (s : State) (rail : Nat),
    let off := fun (t : State) => t.cmds = [] ∧ t.sqs = [] ∧ t.cqs = [] ∧ t.urn = [] ∧ t.sectors = [] ∧ t.extents = [] ∧ t.keys = [] ∧ t.evOpen = false ∧
      t.starting = none ∧ t.flash = s.flash ∧ t.hostMem = s.hostMem ∧ t.norA = s.norA ∧ t.norB = s.norB ∧ t.us = s.us ∧
      ∀ r, r ∉ [Reg.pwrFault, Reg.libChState, Reg.protGroup, Reg.protMember, Reg.protCtrl, Reg.protState] → ∀ i j, t.rd r i j = r.resetValue
    Runs (exec .pwrgoodFall s) (fun t => off t ∧ t.pwrgood = false ∧ t.halted = false ∧ t.standby = s.standby ∧ t.straps = s.straps ∧ t.faultN = s.faultN) ∧
    Runs (exec .vstbyFall s) (fun t => off t ∧ t.standby = false ∧ t.straps = 0 ∧ t.pwrgood = false ∧ t.faultN = false ∧ t.thermtrip = false ∧ t.rd .pwrFault 0 0 = 0) ∧
    (s.pwrgood = true → s.halted = false → Runs (exec (.railFault rail) s) fun t =>
      off t ∧ t.pwrgood = false ∧ t.faultN = true ∧ t.flag Fld.pwrFaultRailFault = true ∧ t.fld Fld.pwrFaultRail = rail % 8) ∧
    (s.pwrgood = true → Runs (exec .thermtrip s) fun t => off t ∧ t.thermtrip = true ∧ t.halted = true) ∧
    (s.coreUp = true → s.fld Fld.pwrStateState ≠ 2 → Runs (exec .pllLockLoss s) fun t =>
      off t ∧ t.faultN = true ∧ t.halted = true ∧ t.flag Fld.pwrFaultPllFault = true))

/-- Starts and resets: a cold start whose facts are sound ends in QUARANTINE with its identity from the straps, the Urn cleared and the log open; a bank that fails, no image that
qualifies, a population outside the rules and a step beyond its budget each take their exit, shown, with FAULT_N low; a trial attempt that fails is counted, and the third rolls
back; a device reset ends in QUARANTINE with no queue and LOCK clear; a management restart leaves the seams whole; CONFIRM must be right. Firmware: staging, its end, activation
and the minimum SVN; and the configuration area follows what it holds.
Rows under R507, R513, R515, R524, R526, R529, R530, R531. Where it rests on the model's own choice: log entries 36, 77, 78, 79. -/
def Obligations.StartsAndFirmware : Prop :=
  (∀ (s : State) (pop : List Nat), s.starting = some ⟨3, true⟩ → s.spiHiz = false → s.halted = false →
    let failed := fun (exit step : Nat) (t : State) => t.starting = none ∧ t.faultN = true ∧ t.flag Fld.pwrStartFail = true ∧ t.fld Fld.pwrStartExit = exit ∧
      t.fld Fld.pwrStartStep = step
    (fact pop 9 = 0 → s.trial = none → s.slotOk s.bootSlot = true → populationOk pop = true → fact pop 5 = 0 → Runs (exec (.coldStart pop) s) fun t =>
      t.starting = none ∧ t.fld Fld.pwrStartStep = 9 ∧ t.unitState 6 0 = 1 ∧ t.urn = [] ∧ t.evOpen = true ∧ t.flag Fld.glbClkLock = true ∧
      t.fld Fld.glbIdDevid = 32 * bits s.straps 3 5 + bits s.straps 8 5 ∧ t.fld Fld.pwrMbStatusAddr = 0x58 + s.straps % 8) ∧
    (fact pop 9 ≠ 0 → Runs (exec (.coldStart pop) s) fun t => failed 3 4 t ∧ t.flag Fld.urnStatusBankFail = true) ∧
    (fact pop 9 = 0 → s.trial = none → s.slotOk 0 = false → s.slotOk 1 = false → s.bootSlot < 2 → Runs (exec (.coldStart pop) s) fun t => failed 4 5 t) ∧
    (fact pop 9 = 0 → s.trial = none → s.slotOk s.bootSlot = true → populationOk pop = false → Runs (exec (.coldStart pop) s) fun t => failed 5 6 t) ∧
    Runs (exec (.startupStepTimeout 3) s) fun t => failed 2 3 t ∧ t.flag Fld.pwrFaultPllFault = true) ∧
  (∀ (s : State), s.starting = some ⟨2, true⟩ → Runs (exec (.startupStepTimeout 2) s) fun t =>
    t.starting = none ∧ t.faultN = true ∧ t.fld Fld.pwrStartExit = 1 ∧ t.flag Fld.pwrFaultRailFault = true ∧ t.fld Fld.pwrFaultRail = 7) ∧
  (∀ (s : State) (step n : Nat), s.starting = some ⟨5, false⟩ → 5 ≤ step → step ≤ 7 → s.trial = some n → s.slotOk n = true →
    (s.fld Fld.pwrFwStatAttempts < 2 → Runs (exec (.startupStepTimeout step) s) fun t =>
      t.starting = some ⟨5, false⟩ ∧ t.trial = some n ∧ t.fld Fld.pwrFwStatAttempts = s.fld Fld.pwrFwStatAttempts + 1 ∧ t.fld Fld.pwrCauseLast = 4) ∧
    (s.fld Fld.pwrFwStatAttempts = 2 → Runs (exec (.startupStepTimeout step) s) fun t =>
      t.starting = some ⟨5, false⟩ ∧ t.trial = none ∧ t.flag Fld.pwrFwStatRolledBack = true ∧ t.bootSlot = s.bootSlot)) ∧
  (∀ (s : State) (src confirm : Nat),
    (confirm ≠ 0xD5 → Runs (exec (.pwrResetDevice src confirm) s) fun t =>
      t.fld Fld.pwrStatBadConfirm = min (2 ^ Fld.pwrStatBadConfirm.width - 1) (s.fld Fld.pwrStatBadConfirm + 1) ∧ Only [.regs, .urn, .twbPos] s t ∧
      RegsBut [.pwrStat, .twbStatus, .twbCtrl] s t) ∧
    (s.coreUp = true → s.flag Fld.pwrStartFail = false → s.trial = none → s.staging = none → s.slotOk s.bootSlot = true → (∀ e ∈ s.cmds, e.2.step = false) →
      Runs (exec (.pwrResetDevice src 0xD5) s) fun t =>
        t.unitState 6 0 = 1 ∧ t.starting = none ∧ t.sqs = [] ∧ t.cqs = [] ∧ t.cmds = [] ∧ t.flag Fld.pwrMbCtrlLock = false ∧
        t.fld Fld.pwrCauseLast = (if src = 0 then 2 else 3) ∧ t.fld Fld.pwrCauseResets = (s.fld Fld.pwrCauseResets + 1) % 2 ^ Fld.pwrCauseResets.width) ∧
    (s.coreUp = true →
      (s.lockedOut src = true → Runs (exec (.pwrResetMgmt src confirm) s) fun t =>
        t.fld Fld.pwrMbStatDenied = min (2 ^ Fld.pwrMbStatDenied.width - 1) (s.fld Fld.pwrMbStatDenied + 1) ∧ Only [.regs] s t) ∧
      (s.privCmds = [] →
        (let again := fun (t : State) => t.seam 0 = false ∧ t.seam 3 = false ∧ t.fld Fld.pwrCauseLast = 5 ∧
            t.fld Fld.pwrCauseMgmt = (s.fld Fld.pwrCauseMgmt + 1) % 2 ^ Fld.pwrCauseMgmt.width ∧ Only (.urn :: .twbPos :: Claims.logParts) s t
         Runs (exec .barista15Watchdog s) again ∧ (s.lockedOut src = false → Runs (exec (.pwrResetMgmt src 0xD5) s) again))))) ∧
  (∀ (s : State), s.spiHiz = false → s.coreUp = true →
    (∀ c, s.config = some c → (s.configNow c.seq = c → Runs (exec .configWrite s) fun t => t = s) ∧
      (s.configNow c.seq ≠ c → Runs (exec .configWrite s) fun t => t.config = some (s.configNow (c.seq + 1)) ∧ Only [.norA, .norB] s t)) ∧
    (s.config = none → Runs (exec .configWrite s) fun t => t.config = some (s.configNow 1) ∧ Only [.norA, .norB] s t)) ∧
  (∀ (s : State) (image : List Nat), s.coreUp = true → s.spiHiz = false →
    (s.fld Fld.pwrFwStatStatus ≠ 1 → s.privFn ≠ none → Runs (exec (.fwStage image) s) fun t =>
      (∃ x, t.staging = some ⟨1 - s.bootSlot, if s.fld Fld.pwrFwLenBytes = 0 ∨ 2 ^ 24 < s.fld Fld.pwrFwLenBytes then 5 else imageStatus s.minSvn image, x⟩) ∧
      t.fld Fld.pwrFwStatStatus = 1 ∧ t.slotA = s.slotA ∧ t.slotB = s.slotB) ∧
    (s.fld Fld.pwrFwStatStatus = 1 → Runs (exec (.fwStage image) s) fun t => t.staging = s.staging ∧ Only [.regs, .urn, .twbPos] s t) ∧
    (∀ g, s.staging = some g → g.result < 8 → Runs (exec .fwStageDone s) fun t =>
      t.staging = none ∧ t.fld Fld.pwrFwStatStatus = g.result ∧ (g.result = 2 → t.fwSlot g.slot = g.image) ∧ t.fwSlot (g.slot + 1) = s.fwSlot (g.slot + 1) ∧
      (g.result ≠ 2 → g.result ≠ 7 → t.fwSlot g.slot = s.fwSlot g.slot)) ∧
    (let n := s.fld Fld.pwrFwCtrlSlot
     (s.slotOk n = true → s.staging.map (·.slot) ≠ some n → Runs (exec .fwActivate s) fun t => t.trial = some n ∧ t.fld Fld.pwrFwStatAttempts = 0 ∧ t.bootSlot = s.bootSlot) ∧
     (s.slotOk n = false → Runs (exec .fwActivate s) fun t => t.trial = s.trial ∧ Only (.urn :: .twbPos :: Claims.logParts) s t)) ∧
    Runs (exec .fwCommitSvn s) fun t =>
      t.minSvn = max s.minSvn (s.fwSlot s.bootSlot).svn ∧ t.fld Fld.pwrFwStatMinSvn = t.minSvn % 2 ^ Fld.pwrFwStatMinSvn.width ∧
      Only [.minSvn, .regs, .urn, .twbPos] s t)

/-! ### The event log's consumer and register writes (spec/20, spec/00) -/

/-- Registers whose writing does more than store their fields. -/
def Claims.acting : List Reg :=
  [.twbCtrl, .twbBase, .twbSize, .twbSrcMask, .pourDomCtrl, .cmdAcqBase, .cmdAcqCfg, .cmdSqTail, .cmdCqHead, .poolLogical, .libStageDram, .libStageUrn, .prsScratch,
   .urnWinCtrl, .urnWinBase, .urnWinSize, .drcRef, .drcHashNext, .bldCommit, .bldActive, .tenFm, .wlkCtrl, .wlkCredit, .wlkMode, .wlkSys, .protGroup, .protMember, .protEvac,
   .pwrMbCtrl, .pwrMbAttn, .pwrMbXcmd, .pwrState, .pwrReset, .pwrFwCtrl, .evtCtrl, .evtCons, .evtBusPop, .msixTable, .dmaFnQuota]

/-- The event log's consumer: EVT_CONS takes a value from the present one up to PROD and no other, CLEAR takes PROD, a pop over the bus takes one entry where there is one, and
each arms the interrupt again; LOCK turns a bus write away. An 8-byte register write by the privileged function changes the fields of the register at its offset as their types
say and no other register; one by another physical function is counted and changes nothing; and a PF's tenant window stands in its BAR0.
Rows under R7, R538. Where it rests on the model's own choice: log entries 12, 14. -/
def Obligations.EventLogAndRegisterWrites : Prop :=
  (∀ (s : State), s.flag Fld.glbClkLock = true →
    (∀ src v, s.lockedOut src = false →
      ((v % 2 ^ 32 + 2 ^ 32 - s.fld Fld.evtConsCons) % 2 ^ 32 ≤ s.evFill → Runs (exec (.evtConsWrite src v) s) fun t =>
        t.fld Fld.evtConsCons = v % 2 ^ 32 ∧ t.evSent = false ∧ Only [.regs, .evSent, .urn, .twbPos] s t ∧ RegsBut [.evtCons, .twbStatus, .twbCtrl] s t) ∧
      (s.evFill < (v % 2 ^ 32 + 2 ^ 32 - s.fld Fld.evtConsCons) % 2 ^ 32 → Runs (exec (.evtConsWrite src v) s) fun t =>
        Only [.regs, .urn, .twbPos] s t ∧ RegsBut [.twbStatus, .twbCtrl] s t)) ∧
    Runs (exec .evtClear s) (fun t => t.fld Fld.evtConsCons = s.fld Fld.evtProdProd ∧ t.evFill = 0 ∧ t.evSent = false ∧ Only [.regs, .evSent, .urn, .twbPos] s t) ∧
    (∀ p, s.lockedOut (p + 1) = false →
      (s.evFill ≠ 0 → Runs (exec (.evtBusPop p) s) fun t =>
        t.evFill = s.evFill - 1 ∧ t.evSent = false ∧ Only [.regs, .evSent] s t ∧ RegsBut [.evtCons] s t) ∧
      (s.evFill = 0 → Runs (exec (.evtBusPop p) s) fun t => t = s)) ∧
    (∀ p v, s.lockedOut (p + 1) = true →
      Runs (exec (.evtBusPop p) s) (fun t =>
        t.fld Fld.pwrMbStatDenied = min (2 ^ Fld.pwrMbStatDenied.width - 1) (s.fld Fld.pwrMbStatDenied + 1) ∧ Only [.regs] s t ∧ RegsBut [.pwrMbStat] s t) ∧
      Runs (exec (.evtConsWrite (p + 1) v) s) fun t =>
        t.fld Fld.pwrMbStatDenied = min (2 ^ Fld.pwrMbStatDenied.width - 1) (s.fld Fld.pwrMbStatDenied + 8) ∧ Only [.regs] s t ∧ RegsBut [.pwrMbStat] s t)) ∧
  (∀ (s : State) (f off v : Nat), s.coreUp = true → s.hostMay f = true → off < 0xFF0000 → off % 8 = 0 →
    (∀ r i j, s.isPriv f = true → Reg.find false off = some (r, i, j) → r ∉ Claims.acting → (∀ e ∈ fieldLimits, e.1.reg ≠ r) → s.flag Fld.twbCtrlGo = false →
      Runs (exec (.registerWrite 0 false f off 8 v) s) fun t =>
        (∀ x ∈ r.spec.fields, let old := bits (s.rd r i j) x.lo x.width
          let new := bits v x.lo x.width
          bits (t.rd r i j) x.lo x.width = (if x.type = .rw then new else if x.type = .w1c then old - (old &&& new) else old)) ∧
        (∀ r' i' j', (r', i', j') ≠ (r, i, j) → t.rd r' i' j' = s.rd r' i' j') ∧ Only [.regs] s t) ∧
    (s.isPriv f = false → (s.fn f).vf = 0 → Runs (exec (.registerWrite 0 false f off 8 v) s) fun t =>
      t.fld Fld.tenStatDenied = min (2 ^ Fld.tenStatDenied.width - 1) (s.fld Fld.tenStatDenied + 1) ∧ Only [.regs, .urn, .twbPos] s t ∧
      RegsBut [.tenStat, .twbStatus, .twbCtrl] s t) ∧
    ((s.fn f).vf = 0 → off < 0x10000 → Runs (exec (.registerWrite 0 false f (0xFF0000 + off) 8 v) s) fun t =>
      exec (.registerWrite 0 true f off 8 v) s = .next t))

/-! ### Layouts and the invariant -/

/-- Every memory is in its canonical form, and no register shows a bit that its fields do not define (R4). -/
def Claims.Sound (s : State) : Prop := Memory.wf s = true ∧ ∀ (r : Reg) (i j : Nat), s.rd r i j &&& r.mask = s.rd r i j

/-- Layouts: what the words and bytes that the spec lays out say is read back field by field, for every value that the fields hold: the flit header, the message header, a map
entry, a control slot; a message header has 16 bytes, a map entry 16, a flit 256, and a flit's last eight bytes are the CRC of the rest. -/
def Obligations.LayoutsReadBack : Prop :=
  (∀ h : FlitHead, h.seq < 2 ^ 12 → h.ack < 2 ^ 12 → h.typ < 8 → h.vc < 4 → h.cvc < 4 → h.ccount < 2 ^ 10 →
    h.word = h.seq + h.ack * 2 ^ 12 + b2n h.nak * 2 ^ 24 + h.typ * 2 ^ 25 + h.vc * 2 ^ 28 + h.cvc * 2 ^ 30 + h.ccount * 2 ^ 32 ∧ FlitHead.of h.word = h) ∧
  (∀ (h : FlitHead) (p : List Byte), let b := flitBytes h p
    b.length = 256 ∧ leNat (b.drop 248) = crc64 (b.take 248) ∧ leNat (b.take 8) = h.word ∧ (p.length = 240 → (b.drop 8).take 240 = p)) ∧
  (∀ (h : MsgHead) (rest : List Byte), h.dev < 2 ^ 10 → h.sys < 2 ^ 6 → h.orgDev < 2 ^ 10 → h.orgSys < 2 ^ 6 → h.kind < 2 ^ 8 → h.blend < 2 ^ 6 → h.tier < 4 →
    h.len < 2 ^ 9 → h.tag < 2 ^ 16 → h.fn < 2 ^ 8 → h.epoch < 2 ^ 8 → h.lift = false →
    h.bytes.length = 16 ∧ MsgHead.of (h.bytes ++ rest) = h ∧
    leNat h.bytes = h.dev + h.sys * 2 ^ 10 + h.orgDev * 2 ^ 16 + h.orgSys * 2 ^ 26 + h.kind * 2 ^ 32 + h.blend * 2 ^ 40 + h.tier * 2 ^ 46 + h.len * 2 ^ 48 +
      h.tag * 2 ^ 64 + h.fn * 2 ^ 80 + h.epoch * 2 ^ 88 + b2n h.devwork * 2 ^ 96 + b2n h.detour * 2 ^ 97) ∧
  (∀ e : PageEntry, e.base < 2 ^ 36 → e.count < 16 → e.codec < 8 → e.key < 2 ^ 10 → e.check < 2 ^ 32 →
    e.bytes.length = 16 ∧ PageEntry.ofBytes e.bytes = e ∧
    leNat (e.bytes.take 8) = e.base + e.count * 2 ^ 36 + e.codec * 2 ^ 40 + e.key * 2 ^ 48 + b2n e.enc * 2 ^ 58 ∧
    leNat (e.bytes.drop 8) = e.check + b2n e.mapped * 2 ^ 32 + b2n e.poison * 2 ^ 33) ∧
  (∀ (kind : Nat) (b : List Byte), 0 < kind → kind < 256 → b.length = 16 → ctrlSlots (ctrlPayload kind b) = [(kind, b)])

/-- The invariant holds right after reset.
Where it rests on the model's own choice: log entries 1, 3. -/
def Obligations.ResetIsSound : Prop := Claims.Sound State.reset

/-- Every step keeps it: whatever the state and the command, the memories stay in their canonical form and reserved register bits read zero.
Where it rests on the model's own choice: log entry 3. -/
def Obligations.StepKeepsSound : Prop := ∀ s t : State, Claims.Sound s → step s = .next t → Claims.Sound t
end

