-- ==== Sys2Proof/Laws/Mem.lean ====
section
/-! SUPPORT. Laws of the sparse tables: a key reads what was put there and every other key as before, and every operation keeps the canonical form. -/

namespace Sys2Proof.Machine.SMap

variable {β : Type} [Inhabited β]

@[simp] theorem get_nil (k : Nat) : SMap.get ([] : SMap β) k = default := rfl

theorem above_get {a k : Nat} {m : SMap β} (h : above a m = true) (hk : k ≤ a) : get m k = default := by
  induction m with
  | nil => rfl
  | cons e m ih =>
    simp only [above, List.all_cons, Bool.and_eq_true, decide_eq_true_eq] at h
    rw [get, if_neg (by omega)]
    exact ih h.2

omit [Inhabited β] in
theorem above_mono {a b : Nat} {m : SMap β} (h : above b m = true) (hab : a ≤ b) : above a m = true := by
  simp only [above, List.all_eq_true, decide_eq_true_eq] at *
  intro e he
  exact lt_of_le_of_lt hab (h e he)

omit [Inhabited β] in
theorem above_filter {a : Nat} {m : SMap β} (p : Nat × β → Bool) (h : above a m = true) : above a (m.filter p) = true := by
  simp only [above, List.all_eq_true, decide_eq_true_eq, List.mem_filter] at *
  exact fun e he => h e he.1

theorem get_insert_ne (m : SMap β) {k j : Nat} (v : β) (h : j ≠ k) : get (SMap.insert m k v) j = get m j := by
  induction m with
  | nil => simp [SMap.insert, get, Ne.symm h]
  | cons e m ih =>
    by_cases h1 : k < e.1
    · simp [SMap.insert, get, h1, Ne.symm h]
    · simp only [SMap.insert, h1, if_false, get]; rw [ih]

theorem get_insert_same (m : SMap β) (k : Nat) (v : β) (h : ∀ e ∈ m, e.1 ≠ k) : get (SMap.insert m k v) k = v := by
  induction m with
  | nil => simp [SMap.insert, get]
  | cons e m ih =>
    have h0 : e.1 ≠ k := h e (by simp)
    by_cases h1 : k < e.1
    · simp [SMap.insert, get, h1]
    · simp only [SMap.insert, h1, if_false, get, if_neg h0]
      exact ih fun x hx => h x (by simp [hx])

theorem get_erase_ne (m : SMap β) {k j : Nat} (h : j ≠ k) : get (m.filter fun e => decide (e.1 ≠ k)) j = get m j := by
  induction m with
  | nil => rfl
  | cons e m ih =>
    by_cases h1 : e.1 = k
    · rw [List.filter_cons_of_neg (by simpa using h1), ih, get, if_neg (by omega)]
    · rw [List.filter_cons_of_pos (by simpa using h1), get, get, ih]

theorem get_erase_same (m : SMap β) (k : Nat) : get (m.filter fun e => decide (e.1 ≠ k)) k = default := by
  induction m with
  | nil => rfl
  | cons e m ih =>
    by_cases h1 : e.1 = k
    · rw [List.filter_cons_of_neg (by simpa using h1), ih]
    · rw [List.filter_cons_of_pos (by simpa using h1), get, if_neg h1, ih]

variable [DecidableEq β]

/-- Every other key reads as before. -/
@[simp] theorem get_put_ne (m : SMap β) {k j : Nat} (v : β) (h : j ≠ k) : get (put m k v) j = get m j := by
  by_cases hv : v = default
  · simp only [put, hv, if_true]; exact get_erase_ne m h
  · simp only [put, hv, if_false]; rw [get_insert_ne _ _ h]; exact get_erase_ne m h

/-- The key put reads as the value put. -/
@[simp] theorem get_put_same (m : SMap β) (k : Nat) (v : β) : get (put m k v) k = v := by
  by_cases hv : v = default
  · simp only [put, hv, if_true]; exact get_erase_same m k
  · simp only [put, hv, if_false]
    exact get_insert_same _ _ _ fun e he => by simpa using (List.mem_filter.mp he).2

theorem get_put (m : SMap β) (k j : Nat) (v : β) : get (put m k v) j = if j = k then v else get m j := by
  by_cases h : j = k
  · simp [h]
  · simp [h]

omit [Inhabited β] [DecidableEq β] in
theorem above_insert {a k : Nat} {m : SMap β} (v : β) (h : above a m = true) (hk : a < k) : above a (SMap.insert m k v) = true := by
  induction m with
  | nil => simp [SMap.insert, above, hk]
  | cons e m ih =>
    have h' := h
    simp only [above, List.all_cons, Bool.and_eq_true, decide_eq_true_eq] at h
    by_cases h1 : k < e.1
    · simp only [SMap.insert, h1, if_true]
      simp only [above, List.all_cons, Bool.and_eq_true, decide_eq_true_eq] at *
      exact ⟨hk, h⟩
    · simp only [SMap.insert, h1, if_false]
      have := ih h.2
      simp only [above, List.all_cons, Bool.and_eq_true, decide_eq_true_eq] at *
      exact ⟨h.1, this⟩

/-- Dropping entries keeps the canonical form. -/
theorem wf_filter {m : SMap β} (p : Nat × β → Bool) (h : wf m = true) : wf (m.filter p) = true := by
  induction m with
  | nil => rfl
  | cons e m ih =>
    obtain ⟨a, v⟩ := e
    simp only [wf, Bool.and_eq_true] at h
    by_cases hp : p (a, v) = true
    · rw [List.filter_cons_of_pos hp]
      simp only [wf, Bool.and_eq_true]
      exact ⟨⟨h.1.1, above_filter p h.1.2⟩, ih h.2⟩
    · rw [List.filter_cons_of_neg (by simpa using hp)]
      exact ih h.2

theorem wf_drop {m : SMap β} (p : Nat → β → Bool) (h : wf m = true) : wf (drop p m) = true := wf_filter _ h

theorem wf_insert {m : SMap β} {k : Nat} {v : β} (h : wf m = true) (hk : ∀ e ∈ m, e.1 ≠ k) (hv : v ≠ default) :
    wf (SMap.insert m k v) = true := by
  induction m with
  | nil => simp [SMap.insert, wf, above, hv]
  | cons e m ih =>
    obtain ⟨a, w⟩ := e
    have ha : a ≠ k := hk (a, w) (by simp)
    have h' := h
    simp only [wf, Bool.and_eq_true] at h
    by_cases h1 : k < a
    · have h2 : above k ((a, w) :: m) = true := by
        have := above_mono h.1.2 h1.le
        simp only [above, List.all_cons, Bool.and_eq_true, decide_eq_true_eq] at *
        exact ⟨h1, this⟩
      simp only [SMap.insert, h1, if_true]
      rw [wf, h2, h']
      simpa using hv
    · simp only [SMap.insert, h1, if_false, wf, Bool.and_eq_true]
      exact ⟨⟨h.1.1, above_insert v h.1.2 (by omega)⟩, ih h.2 fun x hx => hk x (by simp [hx])⟩

/-- Putting a value keeps the canonical form. -/
theorem wf_put {m : SMap β} (k : Nat) (v : β) (h : wf m = true) : wf (put m k v) = true := by
  by_cases hv : v = default
  · simp only [put, hv, if_true]; exact wf_filter _ h
  · simp only [put, hv, if_false]
    exact wf_insert (wf_filter _ h) (fun e he => by simpa using (List.mem_filter.mp he).2) hv

theorem wf_upd {m : SMap β} (k : Nat) (f : β → β) (h : wf m = true) : wf (upd m k f) = true := wf_put _ _ h

theorem wf_putN {m : SMap β} (k : Nat) (vs : List β) (h : wf m = true) : wf (putN m k vs) = true := by
  induction vs generalizing m k with
  | nil => exact h
  | cons v vs ih => exact ih _ (wf_put k v h)

@[simp] theorem get_upd_ne (m : SMap β) {k j : Nat} (f : β → β) (h : j ≠ k) : get (upd m k f) j = get m j := get_put_ne _ _ h

@[simp] theorem get_upd_same (m : SMap β) (k : Nat) (f : β → β) : get (upd m k f) k = f (get m k) := get_put_same _ _ _

/-- A run of values reads as before at every key outside it. -/
theorem get_putN_ne (m : SMap β) (k : Nat) (vs : List β) {j : Nat} (h : j < k ∨ k + vs.length ≤ j) : get (putN m k vs) j = get m j := by
  induction vs generalizing m k with
  | nil => rfl
  | cons v vs ih =>
    simp only [List.length_cons] at h
    rw [putN, ih _ _ (by omega), get_put_ne _ _ (by omega)]

/-- A run of values reads back. -/
theorem get_putN_at (m : SMap β) (k : Nat) (vs : List β) (i : Nat) (hi : i < vs.length) :
    get (putN m k vs) (k + i) = vs[i] := by
  induction vs generalizing m k i with
  | nil => simp at hi
  | cons v vs ih =>
    cases i with
    | zero => rw [putN, get_putN_ne _ _ _ (by omega)]; simp
    | succ i =>
      rw [putN, show k + (i + 1) = (k + 1) + i by omega]
      simpa using ih (put m k v) (k + 1) i (by simpa using hi)

/-- What was written is what is read. -/
theorem getN_putN (m : SMap β) (k : Nat) (vs : List β) : getN (putN m k vs) k vs.length = vs := by
  induction vs generalizing m k with
  | nil => rfl
  | cons v vs ih =>
    simp only [putN, List.length_cons, getN]
    rw [get_putN_ne _ _ _ (by omega), get_put_same, ih]

/-- A table in canonical form is determined by what its keys read as. -/
theorem ext_get {m n : SMap β} (hm : wf m = true) (hn : wf n = true) (h : ∀ k, get m k = get n k) : m = n := by
  induction m generalizing n with
  | nil =>
    cases n with
    | nil => rfl
    | cons e n =>
      obtain ⟨a, v⟩ := e
      simp only [wf, Bool.and_eq_true, decide_eq_true_eq] at hn
      have := h a
      simp only [get, if_true] at this
      exact absurd this.symm hn.1.1
  | cons e m ih =>
    obtain ⟨a, v⟩ := e
    cases n with
    | nil =>
      simp only [wf, Bool.and_eq_true, decide_eq_true_eq] at hm
      have := h a
      simp only [get, if_true] at this
      exact absurd this hm.1.1
    | cons e' n =>
      obtain ⟨b, w⟩ := e'
      simp only [wf, Bool.and_eq_true, decide_eq_true_eq] at hm hn
      have hab : a = b := by
        rcases Nat.lt_trichotomy a b with hlt | heq | hgt
        · have := h a
          rw [get, if_pos rfl, get, if_neg (by omega), above_get hn.1.2 hlt.le] at this
          exact absurd this hm.1.1
        · exact heq
        · have := h b
          rw [get, if_neg (by omega), above_get hm.1.2 hgt.le, get, if_pos rfl] at this
          exact absurd this.symm hn.1.1
      subst hab
      have hv : v = w := by simpa [get] using h a
      subst hv
      have hmn : m = n := by
        apply ih hm.2 hn.2
        intro k
        by_cases hk : a = k
        · subst hk; rw [above_get hm.1.2 le_rfl, above_get hn.1.2 le_rfl]
        · have := h k
          rwa [get, if_neg hk, get, if_neg hk] at this
      rw [hmn]

end Sys2Proof.Machine.SMap
end

