-- ==== Sys2Proof/Laws/Regs.lean ====
section
/-! SUPPORT. Laws of the register store: what a register and a field read as after one of them is written (R4). -/

namespace Sys2Proof

theorem testBit_bits (n lo w i : Nat) : (bits n lo w).testBit i = (decide (i < w) && n.testBit (lo + i)) := by
  simp [bits, Nat.testBit_mod_two_pow, Nat.testBit_shiftRight]

theorem testBit_setBits (n lo w v i : Nat) :
    (setBits n lo w v).testBit i = if i < lo then n.testBit i else if i < lo + w then v.testBit (i - lo) else n.testBit i := by
  unfold setBits
  have h1 : n % 2 ^ lo + v % 2 ^ w * 2 ^ lo < 2 ^ (lo + w) := by
    have a := Nat.mod_lt n (Nat.two_pow_pos lo)
    have b := Nat.mod_lt v (Nat.two_pow_pos w)
    rw [pow_add]
    nlinarith [Nat.two_pow_pos lo]
  rw [Nat.add_comm _ (n / 2 ^ (lo + w) * 2 ^ (lo + w)), Nat.mul_comm (n / _), Nat.testBit_two_pow_mul_add _ h1,
    Nat.add_comm (n % 2 ^ lo), Nat.mul_comm (v % 2 ^ w), Nat.testBit_two_pow_mul_add _ (Nat.mod_lt n (Nat.two_pow_pos lo))]
  by_cases h2 : i < lo
  · simp [h2, show i < lo + w by omega, Nat.testBit_mod_two_pow]
  · by_cases h3 : i < lo + w
    · simp [h2, h3, Nat.testBit_mod_two_pow, show i - lo < w by omega]
    · simp only [h2, h3, if_false]
      rw [← Nat.shiftRight_eq_div_pow, Nat.testBit_shiftRight]
      congr 1
      omega

/-- The field written reads as what was written, cut to its width. -/
@[simp] theorem bits_setBits_same (n lo w v : Nat) : bits (setBits n lo w v) lo w = v % 2 ^ w := by
  apply Nat.eq_of_testBit_eq
  intro i
  rw [testBit_bits, testBit_setBits, Nat.testBit_mod_two_pow]
  by_cases h : i < w
  · simp [h]
  · simp [h]

/-- A field apart from the one written reads as before. -/
theorem bits_setBits_ne (n lo w v lo' w' : Nat) (h : lo' + w' ≤ lo ∨ lo + w ≤ lo') :
    bits (setBits n lo w v) lo' w' = bits n lo' w' := by
  apply Nat.eq_of_testBit_eq
  intro i
  rw [testBit_bits, testBit_bits, testBit_setBits]
  by_cases hi : i < w'
  · rcases h with h | h
    · simp [hi, show lo' + i < lo by omega]
    · simp [hi, show ¬ lo' + i < lo by omega, show ¬ lo' + i < lo + w by omega]
  · simp [hi]

namespace Machine

theorem Reg.ord_lt (r : Reg) : r.ord < 512 := by
  cases r <;> exact Nat.le_of_ble_eq_true rfl

theorem Reg.ord_inj {r r' : Reg} (h : r.ord = r'.ord) : r = r' := by
  have := congrArg Reg.ofNat h
  simpa [Reg.ord, Reg.ofNat_ctorIdx] using this

theorem regKey_inj {r r' : Reg} {i j i' j' : Nat} (h : regKey r i j = regKey r' i' j') : r = r' ∧ i = i' ∧ j = j' := by
  unfold regKey at h
  have h1 := r.ord_lt
  have h2 := r'.ord_lt
  have ho : r.ord = r'.ord := by omega
  have hk : (i + j) * (i + j) + i = (i' + j') * (i' + j') + i' := by omega
  have hn : i + j = i' + j' := by
    rcases Nat.lt_trichotomy (i + j) (i' + j') with hlt | heq | hgt
    · nlinarith
    · exact heq
    · nlinarith
  have hi : i = i' := by rw [hn] at hk; omega
  exact ⟨Reg.ord_inj ho, hi, by omega⟩

/-- The register written reads as what was written, its reserved bits zero. -/
theorem State.rd_wr_same (s : State) (r : Reg) (i j v : Nat) : (s.wr r i j v).rd r i j = (v &&& r.mask) % 2 ^ 64 := by
  unfold State.wr State.rd
  rw [SMap.get_put_same]
  split
  · next h =>
    split at h
    · next h' => exact h'.symm
    · cases h
  · next w h =>
    split at h
    · cases h
    · simp only [Option.some.injEq] at h
      rw [← h, BitVec.toNat_ofNat, Nat.mod_mod]

/-- Every other register, and every other instance, reads as before. -/
theorem State.rd_wr_ne (s : State) {r r' : Reg} {i j i' j' : Nat} (v : Nat) (h : r' ≠ r ∨ i' ≠ i ∨ j' ≠ j) :
    (s.wr r i j v).rd r' i' j' = s.rd r' i' j' := by
  unfold State.wr State.rd
  rw [SMap.get_put_ne]
  intro he
  have := regKey_inj he
  tauto

@[simp] theorem State.rd_wr_reg (s : State) {r r' : Reg} {i j i' j' : Nat} (v : Nat) (h : r' ≠ r) :
    (s.wr r i j v).rd r' i' j' = s.rd r' i' j' := s.rd_wr_ne v (.inl h)

/-- A field lies within the defined bits of its register. -/
def Fld.ok (f : Fld) : Bool := decide (f.lo + f.width ≤ 64) && decide (bits f.reg.mask f.lo f.width = 2 ^ f.width - 1)

theorem Fld.ok_bit {f : Fld} (h : f.ok = true) {i : Nat} (hi : i < f.width) : f.reg.mask.testBit (f.lo + i) = true ∧ f.lo + i < 64 := by
  simp only [Fld.ok, Bool.and_eq_true, decide_eq_true_eq] at h
  refine ⟨?_, by omega⟩
  have := congrArg (fun n => n.testBit i) h.2
  simpa [testBit_bits, hi] using this

theorem Fld.bits_held {f : Fld} (h : f.ok = true) (v : Nat) : bits ((v &&& f.reg.mask) % 2 ^ 64) f.lo f.width = bits v f.lo f.width := by
  apply Nat.eq_of_testBit_eq
  intro i
  rw [testBit_bits, testBit_bits]
  by_cases hi : i < f.width
  · obtain ⟨h1, h2⟩ := f.ok_bit h hi
    rw [Nat.testBit_mod_two_pow, Nat.testBit_and]
    simp [hi, h1, h2]
  · simp [hi]

/-- The field written reads as what was written. -/
theorem State.fld_setFld_same (s : State) {f : Fld} (h : f.ok = true) (v i j : Nat) : (s.setFld f v i j).fld f i j = v % 2 ^ f.width := by
  unfold State.fld State.setFld
  rw [State.rd_wr_same, Fld.bits_held h, bits_setBits_same]

/-- A field of another register or instance reads as before. -/
theorem State.fld_setFld_ne (s : State) {f g : Fld} (v : Nat) {i j i' j' : Nat} (h : g.reg ≠ f.reg ∨ i' ≠ i ∨ j' ≠ j) :
    (s.setFld f v i j).fld g i' j' = s.fld g i' j' := by
  unfold State.fld State.setFld
  rw [State.rd_wr_ne _ _ h]

/-- Another field of the same register reads as before. -/
theorem State.fld_setFld_apart (s : State) {f g : Fld} (v : Nat) {i j i' j' : Nat} (hg : g.ok = true)
    (h : g.lo + g.width ≤ f.lo ∨ f.lo + f.width ≤ g.lo) : (s.setFld f v i j).fld g i' j' = s.fld g i' j' := by
  by_cases hr : g.reg ≠ f.reg ∨ i' ≠ i ∨ j' ≠ j
  · exact s.fld_setFld_ne v hr
  · simp only [not_or, not_not] at hr
    obtain ⟨hr, rfl, rfl⟩ := hr
    unfold State.fld State.setFld
    rw [← hr, State.rd_wr_same, Fld.bits_held hg, bits_setBits_ne _ _ _ _ _ _ h, hr]

@[simp] theorem State.rd_setFld_reg (s : State) {f : Fld} {r : Reg} (v i j i' j' : Nat) (h : r ≠ f.reg) :
    (s.setFld f v i j).rd r i' j' = s.rd r i' j' := s.rd_wr_ne _ (.inl h)

end Machine
end Sys2Proof
end

