-- ==== Sys2Proof/Laws/Frame.lean ====
section
/-! SUPPORT. How frames compose: what several operations one after the other may change is what each of them may change. -/

namespace Sys2Proof.Machine

theorem State.same_refl (p : Field) (s : State) : State.same p s s := by cases p <;> rfl

theorem State.same_trans {p : Field} {s t u : State} (h1 : State.same p s t) (h2 : State.same p t u) : State.same p s u := by
  cases p <;> exact Eq.trans h2 h1

theorem Only.refl (ps : List Field) (s : State) : Only ps s s := fun p _ => State.same_refl p s

theorem Only.mono {ps qs : List Field} {s t : State} (h : Only ps s t) (hs : ∀ p ∈ ps, p ∈ qs) : Only qs s t :=
  fun p hp => h p fun hq => hp (hs p hq)

theorem Only.trans {ps : List Field} {s t u : State} (h1 : Only ps s t) (h2 : Only ps t u) : Only ps s u :=
  fun p hp => State.same_trans (h1 p hp) (h2 p hp)

theorem Only.append {ps qs : List Field} {s t u : State} (h1 : Only ps s t) (h2 : Only qs t u) : Only (ps ++ qs) s u :=
  (h1.mono fun _ h => List.mem_append_left _ h).trans (h2.mono fun _ h => List.mem_append_right _ h)

theorem RegsBut.refl (rs : List Reg) (s : State) : RegsBut rs s s := fun _ _ _ _ => rfl

theorem RegsBut.mono {rs qs : List Reg} {s t : State} (h : RegsBut rs s t) (hs : ∀ r ∈ rs, r ∈ qs) : RegsBut qs s t :=
  fun r hr => h r fun hq => hr (hs r hq)

theorem RegsBut.trans {rs : List Reg} {s t u : State} (h1 : RegsBut rs s t) (h2 : RegsBut rs t u) : RegsBut rs s u :=
  fun r hr i j => (h2 r hr i j).trans (h1 r hr i j)

/-- Where the register store is the same every register reads the same. -/
theorem RegsBut.of_only {ps : List Field} {s t : State} (h : Only ps s t) (hr : Field.regs ∉ ps) : RegsBut [] s t := by
  intro r _ i j
  have : t.regs = s.regs := h .regs hr
  simp [State.rd, this]

theorem RegsBut.fld {rs : List Reg} {s t : State} (h : RegsBut rs s t) (f : Fld) (i j : Nat) (hf : f.reg ∉ rs) : t.fld f i j = s.fld f i j := by
  simp [State.fld, h f.reg hf i j]

theorem RegsBut.flag {rs : List Reg} {s t : State} (h : RegsBut rs s t) (f : Fld) (i j : Nat) (hf : f.reg ∉ rs) :
    t.flag f i j = s.flag f i j := by
  simp [State.flag, h.fld f i j hf]

/-! ### The primary updates -/

theorem Only.wr (s : State) (r : Reg) (i j v : Nat) : Only [.regs] s (s.wr r i j v) := by
  intro p hp; cases p <;> first | rfl | exact absurd (by decide) hp
theorem Only.setFld (s : State) (f : Fld) (v i j : Nat) : Only [.regs] s (s.setFld f v i j) := by
  intro p hp; cases p <;> first | rfl | exact absurd (by decide) hp
theorem Only.bump (s : State) (f : Fld) (n i j : Nat) : Only [.regs] s (s.bump f n i j) := by
  intro p hp; cases p <;> first | rfl | exact absurd (by decide) hp
theorem Only.tally (s : State) (f : Fld) (n i j : Nat) : Only [.regs] s (s.tally f n i j) := by
  intro p hp; cases p <;> first | rfl | exact absurd (by decide) hp
theorem Only.tookFree (s : State) : Only [.freeCtr] s (s.tookFree) := by
  intro p hp; cases p <;> first | rfl | exact absurd (by decide) hp
theorem Only.hostWrite (s : State) (f a : Nat) (bs : List Byte) : Only [.hostMem] s (s.hostWrite f a bs) := by
  intro p hp; cases p <;> first | rfl | exact absurd (by decide) hp
theorem Only.urnWrite (s : State) (o : Nat) (bs : List Byte) : Only [.urn] s (s.urnWrite o bs) := by
  intro p hp; cases p <;> first | rfl | exact absurd (by decide) hp
theorem Only.urnZero (s : State) (o n : Nat) : Only [.urn] s (s.urnZero o n) := by
  intro p hp; cases p <;> first | rfl | exact absurd (by decide) hp
theorem Only.modFn (s : State) (k : Nat) (g : Fn → Fn) : Only [.fns] s (s.modFn k g) := by
  intro p hp; cases p <;> first | rfl | exact absurd (by decide) hp
theorem Only.modSq (s : State) (k : Nat) (g : Sq → Sq) : Only [.sqs] s (s.modSq k g) := by
  intro p hp; cases p <;> first | rfl | exact absurd (by decide) hp
theorem Only.modCq (s : State) (k : Nat) (g : Cq → Cq) : Only [.cqs] s (s.modCq k g) := by
  intro p hp; cases p <;> first | rfl | exact absurd (by decide) hp
theorem Only.modCmd (s : State) (k : Nat) (g : Cmd → Cmd) : Only [.cmds] s (s.modCmd k g) := by
  intro p hp; cases p <;> first | rfl | exact absurd (by decide) hp
theorem Only.modDom (s : State) (k : Nat) (g : Dom → Dom) : Only [.doms] s (s.modDom k g) := by
  intro p hp; cases p <;> first | rfl | exact absurd (by decide) hp
theorem Only.modTrig (s : State) (k : Nat) (g : Trig → Trig) : Only [.trigs] s (s.modTrig k g) := by
  intro p hp; cases p <;> first | rfl | exact absurd (by decide) hp
theorem Only.modUnit (s : State) (c k : Nat) (g : UnitSvc → UnitSvc) : Only [.svc] s (s.modUnit c k g) := by
  intro p hp; cases p <;> first | rfl | exact absurd (by decide) hp

theorem RegsBut.wr (s : State) (r : Reg) (i j v : Nat) : RegsBut [r] s (s.wr r i j v) := fun r' h i' j' =>
  s.rd_wr_reg v (by simpa using h)
theorem RegsBut.setFld (s : State) (f : Fld) (v i j : Nat) : RegsBut [f.reg] s (s.setFld f v i j) := RegsBut.wr _ _ _ _ _
theorem RegsBut.bump (s : State) (f : Fld) (n i j : Nat) : RegsBut [f.reg] s (s.bump f n i j) := RegsBut.setFld _ _ _ _ _
theorem RegsBut.tally (s : State) (f : Fld) (n i j : Nat) : RegsBut [f.reg] s (s.tally f n i j) := RegsBut.setFld _ _ _ _ _

/-- A count that saturates reads one more, or stays at its top. -/
theorem State.fld_bump_same (s : State) {f : Fld} (h : f.ok = true) (n i j : Nat) :
    (s.bump f n i j).fld f i j = min (2 ^ f.width - 1) (s.fld f i j + n) := by
  rw [State.bump, State.fld_setFld_same s h, satAdd, Nat.mod_eq_of_lt]
  have := Nat.two_pow_pos f.width
  omega

end Sys2Proof.Machine
end

