-- ==== Sys2Proof/Laws/State.lean ====
section
/-! SUPPORT. What each primary update of the state leaves alone: one lemma per field per update, true by computation. -/

namespace Sys2Proof.Machine

variable (s : State)


@[simp] theorem State.wr_pending (r : Reg) (i j v : Nat) : (s.wr r i j v).pending = s.pending := rfl
@[simp] theorem State.wr_us (r : Reg) (i j v : Nat) : (s.wr r i j v).us = s.us := rfl
@[simp] theorem State.wr_clockStop (r : Reg) (i j v : Nat) : (s.wr r i j v).clockStop = s.clockStop := rfl
@[simp] theorem State.wr_freeCtr (r : Reg) (i j v : Nat) : (s.wr r i j v).freeCtr = s.freeCtr := rfl
@[simp] theorem State.wr_out (r : Reg) (i j v : Nat) : (s.wr r i j v).out = s.out := rfl
@[simp] theorem State.wr_fns (r : Reg) (i j v : Nat) : (s.wr r i j v).fns = s.fns := rfl
@[simp] theorem State.wr_coal (r : Reg) (i j v : Nat) : (s.wr r i j v).coal = s.coal := rfl
@[simp] theorem State.wr_sqs (r : Reg) (i j v : Nat) : (s.wr r i j v).sqs = s.sqs := rfl
@[simp] theorem State.wr_cqs (r : Reg) (i j v : Nat) : (s.wr r i j v).cqs = s.cqs := rfl
@[simp] theorem State.wr_cmds (r : Reg) (i j v : Nat) : (s.wr r i j v).cmds = s.cmds := rfl
@[simp] theorem State.wr_nextTag (r : Reg) (i j v : Nat) : (s.wr r i j v).nextTag = s.nextTag := rfl
@[simp] theorem State.wr_hostMem (r : Reg) (i j v : Nat) : (s.wr r i j v).hostMem = s.hostMem := rfl
@[simp] theorem State.wr_doms (r : Reg) (i j v : Nat) : (s.wr r i j v).doms = s.doms := rfl
@[simp] theorem State.wr_trigs (r : Reg) (i j v : Nat) : (s.wr r i j v).trigs = s.trigs := rfl
@[simp] theorem State.wr_batch (r : Reg) (i j v : Nat) : (s.wr r i j v).batch = s.batch := rfl
@[simp] theorem State.wr_dueNext (r : Reg) (i j v : Nat) : (s.wr r i j v).dueNext = s.dueNext := rfl
@[simp] theorem State.wr_extents (r : Reg) (i j v : Nat) : (s.wr r i j v).extents = s.extents := rfl
@[simp] theorem State.wr_lindex (r : Reg) (i j v : Nat) : (s.wr r i j v).lindex = s.lindex := rfl
@[simp] theorem State.wr_partitions (r : Reg) (i j v : Nat) : (s.wr r i j v).partitions = s.partitions := rfl
@[simp] theorem State.wr_owners (r : Reg) (i j v : Nat) : (s.wr r i j v).owners = s.owners := rfl
@[simp] theorem State.wr_mapDram (r : Reg) (i j v : Nat) : (s.wr r i j v).mapDram = s.mapDram := rfl
@[simp] theorem State.wr_mapLog (r : Reg) (i j v : Nat) : (s.wr r i j v).mapLog = s.mapLog := rfl
@[simp] theorem State.wr_oldRuns (r : Reg) (i j v : Nat) : (s.wr r i j v).oldRuns = s.oldRuns := rfl
@[simp] theorem State.wr_alloc (r : Reg) (i j v : Nat) : (s.wr r i j v).alloc = s.alloc := rfl
@[simp] theorem State.wr_sectors (r : Reg) (i j v : Nat) : (s.wr r i j v).sectors = s.sectors := rfl
@[simp] theorem State.wr_keys (r : Reg) (i j v : Nat) : (s.wr r i j v).keys = s.keys := rfl
@[simp] theorem State.wr_volumes (r : Reg) (i j v : Nat) : (s.wr r i j v).volumes = s.volumes := rfl
@[simp] theorem State.wr_unitRecs (r : Reg) (i j v : Nat) : (s.wr r i j v).unitRecs = s.unitRecs := rfl
@[simp] theorem State.wr_frames (r : Reg) (i j v : Nat) : (s.wr r i j v).frames = s.frames := rfl
@[simp] theorem State.wr_staged (r : Reg) (i j v : Nat) : (s.wr r i j v).staged = s.staged := rfl
@[simp] theorem State.wr_streams (r : Reg) (i j v : Nat) : (s.wr r i j v).streams = s.streams := rfl
@[simp] theorem State.wr_chunks (r : Reg) (i j v : Nat) : (s.wr r i j v).chunks = s.chunks := rfl
@[simp] theorem State.wr_frags (r : Reg) (i j v : Nat) : (s.wr r i j v).frags = s.frags := rfl
@[simp] theorem State.wr_chans (r : Reg) (i j v : Nat) : (s.wr r i j v).chans = s.chans := rfl
@[simp] theorem State.wr_banks (r : Reg) (i j v : Nat) : (s.wr r i j v).banks = s.banks := rfl
@[simp] theorem State.wr_urn (r : Reg) (i j v : Nat) : (s.wr r i j v).urn = s.urn := rfl
@[simp] theorem State.wr_bufs (r : Reg) (i j v : Nat) : (s.wr r i j v).bufs = s.bufs := rfl
@[simp] theorem State.wr_svc (r : Reg) (i j v : Nat) : (s.wr r i j v).svc = s.svc := rfl
@[simp] theorem State.wr_pairs (r : Reg) (i j v : Nat) : (s.wr r i j v).pairs = s.pairs := rfl
@[simp] theorem State.wr_blendRuns (r : Reg) (i j v : Nat) : (s.wr r i j v).blendRuns = s.blendRuns := rfl
@[simp] theorem State.wr_links (r : Reg) (i j v : Nat) : (s.wr r i j v).links = s.links := rfl
@[simp] theorem State.wr_lsTable (r : Reg) (i j v : Nat) : (s.wr r i j v).lsTable = s.lsTable := rfl
@[simp] theorem State.wr_pins (r : Reg) (i j v : Nat) : (s.wr r i j v).pins = s.pins := rfl
@[simp] theorem State.wr_parts (r : Reg) (i j v : Nat) : (s.wr r i j v).parts = s.parts := rfl
@[simp] theorem State.wr_asks (r : Reg) (i j v : Nat) : (s.wr r i j v).asks = s.asks := rfl
@[simp] theorem State.wr_evRing (r : Reg) (i j v : Nat) : (s.wr r i j v).evRing = s.evRing := rfl
@[simp] theorem State.wr_evOpen (r : Reg) (i j v : Nat) : (s.wr r i j v).evOpen = s.evOpen := rfl
@[simp] theorem State.wr_evSent (r : Reg) (i j v : Nat) : (s.wr r i j v).evSent = s.evSent := rfl
@[simp] theorem State.wr_bus (r : Reg) (i j v : Nat) : (s.wr r i j v).bus = s.bus := rfl
@[simp] theorem State.wr_attn (r : Reg) (i j v : Nat) : (s.wr r i j v).attn = s.attn := rfl
@[simp] theorem State.wr_xfer (r : Reg) (i j v : Nat) : (s.wr r i j v).xfer = s.xfer := rfl
@[simp] theorem State.wr_halted (r : Reg) (i j v : Nat) : (s.wr r i j v).halted = s.halted := rfl
@[simp] theorem State.wr_starting (r : Reg) (i j v : Nat) : (s.wr r i j v).starting = s.starting := rfl
@[simp] theorem State.wr_twbPos (r : Reg) (i j v : Nat) : (s.wr r i j v).twbPos = s.twbPos := rfl
@[simp] theorem State.wr_cmd (r : Reg) (i j v : Nat) (t' : Nat) : (s.wr r i j v).cmd t' = s.cmd t' := rfl
@[simp] theorem State.wr_fn (r : Reg) (i j v : Nat) (f' : Nat) : (s.wr r i j v).fn f' = s.fn f' := rfl
@[simp] theorem State.wr_dom (r : Reg) (i j v : Nat) (d' : Nat) : (s.wr r i j v).dom d' = s.dom d' := rfl

@[simp] theorem State.setFld_pending (f : Fld) (v i j : Nat) : (s.setFld f v i j).pending = s.pending := rfl
@[simp] theorem State.setFld_us (f : Fld) (v i j : Nat) : (s.setFld f v i j).us = s.us := rfl
@[simp] theorem State.setFld_clockStop (f : Fld) (v i j : Nat) : (s.setFld f v i j).clockStop = s.clockStop := rfl
@[simp] theorem State.setFld_freeCtr (f : Fld) (v i j : Nat) : (s.setFld f v i j).freeCtr = s.freeCtr := rfl
@[simp] theorem State.setFld_out (f : Fld) (v i j : Nat) : (s.setFld f v i j).out = s.out := rfl
@[simp] theorem State.setFld_fns (f : Fld) (v i j : Nat) : (s.setFld f v i j).fns = s.fns := rfl
@[simp] theorem State.setFld_coal (f : Fld) (v i j : Nat) : (s.setFld f v i j).coal = s.coal := rfl
@[simp] theorem State.setFld_sqs (f : Fld) (v i j : Nat) : (s.setFld f v i j).sqs = s.sqs := rfl
@[simp] theorem State.setFld_cqs (f : Fld) (v i j : Nat) : (s.setFld f v i j).cqs = s.cqs := rfl
@[simp] theorem State.setFld_cmds (f : Fld) (v i j : Nat) : (s.setFld f v i j).cmds = s.cmds := rfl
@[simp] theorem State.setFld_nextTag (f : Fld) (v i j : Nat) : (s.setFld f v i j).nextTag = s.nextTag := rfl
@[simp] theorem State.setFld_hostMem (f : Fld) (v i j : Nat) : (s.setFld f v i j).hostMem = s.hostMem := rfl
@[simp] theorem State.setFld_doms (f : Fld) (v i j : Nat) : (s.setFld f v i j).doms = s.doms := rfl
@[simp] theorem State.setFld_trigs (f : Fld) (v i j : Nat) : (s.setFld f v i j).trigs = s.trigs := rfl
@[simp] theorem State.setFld_batch (f : Fld) (v i j : Nat) : (s.setFld f v i j).batch = s.batch := rfl
@[simp] theorem State.setFld_dueNext (f : Fld) (v i j : Nat) : (s.setFld f v i j).dueNext = s.dueNext := rfl
@[simp] theorem State.setFld_extents (f : Fld) (v i j : Nat) : (s.setFld f v i j).extents = s.extents := rfl
@[simp] theorem State.setFld_lindex (f : Fld) (v i j : Nat) : (s.setFld f v i j).lindex = s.lindex := rfl
@[simp] theorem State.setFld_partitions (f : Fld) (v i j : Nat) : (s.setFld f v i j).partitions = s.partitions := rfl
@[simp] theorem State.setFld_owners (f : Fld) (v i j : Nat) : (s.setFld f v i j).owners = s.owners := rfl
@[simp] theorem State.setFld_mapDram (f : Fld) (v i j : Nat) : (s.setFld f v i j).mapDram = s.mapDram := rfl
@[simp] theorem State.setFld_mapLog (f : Fld) (v i j : Nat) : (s.setFld f v i j).mapLog = s.mapLog := rfl
@[simp] theorem State.setFld_oldRuns (f : Fld) (v i j : Nat) : (s.setFld f v i j).oldRuns = s.oldRuns := rfl
@[simp] theorem State.setFld_alloc (f : Fld) (v i j : Nat) : (s.setFld f v i j).alloc = s.alloc := rfl
@[simp] theorem State.setFld_sectors (f : Fld) (v i j : Nat) : (s.setFld f v i j).sectors = s.sectors := rfl
@[simp] theorem State.setFld_keys (f : Fld) (v i j : Nat) : (s.setFld f v i j).keys = s.keys := rfl
@[simp] theorem State.setFld_volumes (f : Fld) (v i j : Nat) : (s.setFld f v i j).volumes = s.volumes := rfl
@[simp] theorem State.setFld_unitRecs (f : Fld) (v i j : Nat) : (s.setFld f v i j).unitRecs = s.unitRecs := rfl
@[simp] theorem State.setFld_frames (f : Fld) (v i j : Nat) : (s.setFld f v i j).frames = s.frames := rfl
@[simp] theorem State.setFld_staged (f : Fld) (v i j : Nat) : (s.setFld f v i j).staged = s.staged := rfl
@[simp] theorem State.setFld_streams (f : Fld) (v i j : Nat) : (s.setFld f v i j).streams = s.streams := rfl
@[simp] theorem State.setFld_chunks (f : Fld) (v i j : Nat) : (s.setFld f v i j).chunks = s.chunks := rfl
@[simp] theorem State.setFld_frags (f : Fld) (v i j : Nat) : (s.setFld f v i j).frags = s.frags := rfl
@[simp] theorem State.setFld_chans (f : Fld) (v i j : Nat) : (s.setFld f v i j).chans = s.chans := rfl
@[simp] theorem State.setFld_banks (f : Fld) (v i j : Nat) : (s.setFld f v i j).banks = s.banks := rfl
@[simp] theorem State.setFld_urn (f : Fld) (v i j : Nat) : (s.setFld f v i j).urn = s.urn := rfl
@[simp] theorem State.setFld_bufs (f : Fld) (v i j : Nat) : (s.setFld f v i j).bufs = s.bufs := rfl
@[simp] theorem State.setFld_svc (f : Fld) (v i j : Nat) : (s.setFld f v i j).svc = s.svc := rfl
@[simp] theorem State.setFld_pairs (f : Fld) (v i j : Nat) : (s.setFld f v i j).pairs = s.pairs := rfl
@[simp] theorem State.setFld_blendRuns (f : Fld) (v i j : Nat) : (s.setFld f v i j).blendRuns = s.blendRuns := rfl
@[simp] theorem State.setFld_links (f : Fld) (v i j : Nat) : (s.setFld f v i j).links = s.links := rfl
@[simp] theorem State.setFld_lsTable (f : Fld) (v i j : Nat) : (s.setFld f v i j).lsTable = s.lsTable := rfl
@[simp] theorem State.setFld_pins (f : Fld) (v i j : Nat) : (s.setFld f v i j).pins = s.pins := rfl
@[simp] theorem State.setFld_parts (f : Fld) (v i j : Nat) : (s.setFld f v i j).parts = s.parts := rfl
@[simp] theorem State.setFld_asks (f : Fld) (v i j : Nat) : (s.setFld f v i j).asks = s.asks := rfl
@[simp] theorem State.setFld_evRing (f : Fld) (v i j : Nat) : (s.setFld f v i j).evRing = s.evRing := rfl
@[simp] theorem State.setFld_evOpen (f : Fld) (v i j : Nat) : (s.setFld f v i j).evOpen = s.evOpen := rfl
@[simp] theorem State.setFld_evSent (f : Fld) (v i j : Nat) : (s.setFld f v i j).evSent = s.evSent := rfl
@[simp] theorem State.setFld_bus (f : Fld) (v i j : Nat) : (s.setFld f v i j).bus = s.bus := rfl
@[simp] theorem State.setFld_attn (f : Fld) (v i j : Nat) : (s.setFld f v i j).attn = s.attn := rfl
@[simp] theorem State.setFld_xfer (f : Fld) (v i j : Nat) : (s.setFld f v i j).xfer = s.xfer := rfl
@[simp] theorem State.setFld_halted (f : Fld) (v i j : Nat) : (s.setFld f v i j).halted = s.halted := rfl
@[simp] theorem State.setFld_starting (f : Fld) (v i j : Nat) : (s.setFld f v i j).starting = s.starting := rfl
@[simp] theorem State.setFld_twbPos (f : Fld) (v i j : Nat) : (s.setFld f v i j).twbPos = s.twbPos := rfl
@[simp] theorem State.setFld_cmd (f : Fld) (v i j : Nat) (t' : Nat) : (s.setFld f v i j).cmd t' = s.cmd t' := rfl
@[simp] theorem State.setFld_fn (f : Fld) (v i j : Nat) (f' : Nat) : (s.setFld f v i j).fn f' = s.fn f' := rfl
@[simp] theorem State.setFld_dom (f : Fld) (v i j : Nat) (d' : Nat) : (s.setFld f v i j).dom d' = s.dom d' := rfl

@[simp] theorem State.bump_pending (f : Fld) (n i j : Nat) : (s.bump f n i j).pending = s.pending := rfl
@[simp] theorem State.bump_us (f : Fld) (n i j : Nat) : (s.bump f n i j).us = s.us := rfl
@[simp] theorem State.bump_clockStop (f : Fld) (n i j : Nat) : (s.bump f n i j).clockStop = s.clockStop := rfl
@[simp] theorem State.bump_freeCtr (f : Fld) (n i j : Nat) : (s.bump f n i j).freeCtr = s.freeCtr := rfl
@[simp] theorem State.bump_out (f : Fld) (n i j : Nat) : (s.bump f n i j).out = s.out := rfl
@[simp] theorem State.bump_fns (f : Fld) (n i j : Nat) : (s.bump f n i j).fns = s.fns := rfl
@[simp] theorem State.bump_coal (f : Fld) (n i j : Nat) : (s.bump f n i j).coal = s.coal := rfl
@[simp] theorem State.bump_sqs (f : Fld) (n i j : Nat) : (s.bump f n i j).sqs = s.sqs := rfl
@[simp] theorem State.bump_cqs (f : Fld) (n i j : Nat) : (s.bump f n i j).cqs = s.cqs := rfl
@[simp] theorem State.bump_cmds (f : Fld) (n i j : Nat) : (s.bump f n i j).cmds = s.cmds := rfl
@[simp] theorem State.bump_nextTag (f : Fld) (n i j : Nat) : (s.bump f n i j).nextTag = s.nextTag := rfl
@[simp] theorem State.bump_hostMem (f : Fld) (n i j : Nat) : (s.bump f n i j).hostMem = s.hostMem := rfl
@[simp] theorem State.bump_doms (f : Fld) (n i j : Nat) : (s.bump f n i j).doms = s.doms := rfl
@[simp] theorem State.bump_trigs (f : Fld) (n i j : Nat) : (s.bump f n i j).trigs = s.trigs := rfl
@[simp] theorem State.bump_batch (f : Fld) (n i j : Nat) : (s.bump f n i j).batch = s.batch := rfl
@[simp] theorem State.bump_dueNext (f : Fld) (n i j : Nat) : (s.bump f n i j).dueNext = s.dueNext := rfl
@[simp] theorem State.bump_extents (f : Fld) (n i j : Nat) : (s.bump f n i j).extents = s.extents := rfl
@[simp] theorem State.bump_lindex (f : Fld) (n i j : Nat) : (s.bump f n i j).lindex = s.lindex := rfl
@[simp] theorem State.bump_partitions (f : Fld) (n i j : Nat) : (s.bump f n i j).partitions = s.partitions := rfl
@[simp] theorem State.bump_owners (f : Fld) (n i j : Nat) : (s.bump f n i j).owners = s.owners := rfl
@[simp] theorem State.bump_mapDram (f : Fld) (n i j : Nat) : (s.bump f n i j).mapDram = s.mapDram := rfl
@[simp] theorem State.bump_mapLog (f : Fld) (n i j : Nat) : (s.bump f n i j).mapLog = s.mapLog := rfl
@[simp] theorem State.bump_oldRuns (f : Fld) (n i j : Nat) : (s.bump f n i j).oldRuns = s.oldRuns := rfl
@[simp] theorem State.bump_alloc (f : Fld) (n i j : Nat) : (s.bump f n i j).alloc = s.alloc := rfl
@[simp] theorem State.bump_sectors (f : Fld) (n i j : Nat) : (s.bump f n i j).sectors = s.sectors := rfl
@[simp] theorem State.bump_keys (f : Fld) (n i j : Nat) : (s.bump f n i j).keys = s.keys := rfl
@[simp] theorem State.bump_volumes (f : Fld) (n i j : Nat) : (s.bump f n i j).volumes = s.volumes := rfl
@[simp] theorem State.bump_unitRecs (f : Fld) (n i j : Nat) : (s.bump f n i j).unitRecs = s.unitRecs := rfl
@[simp] theorem State.bump_frames (f : Fld) (n i j : Nat) : (s.bump f n i j).frames = s.frames := rfl
@[simp] theorem State.bump_staged (f : Fld) (n i j : Nat) : (s.bump f n i j).staged = s.staged := rfl
@[simp] theorem State.bump_streams (f : Fld) (n i j : Nat) : (s.bump f n i j).streams = s.streams := rfl
@[simp] theorem State.bump_chunks (f : Fld) (n i j : Nat) : (s.bump f n i j).chunks = s.chunks := rfl
@[simp] theorem State.bump_frags (f : Fld) (n i j : Nat) : (s.bump f n i j).frags = s.frags := rfl
@[simp] theorem State.bump_chans (f : Fld) (n i j : Nat) : (s.bump f n i j).chans = s.chans := rfl
@[simp] theorem State.bump_banks (f : Fld) (n i j : Nat) : (s.bump f n i j).banks = s.banks := rfl
@[simp] theorem State.bump_urn (f : Fld) (n i j : Nat) : (s.bump f n i j).urn = s.urn := rfl
@[simp] theorem State.bump_bufs (f : Fld) (n i j : Nat) : (s.bump f n i j).bufs = s.bufs := rfl
@[simp] theorem State.bump_svc (f : Fld) (n i j : Nat) : (s.bump f n i j).svc = s.svc := rfl
@[simp] theorem State.bump_pairs (f : Fld) (n i j : Nat) : (s.bump f n i j).pairs = s.pairs := rfl
@[simp] theorem State.bump_blendRuns (f : Fld) (n i j : Nat) : (s.bump f n i j).blendRuns = s.blendRuns := rfl
@[simp] theorem State.bump_links (f : Fld) (n i j : Nat) : (s.bump f n i j).links = s.links := rfl
@[simp] theorem State.bump_lsTable (f : Fld) (n i j : Nat) : (s.bump f n i j).lsTable = s.lsTable := rfl
@[simp] theorem State.bump_pins (f : Fld) (n i j : Nat) : (s.bump f n i j).pins = s.pins := rfl
@[simp] theorem State.bump_parts (f : Fld) (n i j : Nat) : (s.bump f n i j).parts = s.parts := rfl
@[simp] theorem State.bump_asks (f : Fld) (n i j : Nat) : (s.bump f n i j).asks = s.asks := rfl
@[simp] theorem State.bump_evRing (f : Fld) (n i j : Nat) : (s.bump f n i j).evRing = s.evRing := rfl
@[simp] theorem State.bump_evOpen (f : Fld) (n i j : Nat) : (s.bump f n i j).evOpen = s.evOpen := rfl
@[simp] theorem State.bump_evSent (f : Fld) (n i j : Nat) : (s.bump f n i j).evSent = s.evSent := rfl
@[simp] theorem State.bump_bus (f : Fld) (n i j : Nat) : (s.bump f n i j).bus = s.bus := rfl
@[simp] theorem State.bump_attn (f : Fld) (n i j : Nat) : (s.bump f n i j).attn = s.attn := rfl
@[simp] theorem State.bump_xfer (f : Fld) (n i j : Nat) : (s.bump f n i j).xfer = s.xfer := rfl
@[simp] theorem State.bump_halted (f : Fld) (n i j : Nat) : (s.bump f n i j).halted = s.halted := rfl
@[simp] theorem State.bump_starting (f : Fld) (n i j : Nat) : (s.bump f n i j).starting = s.starting := rfl
@[simp] theorem State.bump_twbPos (f : Fld) (n i j : Nat) : (s.bump f n i j).twbPos = s.twbPos := rfl
@[simp] theorem State.bump_cmd (f : Fld) (n i j : Nat) (t' : Nat) : (s.bump f n i j).cmd t' = s.cmd t' := rfl
@[simp] theorem State.bump_fn (f : Fld) (n i j : Nat) (f' : Nat) : (s.bump f n i j).fn f' = s.fn f' := rfl
@[simp] theorem State.bump_dom (f : Fld) (n i j : Nat) (d' : Nat) : (s.bump f n i j).dom d' = s.dom d' := rfl

@[simp] theorem State.tally_pending (f : Fld) (n i j : Nat) : (s.tally f n i j).pending = s.pending := rfl
@[simp] theorem State.tally_us (f : Fld) (n i j : Nat) : (s.tally f n i j).us = s.us := rfl
@[simp] theorem State.tally_clockStop (f : Fld) (n i j : Nat) : (s.tally f n i j).clockStop = s.clockStop := rfl
@[simp] theorem State.tally_freeCtr (f : Fld) (n i j : Nat) : (s.tally f n i j).freeCtr = s.freeCtr := rfl
@[simp] theorem State.tally_out (f : Fld) (n i j : Nat) : (s.tally f n i j).out = s.out := rfl
@[simp] theorem State.tally_fns (f : Fld) (n i j : Nat) : (s.tally f n i j).fns = s.fns := rfl
@[simp] theorem State.tally_coal (f : Fld) (n i j : Nat) : (s.tally f n i j).coal = s.coal := rfl
@[simp] theorem State.tally_sqs (f : Fld) (n i j : Nat) : (s.tally f n i j).sqs = s.sqs := rfl
@[simp] theorem State.tally_cqs (f : Fld) (n i j : Nat) : (s.tally f n i j).cqs = s.cqs := rfl
@[simp] theorem State.tally_cmds (f : Fld) (n i j : Nat) : (s.tally f n i j).cmds = s.cmds := rfl
@[simp] theorem State.tally_nextTag (f : Fld) (n i j : Nat) : (s.tally f n i j).nextTag = s.nextTag := rfl
@[simp] theorem State.tally_hostMem (f : Fld) (n i j : Nat) : (s.tally f n i j).hostMem = s.hostMem := rfl
@[simp] theorem State.tally_doms (f : Fld) (n i j : Nat) : (s.tally f n i j).doms = s.doms := rfl
@[simp] theorem State.tally_trigs (f : Fld) (n i j : Nat) : (s.tally f n i j).trigs = s.trigs := rfl
@[simp] theorem State.tally_batch (f : Fld) (n i j : Nat) : (s.tally f n i j).batch = s.batch := rfl
@[simp] theorem State.tally_dueNext (f : Fld) (n i j : Nat) : (s.tally f n i j).dueNext = s.dueNext := rfl
@[simp] theorem State.tally_extents (f : Fld) (n i j : Nat) : (s.tally f n i j).extents = s.extents := rfl
@[simp] theorem State.tally_lindex (f : Fld) (n i j : Nat) : (s.tally f n i j).lindex = s.lindex := rfl
@[simp] theorem State.tally_partitions (f : Fld) (n i j : Nat) : (s.tally f n i j).partitions = s.partitions := rfl
@[simp] theorem State.tally_owners (f : Fld) (n i j : Nat) : (s.tally f n i j).owners = s.owners := rfl
@[simp] theorem State.tally_mapDram (f : Fld) (n i j : Nat) : (s.tally f n i j).mapDram = s.mapDram := rfl
@[simp] theorem State.tally_mapLog (f : Fld) (n i j : Nat) : (s.tally f n i j).mapLog = s.mapLog := rfl
@[simp] theorem State.tally_oldRuns (f : Fld) (n i j : Nat) : (s.tally f n i j).oldRuns = s.oldRuns := rfl
@[simp] theorem State.tally_alloc (f : Fld) (n i j : Nat) : (s.tally f n i j).alloc = s.alloc := rfl
@[simp] theorem State.tally_sectors (f : Fld) (n i j : Nat) : (s.tally f n i j).sectors = s.sectors := rfl
@[simp] theorem State.tally_keys (f : Fld) (n i j : Nat) : (s.tally f n i j).keys = s.keys := rfl
@[simp] theorem State.tally_volumes (f : Fld) (n i j : Nat) : (s.tally f n i j).volumes = s.volumes := rfl
@[simp] theorem State.tally_unitRecs (f : Fld) (n i j : Nat) : (s.tally f n i j).unitRecs = s.unitRecs := rfl
@[simp] theorem State.tally_frames (f : Fld) (n i j : Nat) : (s.tally f n i j).frames = s.frames := rfl
@[simp] theorem State.tally_staged (f : Fld) (n i j : Nat) : (s.tally f n i j).staged = s.staged := rfl
@[simp] theorem State.tally_streams (f : Fld) (n i j : Nat) : (s.tally f n i j).streams = s.streams := rfl
@[simp] theorem State.tally_chunks (f : Fld) (n i j : Nat) : (s.tally f n i j).chunks = s.chunks := rfl
@[simp] theorem State.tally_frags (f : Fld) (n i j : Nat) : (s.tally f n i j).frags = s.frags := rfl
@[simp] theorem State.tally_chans (f : Fld) (n i j : Nat) : (s.tally f n i j).chans = s.chans := rfl
@[simp] theorem State.tally_banks (f : Fld) (n i j : Nat) : (s.tally f n i j).banks = s.banks := rfl
@[simp] theorem State.tally_urn (f : Fld) (n i j : Nat) : (s.tally f n i j).urn = s.urn := rfl
@[simp] theorem State.tally_bufs (f : Fld) (n i j : Nat) : (s.tally f n i j).bufs = s.bufs := rfl
@[simp] theorem State.tally_svc (f : Fld) (n i j : Nat) : (s.tally f n i j).svc = s.svc := rfl
@[simp] theorem State.tally_pairs (f : Fld) (n i j : Nat) : (s.tally f n i j).pairs = s.pairs := rfl
@[simp] theorem State.tally_blendRuns (f : Fld) (n i j : Nat) : (s.tally f n i j).blendRuns = s.blendRuns := rfl
@[simp] theorem State.tally_links (f : Fld) (n i j : Nat) : (s.tally f n i j).links = s.links := rfl
@[simp] theorem State.tally_lsTable (f : Fld) (n i j : Nat) : (s.tally f n i j).lsTable = s.lsTable := rfl
@[simp] theorem State.tally_pins (f : Fld) (n i j : Nat) : (s.tally f n i j).pins = s.pins := rfl
@[simp] theorem State.tally_parts (f : Fld) (n i j : Nat) : (s.tally f n i j).parts = s.parts := rfl
@[simp] theorem State.tally_asks (f : Fld) (n i j : Nat) : (s.tally f n i j).asks = s.asks := rfl
@[simp] theorem State.tally_evRing (f : Fld) (n i j : Nat) : (s.tally f n i j).evRing = s.evRing := rfl
@[simp] theorem State.tally_evOpen (f : Fld) (n i j : Nat) : (s.tally f n i j).evOpen = s.evOpen := rfl
@[simp] theorem State.tally_evSent (f : Fld) (n i j : Nat) : (s.tally f n i j).evSent = s.evSent := rfl
@[simp] theorem State.tally_bus (f : Fld) (n i j : Nat) : (s.tally f n i j).bus = s.bus := rfl
@[simp] theorem State.tally_attn (f : Fld) (n i j : Nat) : (s.tally f n i j).attn = s.attn := rfl
@[simp] theorem State.tally_xfer (f : Fld) (n i j : Nat) : (s.tally f n i j).xfer = s.xfer := rfl
@[simp] theorem State.tally_halted (f : Fld) (n i j : Nat) : (s.tally f n i j).halted = s.halted := rfl
@[simp] theorem State.tally_starting (f : Fld) (n i j : Nat) : (s.tally f n i j).starting = s.starting := rfl
@[simp] theorem State.tally_twbPos (f : Fld) (n i j : Nat) : (s.tally f n i j).twbPos = s.twbPos := rfl
@[simp] theorem State.tally_cmd (f : Fld) (n i j : Nat) (t' : Nat) : (s.tally f n i j).cmd t' = s.cmd t' := rfl
@[simp] theorem State.tally_fn (f : Fld) (n i j : Nat) (f' : Nat) : (s.tally f n i j).fn f' = s.fn f' := rfl
@[simp] theorem State.tally_dom (f : Fld) (n i j : Nat) (d' : Nat) : (s.tally f n i j).dom d' = s.dom d' := rfl

@[simp] theorem State.tookFree_pending : (s.tookFree).pending = s.pending := rfl
@[simp] theorem State.tookFree_regs : (s.tookFree).regs = s.regs := rfl
@[simp] theorem State.tookFree_us : (s.tookFree).us = s.us := rfl
@[simp] theorem State.tookFree_clockStop : (s.tookFree).clockStop = s.clockStop := rfl
@[simp] theorem State.tookFree_out : (s.tookFree).out = s.out := rfl
@[simp] theorem State.tookFree_fns : (s.tookFree).fns = s.fns := rfl
@[simp] theorem State.tookFree_coal : (s.tookFree).coal = s.coal := rfl
@[simp] theorem State.tookFree_sqs : (s.tookFree).sqs = s.sqs := rfl
@[simp] theorem State.tookFree_cqs : (s.tookFree).cqs = s.cqs := rfl
@[simp] theorem State.tookFree_cmds : (s.tookFree).cmds = s.cmds := rfl
@[simp] theorem State.tookFree_nextTag : (s.tookFree).nextTag = s.nextTag := rfl
@[simp] theorem State.tookFree_hostMem : (s.tookFree).hostMem = s.hostMem := rfl
@[simp] theorem State.tookFree_doms : (s.tookFree).doms = s.doms := rfl
@[simp] theorem State.tookFree_trigs : (s.tookFree).trigs = s.trigs := rfl
@[simp] theorem State.tookFree_batch : (s.tookFree).batch = s.batch := rfl
@[simp] theorem State.tookFree_dueNext : (s.tookFree).dueNext = s.dueNext := rfl
@[simp] theorem State.tookFree_extents : (s.tookFree).extents = s.extents := rfl
@[simp] theorem State.tookFree_lindex : (s.tookFree).lindex = s.lindex := rfl
@[simp] theorem State.tookFree_partitions : (s.tookFree).partitions = s.partitions := rfl
@[simp] theorem State.tookFree_owners : (s.tookFree).owners = s.owners := rfl
@[simp] theorem State.tookFree_mapDram : (s.tookFree).mapDram = s.mapDram := rfl
@[simp] theorem State.tookFree_mapLog : (s.tookFree).mapLog = s.mapLog := rfl
@[simp] theorem State.tookFree_oldRuns : (s.tookFree).oldRuns = s.oldRuns := rfl
@[simp] theorem State.tookFree_alloc : (s.tookFree).alloc = s.alloc := rfl
@[simp] theorem State.tookFree_sectors : (s.tookFree).sectors = s.sectors := rfl
@[simp] theorem State.tookFree_keys : (s.tookFree).keys = s.keys := rfl
@[simp] theorem State.tookFree_volumes : (s.tookFree).volumes = s.volumes := rfl
@[simp] theorem State.tookFree_unitRecs : (s.tookFree).unitRecs = s.unitRecs := rfl
@[simp] theorem State.tookFree_frames : (s.tookFree).frames = s.frames := rfl
@[simp] theorem State.tookFree_staged : (s.tookFree).staged = s.staged := rfl
@[simp] theorem State.tookFree_streams : (s.tookFree).streams = s.streams := rfl
@[simp] theorem State.tookFree_chunks : (s.tookFree).chunks = s.chunks := rfl
@[simp] theorem State.tookFree_frags : (s.tookFree).frags = s.frags := rfl
@[simp] theorem State.tookFree_chans : (s.tookFree).chans = s.chans := rfl
@[simp] theorem State.tookFree_banks : (s.tookFree).banks = s.banks := rfl
@[simp] theorem State.tookFree_urn : (s.tookFree).urn = s.urn := rfl
@[simp] theorem State.tookFree_bufs : (s.tookFree).bufs = s.bufs := rfl
@[simp] theorem State.tookFree_svc : (s.tookFree).svc = s.svc := rfl
@[simp] theorem State.tookFree_pairs : (s.tookFree).pairs = s.pairs := rfl
@[simp] theorem State.tookFree_blendRuns : (s.tookFree).blendRuns = s.blendRuns := rfl
@[simp] theorem State.tookFree_links : (s.tookFree).links = s.links := rfl
@[simp] theorem State.tookFree_lsTable : (s.tookFree).lsTable = s.lsTable := rfl
@[simp] theorem State.tookFree_pins : (s.tookFree).pins = s.pins := rfl
@[simp] theorem State.tookFree_parts : (s.tookFree).parts = s.parts := rfl
@[simp] theorem State.tookFree_asks : (s.tookFree).asks = s.asks := rfl
@[simp] theorem State.tookFree_evRing : (s.tookFree).evRing = s.evRing := rfl
@[simp] theorem State.tookFree_evOpen : (s.tookFree).evOpen = s.evOpen := rfl
@[simp] theorem State.tookFree_evSent : (s.tookFree).evSent = s.evSent := rfl
@[simp] theorem State.tookFree_bus : (s.tookFree).bus = s.bus := rfl
@[simp] theorem State.tookFree_attn : (s.tookFree).attn = s.attn := rfl
@[simp] theorem State.tookFree_xfer : (s.tookFree).xfer = s.xfer := rfl
@[simp] theorem State.tookFree_halted : (s.tookFree).halted = s.halted := rfl
@[simp] theorem State.tookFree_starting : (s.tookFree).starting = s.starting := rfl
@[simp] theorem State.tookFree_twbPos : (s.tookFree).twbPos = s.twbPos := rfl
@[simp] theorem State.tookFree_rd (r' : Reg) (i' j' : Nat) : (s.tookFree).rd r' i' j' = s.rd r' i' j' := rfl
@[simp] theorem State.tookFree_fld (f' : Fld) (i' j' : Nat) : (s.tookFree).fld f' i' j' = s.fld f' i' j' := rfl
@[simp] theorem State.tookFree_flag (f' : Fld) (i' j' : Nat) : (s.tookFree).flag f' i' j' = s.flag f' i' j' := rfl
@[simp] theorem State.tookFree_cmd (t' : Nat) : (s.tookFree).cmd t' = s.cmd t' := rfl
@[simp] theorem State.tookFree_fn (f' : Nat) : (s.tookFree).fn f' = s.fn f' := rfl
@[simp] theorem State.tookFree_dom (d' : Nat) : (s.tookFree).dom d' = s.dom d' := rfl

@[simp] theorem State.hostWrite_pending (f a : Nat) (bs : List Byte) : (s.hostWrite f a bs).pending = s.pending := rfl
@[simp] theorem State.hostWrite_regs (f a : Nat) (bs : List Byte) : (s.hostWrite f a bs).regs = s.regs := rfl
@[simp] theorem State.hostWrite_us (f a : Nat) (bs : List Byte) : (s.hostWrite f a bs).us = s.us := rfl
@[simp] theorem State.hostWrite_clockStop (f a : Nat) (bs : List Byte) : (s.hostWrite f a bs).clockStop = s.clockStop := rfl
@[simp] theorem State.hostWrite_freeCtr (f a : Nat) (bs : List Byte) : (s.hostWrite f a bs).freeCtr = s.freeCtr := rfl
@[simp] theorem State.hostWrite_out (f a : Nat) (bs : List Byte) : (s.hostWrite f a bs).out = s.out := rfl
@[simp] theorem State.hostWrite_fns (f a : Nat) (bs : List Byte) : (s.hostWrite f a bs).fns = s.fns := rfl
@[simp] theorem State.hostWrite_coal (f a : Nat) (bs : List Byte) : (s.hostWrite f a bs).coal = s.coal := rfl
@[simp] theorem State.hostWrite_sqs (f a : Nat) (bs : List Byte) : (s.hostWrite f a bs).sqs = s.sqs := rfl
@[simp] theorem State.hostWrite_cqs (f a : Nat) (bs : List Byte) : (s.hostWrite f a bs).cqs = s.cqs := rfl
@[simp] theorem State.hostWrite_cmds (f a : Nat) (bs : List Byte) : (s.hostWrite f a bs).cmds = s.cmds := rfl
@[simp] theorem State.hostWrite_nextTag (f a : Nat) (bs : List Byte) : (s.hostWrite f a bs).nextTag = s.nextTag := rfl
@[simp] theorem State.hostWrite_doms (f a : Nat) (bs : List Byte) : (s.hostWrite f a bs).doms = s.doms := rfl
@[simp] theorem State.hostWrite_trigs (f a : Nat) (bs : List Byte) : (s.hostWrite f a bs).trigs = s.trigs := rfl
@[simp] theorem State.hostWrite_batch (f a : Nat) (bs : List Byte) : (s.hostWrite f a bs).batch = s.batch := rfl
@[simp] theorem State.hostWrite_dueNext (f a : Nat) (bs : List Byte) : (s.hostWrite f a bs).dueNext = s.dueNext := rfl
@[simp] theorem State.hostWrite_extents (f a : Nat) (bs : List Byte) : (s.hostWrite f a bs).extents = s.extents := rfl
@[simp] theorem State.hostWrite_lindex (f a : Nat) (bs : List Byte) : (s.hostWrite f a bs).lindex = s.lindex := rfl
@[simp] theorem State.hostWrite_partitions (f a : Nat) (bs : List Byte) : (s.hostWrite f a bs).partitions = s.partitions := rfl
@[simp] theorem State.hostWrite_owners (f a : Nat) (bs : List Byte) : (s.hostWrite f a bs).owners = s.owners := rfl
@[simp] theorem State.hostWrite_mapDram (f a : Nat) (bs : List Byte) : (s.hostWrite f a bs).mapDram = s.mapDram := rfl
@[simp] theorem State.hostWrite_mapLog (f a : Nat) (bs : List Byte) : (s.hostWrite f a bs).mapLog = s.mapLog := rfl
@[simp] theorem State.hostWrite_oldRuns (f a : Nat) (bs : List Byte) : (s.hostWrite f a bs).oldRuns = s.oldRuns := rfl
@[simp] theorem State.hostWrite_alloc (f a : Nat) (bs : List Byte) : (s.hostWrite f a bs).alloc = s.alloc := rfl
@[simp] theorem State.hostWrite_sectors (f a : Nat) (bs : List Byte) : (s.hostWrite f a bs).sectors = s.sectors := rfl
@[simp] theorem State.hostWrite_keys (f a : Nat) (bs : List Byte) : (s.hostWrite f a bs).keys = s.keys := rfl
@[simp] theorem State.hostWrite_volumes (f a : Nat) (bs : List Byte) : (s.hostWrite f a bs).volumes = s.volumes := rfl
@[simp] theorem State.hostWrite_unitRecs (f a : Nat) (bs : List Byte) : (s.hostWrite f a bs).unitRecs = s.unitRecs := rfl
@[simp] theorem State.hostWrite_frames (f a : Nat) (bs : List Byte) : (s.hostWrite f a bs).frames = s.frames := rfl
@[simp] theorem State.hostWrite_staged (f a : Nat) (bs : List Byte) : (s.hostWrite f a bs).staged = s.staged := rfl
@[simp] theorem State.hostWrite_streams (f a : Nat) (bs : List Byte) : (s.hostWrite f a bs).streams = s.streams := rfl
@[simp] theorem State.hostWrite_chunks (f a : Nat) (bs : List Byte) : (s.hostWrite f a bs).chunks = s.chunks := rfl
@[simp] theorem State.hostWrite_frags (f a : Nat) (bs : List Byte) : (s.hostWrite f a bs).frags = s.frags := rfl
@[simp] theorem State.hostWrite_chans (f a : Nat) (bs : List Byte) : (s.hostWrite f a bs).chans = s.chans := rfl
@[simp] theorem State.hostWrite_banks (f a : Nat) (bs : List Byte) : (s.hostWrite f a bs).banks = s.banks := rfl
@[simp] theorem State.hostWrite_urn (f a : Nat) (bs : List Byte) : (s.hostWrite f a bs).urn = s.urn := rfl
@[simp] theorem State.hostWrite_bufs (f a : Nat) (bs : List Byte) : (s.hostWrite f a bs).bufs = s.bufs := rfl
@[simp] theorem State.hostWrite_svc (f a : Nat) (bs : List Byte) : (s.hostWrite f a bs).svc = s.svc := rfl
@[simp] theorem State.hostWrite_pairs (f a : Nat) (bs : List Byte) : (s.hostWrite f a bs).pairs = s.pairs := rfl
@[simp] theorem State.hostWrite_blendRuns (f a : Nat) (bs : List Byte) : (s.hostWrite f a bs).blendRuns = s.blendRuns := rfl
@[simp] theorem State.hostWrite_links (f a : Nat) (bs : List Byte) : (s.hostWrite f a bs).links = s.links := rfl
@[simp] theorem State.hostWrite_lsTable (f a : Nat) (bs : List Byte) : (s.hostWrite f a bs).lsTable = s.lsTable := rfl
@[simp] theorem State.hostWrite_pins (f a : Nat) (bs : List Byte) : (s.hostWrite f a bs).pins = s.pins := rfl
@[simp] theorem State.hostWrite_parts (f a : Nat) (bs : List Byte) : (s.hostWrite f a bs).parts = s.parts := rfl
@[simp] theorem State.hostWrite_asks (f a : Nat) (bs : List Byte) : (s.hostWrite f a bs).asks = s.asks := rfl
@[simp] theorem State.hostWrite_evRing (f a : Nat) (bs : List Byte) : (s.hostWrite f a bs).evRing = s.evRing := rfl
@[simp] theorem State.hostWrite_evOpen (f a : Nat) (bs : List Byte) : (s.hostWrite f a bs).evOpen = s.evOpen := rfl
@[simp] theorem State.hostWrite_evSent (f a : Nat) (bs : List Byte) : (s.hostWrite f a bs).evSent = s.evSent := rfl
@[simp] theorem State.hostWrite_bus (f a : Nat) (bs : List Byte) : (s.hostWrite f a bs).bus = s.bus := rfl
@[simp] theorem State.hostWrite_attn (f a : Nat) (bs : List Byte) : (s.hostWrite f a bs).attn = s.attn := rfl
@[simp] theorem State.hostWrite_xfer (f a : Nat) (bs : List Byte) : (s.hostWrite f a bs).xfer = s.xfer := rfl
@[simp] theorem State.hostWrite_halted (f a : Nat) (bs : List Byte) : (s.hostWrite f a bs).halted = s.halted := rfl
@[simp] theorem State.hostWrite_starting (f a : Nat) (bs : List Byte) : (s.hostWrite f a bs).starting = s.starting := rfl
@[simp] theorem State.hostWrite_twbPos (f a : Nat) (bs : List Byte) : (s.hostWrite f a bs).twbPos = s.twbPos := rfl
@[simp] theorem State.hostWrite_rd (f a : Nat) (bs : List Byte) (r' : Reg) (i' j' : Nat) : (s.hostWrite f a bs).rd r' i' j' = s.rd r' i' j' := rfl
@[simp] theorem State.hostWrite_fld (f a : Nat) (bs : List Byte) (f' : Fld) (i' j' : Nat) : (s.hostWrite f a bs).fld f' i' j' = s.fld f' i' j' := rfl
@[simp] theorem State.hostWrite_flag (f a : Nat) (bs : List Byte) (f' : Fld) (i' j' : Nat) : (s.hostWrite f a bs).flag f' i' j' = s.flag f' i' j' := rfl
@[simp] theorem State.hostWrite_cmd (f a : Nat) (bs : List Byte) (t' : Nat) : (s.hostWrite f a bs).cmd t' = s.cmd t' := rfl
@[simp] theorem State.hostWrite_fn (f a : Nat) (bs : List Byte) (f' : Nat) : (s.hostWrite f a bs).fn f' = s.fn f' := rfl
@[simp] theorem State.hostWrite_dom (f a : Nat) (bs : List Byte) (d' : Nat) : (s.hostWrite f a bs).dom d' = s.dom d' := rfl

@[simp] theorem State.urnWrite_pending (o : Nat) (bs : List Byte) : (s.urnWrite o bs).pending = s.pending := rfl
@[simp] theorem State.urnWrite_regs (o : Nat) (bs : List Byte) : (s.urnWrite o bs).regs = s.regs := rfl
@[simp] theorem State.urnWrite_us (o : Nat) (bs : List Byte) : (s.urnWrite o bs).us = s.us := rfl
@[simp] theorem State.urnWrite_clockStop (o : Nat) (bs : List Byte) : (s.urnWrite o bs).clockStop = s.clockStop := rfl
@[simp] theorem State.urnWrite_freeCtr (o : Nat) (bs : List Byte) : (s.urnWrite o bs).freeCtr = s.freeCtr := rfl
@[simp] theorem State.urnWrite_out (o : Nat) (bs : List Byte) : (s.urnWrite o bs).out = s.out := rfl
@[simp] theorem State.urnWrite_fns (o : Nat) (bs : List Byte) : (s.urnWrite o bs).fns = s.fns := rfl
@[simp] theorem State.urnWrite_coal (o : Nat) (bs : List Byte) : (s.urnWrite o bs).coal = s.coal := rfl
@[simp] theorem State.urnWrite_sqs (o : Nat) (bs : List Byte) : (s.urnWrite o bs).sqs = s.sqs := rfl
@[simp] theorem State.urnWrite_cqs (o : Nat) (bs : List Byte) : (s.urnWrite o bs).cqs = s.cqs := rfl
@[simp] theorem State.urnWrite_cmds (o : Nat) (bs : List Byte) : (s.urnWrite o bs).cmds = s.cmds := rfl
@[simp] theorem State.urnWrite_nextTag (o : Nat) (bs : List Byte) : (s.urnWrite o bs).nextTag = s.nextTag := rfl
@[simp] theorem State.urnWrite_hostMem (o : Nat) (bs : List Byte) : (s.urnWrite o bs).hostMem = s.hostMem := rfl
@[simp] theorem State.urnWrite_doms (o : Nat) (bs : List Byte) : (s.urnWrite o bs).doms = s.doms := rfl
@[simp] theorem State.urnWrite_trigs (o : Nat) (bs : List Byte) : (s.urnWrite o bs).trigs = s.trigs := rfl
@[simp] theorem State.urnWrite_batch (o : Nat) (bs : List Byte) : (s.urnWrite o bs).batch = s.batch := rfl
@[simp] theorem State.urnWrite_dueNext (o : Nat) (bs : List Byte) : (s.urnWrite o bs).dueNext = s.dueNext := rfl
@[simp] theorem State.urnWrite_extents (o : Nat) (bs : List Byte) : (s.urnWrite o bs).extents = s.extents := rfl
@[simp] theorem State.urnWrite_lindex (o : Nat) (bs : List Byte) : (s.urnWrite o bs).lindex = s.lindex := rfl
@[simp] theorem State.urnWrite_partitions (o : Nat) (bs : List Byte) : (s.urnWrite o bs).partitions = s.partitions := rfl
@[simp] theorem State.urnWrite_owners (o : Nat) (bs : List Byte) : (s.urnWrite o bs).owners = s.owners := rfl
@[simp] theorem State.urnWrite_mapDram (o : Nat) (bs : List Byte) : (s.urnWrite o bs).mapDram = s.mapDram := rfl
@[simp] theorem State.urnWrite_mapLog (o : Nat) (bs : List Byte) : (s.urnWrite o bs).mapLog = s.mapLog := rfl
@[simp] theorem State.urnWrite_oldRuns (o : Nat) (bs : List Byte) : (s.urnWrite o bs).oldRuns = s.oldRuns := rfl
@[simp] theorem State.urnWrite_alloc (o : Nat) (bs : List Byte) : (s.urnWrite o bs).alloc = s.alloc := rfl
@[simp] theorem State.urnWrite_sectors (o : Nat) (bs : List Byte) : (s.urnWrite o bs).sectors = s.sectors := rfl
@[simp] theorem State.urnWrite_keys (o : Nat) (bs : List Byte) : (s.urnWrite o bs).keys = s.keys := rfl
@[simp] theorem State.urnWrite_volumes (o : Nat) (bs : List Byte) : (s.urnWrite o bs).volumes = s.volumes := rfl
@[simp] theorem State.urnWrite_unitRecs (o : Nat) (bs : List Byte) : (s.urnWrite o bs).unitRecs = s.unitRecs := rfl
@[simp] theorem State.urnWrite_frames (o : Nat) (bs : List Byte) : (s.urnWrite o bs).frames = s.frames := rfl
@[simp] theorem State.urnWrite_staged (o : Nat) (bs : List Byte) : (s.urnWrite o bs).staged = s.staged := rfl
@[simp] theorem State.urnWrite_streams (o : Nat) (bs : List Byte) : (s.urnWrite o bs).streams = s.streams := rfl
@[simp] theorem State.urnWrite_chunks (o : Nat) (bs : List Byte) : (s.urnWrite o bs).chunks = s.chunks := rfl
@[simp] theorem State.urnWrite_frags (o : Nat) (bs : List Byte) : (s.urnWrite o bs).frags = s.frags := rfl
@[simp] theorem State.urnWrite_chans (o : Nat) (bs : List Byte) : (s.urnWrite o bs).chans = s.chans := rfl
@[simp] theorem State.urnWrite_banks (o : Nat) (bs : List Byte) : (s.urnWrite o bs).banks = s.banks := rfl
@[simp] theorem State.urnWrite_bufs (o : Nat) (bs : List Byte) : (s.urnWrite o bs).bufs = s.bufs := rfl
@[simp] theorem State.urnWrite_svc (o : Nat) (bs : List Byte) : (s.urnWrite o bs).svc = s.svc := rfl
@[simp] theorem State.urnWrite_pairs (o : Nat) (bs : List Byte) : (s.urnWrite o bs).pairs = s.pairs := rfl
@[simp] theorem State.urnWrite_blendRuns (o : Nat) (bs : List Byte) : (s.urnWrite o bs).blendRuns = s.blendRuns := rfl
@[simp] theorem State.urnWrite_links (o : Nat) (bs : List Byte) : (s.urnWrite o bs).links = s.links := rfl
@[simp] theorem State.urnWrite_lsTable (o : Nat) (bs : List Byte) : (s.urnWrite o bs).lsTable = s.lsTable := rfl
@[simp] theorem State.urnWrite_pins (o : Nat) (bs : List Byte) : (s.urnWrite o bs).pins = s.pins := rfl
@[simp] theorem State.urnWrite_parts (o : Nat) (bs : List Byte) : (s.urnWrite o bs).parts = s.parts := rfl
@[simp] theorem State.urnWrite_asks (o : Nat) (bs : List Byte) : (s.urnWrite o bs).asks = s.asks := rfl
@[simp] theorem State.urnWrite_evRing (o : Nat) (bs : List Byte) : (s.urnWrite o bs).evRing = s.evRing := rfl
@[simp] theorem State.urnWrite_evOpen (o : Nat) (bs : List Byte) : (s.urnWrite o bs).evOpen = s.evOpen := rfl
@[simp] theorem State.urnWrite_evSent (o : Nat) (bs : List Byte) : (s.urnWrite o bs).evSent = s.evSent := rfl
@[simp] theorem State.urnWrite_bus (o : Nat) (bs : List Byte) : (s.urnWrite o bs).bus = s.bus := rfl
@[simp] theorem State.urnWrite_attn (o : Nat) (bs : List Byte) : (s.urnWrite o bs).attn = s.attn := rfl
@[simp] theorem State.urnWrite_xfer (o : Nat) (bs : List Byte) : (s.urnWrite o bs).xfer = s.xfer := rfl
@[simp] theorem State.urnWrite_halted (o : Nat) (bs : List Byte) : (s.urnWrite o bs).halted = s.halted := rfl
@[simp] theorem State.urnWrite_starting (o : Nat) (bs : List Byte) : (s.urnWrite o bs).starting = s.starting := rfl
@[simp] theorem State.urnWrite_twbPos (o : Nat) (bs : List Byte) : (s.urnWrite o bs).twbPos = s.twbPos := rfl
@[simp] theorem State.urnWrite_rd (o : Nat) (bs : List Byte) (r' : Reg) (i' j' : Nat) : (s.urnWrite o bs).rd r' i' j' = s.rd r' i' j' := rfl
@[simp] theorem State.urnWrite_fld (o : Nat) (bs : List Byte) (f' : Fld) (i' j' : Nat) : (s.urnWrite o bs).fld f' i' j' = s.fld f' i' j' := rfl
@[simp] theorem State.urnWrite_flag (o : Nat) (bs : List Byte) (f' : Fld) (i' j' : Nat) : (s.urnWrite o bs).flag f' i' j' = s.flag f' i' j' := rfl
@[simp] theorem State.urnWrite_cmd (o : Nat) (bs : List Byte) (t' : Nat) : (s.urnWrite o bs).cmd t' = s.cmd t' := rfl
@[simp] theorem State.urnWrite_fn (o : Nat) (bs : List Byte) (f' : Nat) : (s.urnWrite o bs).fn f' = s.fn f' := rfl
@[simp] theorem State.urnWrite_dom (o : Nat) (bs : List Byte) (d' : Nat) : (s.urnWrite o bs).dom d' = s.dom d' := rfl

@[simp] theorem State.urnZero_pending (o n : Nat) : (s.urnZero o n).pending = s.pending := rfl
@[simp] theorem State.urnZero_regs (o n : Nat) : (s.urnZero o n).regs = s.regs := rfl
@[simp] theorem State.urnZero_us (o n : Nat) : (s.urnZero o n).us = s.us := rfl
@[simp] theorem State.urnZero_clockStop (o n : Nat) : (s.urnZero o n).clockStop = s.clockStop := rfl
@[simp] theorem State.urnZero_freeCtr (o n : Nat) : (s.urnZero o n).freeCtr = s.freeCtr := rfl
@[simp] theorem State.urnZero_out (o n : Nat) : (s.urnZero o n).out = s.out := rfl
@[simp] theorem State.urnZero_fns (o n : Nat) : (s.urnZero o n).fns = s.fns := rfl
@[simp] theorem State.urnZero_coal (o n : Nat) : (s.urnZero o n).coal = s.coal := rfl
@[simp] theorem State.urnZero_sqs (o n : Nat) : (s.urnZero o n).sqs = s.sqs := rfl
@[simp] theorem State.urnZero_cqs (o n : Nat) : (s.urnZero o n).cqs = s.cqs := rfl
@[simp] theorem State.urnZero_cmds (o n : Nat) : (s.urnZero o n).cmds = s.cmds := rfl
@[simp] theorem State.urnZero_nextTag (o n : Nat) : (s.urnZero o n).nextTag = s.nextTag := rfl
@[simp] theorem State.urnZero_hostMem (o n : Nat) : (s.urnZero o n).hostMem = s.hostMem := rfl
@[simp] theorem State.urnZero_doms (o n : Nat) : (s.urnZero o n).doms = s.doms := rfl
@[simp] theorem State.urnZero_trigs (o n : Nat) : (s.urnZero o n).trigs = s.trigs := rfl
@[simp] theorem State.urnZero_batch (o n : Nat) : (s.urnZero o n).batch = s.batch := rfl
@[simp] theorem State.urnZero_dueNext (o n : Nat) : (s.urnZero o n).dueNext = s.dueNext := rfl
@[simp] theorem State.urnZero_extents (o n : Nat) : (s.urnZero o n).extents = s.extents := rfl
@[simp] theorem State.urnZero_lindex (o n : Nat) : (s.urnZero o n).lindex = s.lindex := rfl
@[simp] theorem State.urnZero_partitions (o n : Nat) : (s.urnZero o n).partitions = s.partitions := rfl
@[simp] theorem State.urnZero_owners (o n : Nat) : (s.urnZero o n).owners = s.owners := rfl
@[simp] theorem State.urnZero_mapDram (o n : Nat) : (s.urnZero o n).mapDram = s.mapDram := rfl
@[simp] theorem State.urnZero_mapLog (o n : Nat) : (s.urnZero o n).mapLog = s.mapLog := rfl
@[simp] theorem State.urnZero_oldRuns (o n : Nat) : (s.urnZero o n).oldRuns = s.oldRuns := rfl
@[simp] theorem State.urnZero_alloc (o n : Nat) : (s.urnZero o n).alloc = s.alloc := rfl
@[simp] theorem State.urnZero_sectors (o n : Nat) : (s.urnZero o n).sectors = s.sectors := rfl
@[simp] theorem State.urnZero_keys (o n : Nat) : (s.urnZero o n).keys = s.keys := rfl
@[simp] theorem State.urnZero_volumes (o n : Nat) : (s.urnZero o n).volumes = s.volumes := rfl
@[simp] theorem State.urnZero_unitRecs (o n : Nat) : (s.urnZero o n).unitRecs = s.unitRecs := rfl
@[simp] theorem State.urnZero_frames (o n : Nat) : (s.urnZero o n).frames = s.frames := rfl
@[simp] theorem State.urnZero_staged (o n : Nat) : (s.urnZero o n).staged = s.staged := rfl
@[simp] theorem State.urnZero_streams (o n : Nat) : (s.urnZero o n).streams = s.streams := rfl
@[simp] theorem State.urnZero_chunks (o n : Nat) : (s.urnZero o n).chunks = s.chunks := rfl
@[simp] theorem State.urnZero_frags (o n : Nat) : (s.urnZero o n).frags = s.frags := rfl
@[simp] theorem State.urnZero_chans (o n : Nat) : (s.urnZero o n).chans = s.chans := rfl
@[simp] theorem State.urnZero_banks (o n : Nat) : (s.urnZero o n).banks = s.banks := rfl
@[simp] theorem State.urnZero_bufs (o n : Nat) : (s.urnZero o n).bufs = s.bufs := rfl
@[simp] theorem State.urnZero_svc (o n : Nat) : (s.urnZero o n).svc = s.svc := rfl
@[simp] theorem State.urnZero_pairs (o n : Nat) : (s.urnZero o n).pairs = s.pairs := rfl
@[simp] theorem State.urnZero_blendRuns (o n : Nat) : (s.urnZero o n).blendRuns = s.blendRuns := rfl
@[simp] theorem State.urnZero_links (o n : Nat) : (s.urnZero o n).links = s.links := rfl
@[simp] theorem State.urnZero_lsTable (o n : Nat) : (s.urnZero o n).lsTable = s.lsTable := rfl
@[simp] theorem State.urnZero_pins (o n : Nat) : (s.urnZero o n).pins = s.pins := rfl
@[simp] theorem State.urnZero_parts (o n : Nat) : (s.urnZero o n).parts = s.parts := rfl
@[simp] theorem State.urnZero_asks (o n : Nat) : (s.urnZero o n).asks = s.asks := rfl
@[simp] theorem State.urnZero_evRing (o n : Nat) : (s.urnZero o n).evRing = s.evRing := rfl
@[simp] theorem State.urnZero_evOpen (o n : Nat) : (s.urnZero o n).evOpen = s.evOpen := rfl
@[simp] theorem State.urnZero_evSent (o n : Nat) : (s.urnZero o n).evSent = s.evSent := rfl
@[simp] theorem State.urnZero_bus (o n : Nat) : (s.urnZero o n).bus = s.bus := rfl
@[simp] theorem State.urnZero_attn (o n : Nat) : (s.urnZero o n).attn = s.attn := rfl
@[simp] theorem State.urnZero_xfer (o n : Nat) : (s.urnZero o n).xfer = s.xfer := rfl
@[simp] theorem State.urnZero_halted (o n : Nat) : (s.urnZero o n).halted = s.halted := rfl
@[simp] theorem State.urnZero_starting (o n : Nat) : (s.urnZero o n).starting = s.starting := rfl
@[simp] theorem State.urnZero_twbPos (o n : Nat) : (s.urnZero o n).twbPos = s.twbPos := rfl
@[simp] theorem State.urnZero_rd (o n : Nat) (r' : Reg) (i' j' : Nat) : (s.urnZero o n).rd r' i' j' = s.rd r' i' j' := rfl
@[simp] theorem State.urnZero_fld (o n : Nat) (f' : Fld) (i' j' : Nat) : (s.urnZero o n).fld f' i' j' = s.fld f' i' j' := rfl
@[simp] theorem State.urnZero_flag (o n : Nat) (f' : Fld) (i' j' : Nat) : (s.urnZero o n).flag f' i' j' = s.flag f' i' j' := rfl
@[simp] theorem State.urnZero_cmd (o n : Nat) (t' : Nat) : (s.urnZero o n).cmd t' = s.cmd t' := rfl
@[simp] theorem State.urnZero_fn (o n : Nat) (f' : Nat) : (s.urnZero o n).fn f' = s.fn f' := rfl
@[simp] theorem State.urnZero_dom (o n : Nat) (d' : Nat) : (s.urnZero o n).dom d' = s.dom d' := rfl

@[simp] theorem State.modFn_pending (k : Nat) (g : Fn → Fn) : (s.modFn k g).pending = s.pending := rfl
@[simp] theorem State.modFn_regs (k : Nat) (g : Fn → Fn) : (s.modFn k g).regs = s.regs := rfl
@[simp] theorem State.modFn_us (k : Nat) (g : Fn → Fn) : (s.modFn k g).us = s.us := rfl
@[simp] theorem State.modFn_clockStop (k : Nat) (g : Fn → Fn) : (s.modFn k g).clockStop = s.clockStop := rfl
@[simp] theorem State.modFn_freeCtr (k : Nat) (g : Fn → Fn) : (s.modFn k g).freeCtr = s.freeCtr := rfl
@[simp] theorem State.modFn_out (k : Nat) (g : Fn → Fn) : (s.modFn k g).out = s.out := rfl
@[simp] theorem State.modFn_coal (k : Nat) (g : Fn → Fn) : (s.modFn k g).coal = s.coal := rfl
@[simp] theorem State.modFn_sqs (k : Nat) (g : Fn → Fn) : (s.modFn k g).sqs = s.sqs := rfl
@[simp] theorem State.modFn_cqs (k : Nat) (g : Fn → Fn) : (s.modFn k g).cqs = s.cqs := rfl
@[simp] theorem State.modFn_cmds (k : Nat) (g : Fn → Fn) : (s.modFn k g).cmds = s.cmds := rfl
@[simp] theorem State.modFn_nextTag (k : Nat) (g : Fn → Fn) : (s.modFn k g).nextTag = s.nextTag := rfl
@[simp] theorem State.modFn_hostMem (k : Nat) (g : Fn → Fn) : (s.modFn k g).hostMem = s.hostMem := rfl
@[simp] theorem State.modFn_doms (k : Nat) (g : Fn → Fn) : (s.modFn k g).doms = s.doms := rfl
@[simp] theorem State.modFn_trigs (k : Nat) (g : Fn → Fn) : (s.modFn k g).trigs = s.trigs := rfl
@[simp] theorem State.modFn_batch (k : Nat) (g : Fn → Fn) : (s.modFn k g).batch = s.batch := rfl
@[simp] theorem State.modFn_dueNext (k : Nat) (g : Fn → Fn) : (s.modFn k g).dueNext = s.dueNext := rfl
@[simp] theorem State.modFn_extents (k : Nat) (g : Fn → Fn) : (s.modFn k g).extents = s.extents := rfl
@[simp] theorem State.modFn_lindex (k : Nat) (g : Fn → Fn) : (s.modFn k g).lindex = s.lindex := rfl
@[simp] theorem State.modFn_partitions (k : Nat) (g : Fn → Fn) : (s.modFn k g).partitions = s.partitions := rfl
@[simp] theorem State.modFn_owners (k : Nat) (g : Fn → Fn) : (s.modFn k g).owners = s.owners := rfl
@[simp] theorem State.modFn_mapDram (k : Nat) (g : Fn → Fn) : (s.modFn k g).mapDram = s.mapDram := rfl
@[simp] theorem State.modFn_mapLog (k : Nat) (g : Fn → Fn) : (s.modFn k g).mapLog = s.mapLog := rfl
@[simp] theorem State.modFn_oldRuns (k : Nat) (g : Fn → Fn) : (s.modFn k g).oldRuns = s.oldRuns := rfl
@[simp] theorem State.modFn_alloc (k : Nat) (g : Fn → Fn) : (s.modFn k g).alloc = s.alloc := rfl
@[simp] theorem State.modFn_sectors (k : Nat) (g : Fn → Fn) : (s.modFn k g).sectors = s.sectors := rfl
@[simp] theorem State.modFn_keys (k : Nat) (g : Fn → Fn) : (s.modFn k g).keys = s.keys := rfl
@[simp] theorem State.modFn_volumes (k : Nat) (g : Fn → Fn) : (s.modFn k g).volumes = s.volumes := rfl
@[simp] theorem State.modFn_unitRecs (k : Nat) (g : Fn → Fn) : (s.modFn k g).unitRecs = s.unitRecs := rfl
@[simp] theorem State.modFn_frames (k : Nat) (g : Fn → Fn) : (s.modFn k g).frames = s.frames := rfl
@[simp] theorem State.modFn_staged (k : Nat) (g : Fn → Fn) : (s.modFn k g).staged = s.staged := rfl
@[simp] theorem State.modFn_streams (k : Nat) (g : Fn → Fn) : (s.modFn k g).streams = s.streams := rfl
@[simp] theorem State.modFn_chunks (k : Nat) (g : Fn → Fn) : (s.modFn k g).chunks = s.chunks := rfl
@[simp] theorem State.modFn_frags (k : Nat) (g : Fn → Fn) : (s.modFn k g).frags = s.frags := rfl
@[simp] theorem State.modFn_chans (k : Nat) (g : Fn → Fn) : (s.modFn k g).chans = s.chans := rfl
@[simp] theorem State.modFn_banks (k : Nat) (g : Fn → Fn) : (s.modFn k g).banks = s.banks := rfl
@[simp] theorem State.modFn_urn (k : Nat) (g : Fn → Fn) : (s.modFn k g).urn = s.urn := rfl
@[simp] theorem State.modFn_bufs (k : Nat) (g : Fn → Fn) : (s.modFn k g).bufs = s.bufs := rfl
@[simp] theorem State.modFn_svc (k : Nat) (g : Fn → Fn) : (s.modFn k g).svc = s.svc := rfl
@[simp] theorem State.modFn_pairs (k : Nat) (g : Fn → Fn) : (s.modFn k g).pairs = s.pairs := rfl
@[simp] theorem State.modFn_blendRuns (k : Nat) (g : Fn → Fn) : (s.modFn k g).blendRuns = s.blendRuns := rfl
@[simp] theorem State.modFn_links (k : Nat) (g : Fn → Fn) : (s.modFn k g).links = s.links := rfl
@[simp] theorem State.modFn_lsTable (k : Nat) (g : Fn → Fn) : (s.modFn k g).lsTable = s.lsTable := rfl
@[simp] theorem State.modFn_pins (k : Nat) (g : Fn → Fn) : (s.modFn k g).pins = s.pins := rfl
@[simp] theorem State.modFn_parts (k : Nat) (g : Fn → Fn) : (s.modFn k g).parts = s.parts := rfl
@[simp] theorem State.modFn_asks (k : Nat) (g : Fn → Fn) : (s.modFn k g).asks = s.asks := rfl
@[simp] theorem State.modFn_evRing (k : Nat) (g : Fn → Fn) : (s.modFn k g).evRing = s.evRing := rfl
@[simp] theorem State.modFn_evOpen (k : Nat) (g : Fn → Fn) : (s.modFn k g).evOpen = s.evOpen := rfl
@[simp] theorem State.modFn_evSent (k : Nat) (g : Fn → Fn) : (s.modFn k g).evSent = s.evSent := rfl
@[simp] theorem State.modFn_bus (k : Nat) (g : Fn → Fn) : (s.modFn k g).bus = s.bus := rfl
@[simp] theorem State.modFn_attn (k : Nat) (g : Fn → Fn) : (s.modFn k g).attn = s.attn := rfl
@[simp] theorem State.modFn_xfer (k : Nat) (g : Fn → Fn) : (s.modFn k g).xfer = s.xfer := rfl
@[simp] theorem State.modFn_halted (k : Nat) (g : Fn → Fn) : (s.modFn k g).halted = s.halted := rfl
@[simp] theorem State.modFn_starting (k : Nat) (g : Fn → Fn) : (s.modFn k g).starting = s.starting := rfl
@[simp] theorem State.modFn_twbPos (k : Nat) (g : Fn → Fn) : (s.modFn k g).twbPos = s.twbPos := rfl
@[simp] theorem State.modFn_rd (k : Nat) (g : Fn → Fn) (r' : Reg) (i' j' : Nat) : (s.modFn k g).rd r' i' j' = s.rd r' i' j' := rfl
@[simp] theorem State.modFn_fld (k : Nat) (g : Fn → Fn) (f' : Fld) (i' j' : Nat) : (s.modFn k g).fld f' i' j' = s.fld f' i' j' := rfl
@[simp] theorem State.modFn_flag (k : Nat) (g : Fn → Fn) (f' : Fld) (i' j' : Nat) : (s.modFn k g).flag f' i' j' = s.flag f' i' j' := rfl
@[simp] theorem State.modFn_cmd (k : Nat) (g : Fn → Fn) (t' : Nat) : (s.modFn k g).cmd t' = s.cmd t' := rfl
@[simp] theorem State.modFn_dom (k : Nat) (g : Fn → Fn) (d' : Nat) : (s.modFn k g).dom d' = s.dom d' := rfl

@[simp] theorem State.modSq_pending (k : Nat) (g : Sq → Sq) : (s.modSq k g).pending = s.pending := rfl
@[simp] theorem State.modSq_regs (k : Nat) (g : Sq → Sq) : (s.modSq k g).regs = s.regs := rfl
@[simp] theorem State.modSq_us (k : Nat) (g : Sq → Sq) : (s.modSq k g).us = s.us := rfl
@[simp] theorem State.modSq_clockStop (k : Nat) (g : Sq → Sq) : (s.modSq k g).clockStop = s.clockStop := rfl
@[simp] theorem State.modSq_freeCtr (k : Nat) (g : Sq → Sq) : (s.modSq k g).freeCtr = s.freeCtr := rfl
@[simp] theorem State.modSq_out (k : Nat) (g : Sq → Sq) : (s.modSq k g).out = s.out := rfl
@[simp] theorem State.modSq_fns (k : Nat) (g : Sq → Sq) : (s.modSq k g).fns = s.fns := rfl
@[simp] theorem State.modSq_coal (k : Nat) (g : Sq → Sq) : (s.modSq k g).coal = s.coal := rfl
@[simp] theorem State.modSq_cqs (k : Nat) (g : Sq → Sq) : (s.modSq k g).cqs = s.cqs := rfl
@[simp] theorem State.modSq_cmds (k : Nat) (g : Sq → Sq) : (s.modSq k g).cmds = s.cmds := rfl
@[simp] theorem State.modSq_nextTag (k : Nat) (g : Sq → Sq) : (s.modSq k g).nextTag = s.nextTag := rfl
@[simp] theorem State.modSq_hostMem (k : Nat) (g : Sq → Sq) : (s.modSq k g).hostMem = s.hostMem := rfl
@[simp] theorem State.modSq_doms (k : Nat) (g : Sq → Sq) : (s.modSq k g).doms = s.doms := rfl
@[simp] theorem State.modSq_trigs (k : Nat) (g : Sq → Sq) : (s.modSq k g).trigs = s.trigs := rfl
@[simp] theorem State.modSq_batch (k : Nat) (g : Sq → Sq) : (s.modSq k g).batch = s.batch := rfl
@[simp] theorem State.modSq_dueNext (k : Nat) (g : Sq → Sq) : (s.modSq k g).dueNext = s.dueNext := rfl
@[simp] theorem State.modSq_extents (k : Nat) (g : Sq → Sq) : (s.modSq k g).extents = s.extents := rfl
@[simp] theorem State.modSq_lindex (k : Nat) (g : Sq → Sq) : (s.modSq k g).lindex = s.lindex := rfl
@[simp] theorem State.modSq_partitions (k : Nat) (g : Sq → Sq) : (s.modSq k g).partitions = s.partitions := rfl
@[simp] theorem State.modSq_owners (k : Nat) (g : Sq → Sq) : (s.modSq k g).owners = s.owners := rfl
@[simp] theorem State.modSq_mapDram (k : Nat) (g : Sq → Sq) : (s.modSq k g).mapDram = s.mapDram := rfl
@[simp] theorem State.modSq_mapLog (k : Nat) (g : Sq → Sq) : (s.modSq k g).mapLog = s.mapLog := rfl
@[simp] theorem State.modSq_oldRuns (k : Nat) (g : Sq → Sq) : (s.modSq k g).oldRuns = s.oldRuns := rfl
@[simp] theorem State.modSq_alloc (k : Nat) (g : Sq → Sq) : (s.modSq k g).alloc = s.alloc := rfl
@[simp] theorem State.modSq_sectors (k : Nat) (g : Sq → Sq) : (s.modSq k g).sectors = s.sectors := rfl
@[simp] theorem State.modSq_keys (k : Nat) (g : Sq → Sq) : (s.modSq k g).keys = s.keys := rfl
@[simp] theorem State.modSq_volumes (k : Nat) (g : Sq → Sq) : (s.modSq k g).volumes = s.volumes := rfl
@[simp] theorem State.modSq_unitRecs (k : Nat) (g : Sq → Sq) : (s.modSq k g).unitRecs = s.unitRecs := rfl
@[simp] theorem State.modSq_frames (k : Nat) (g : Sq → Sq) : (s.modSq k g).frames = s.frames := rfl
@[simp] theorem State.modSq_staged (k : Nat) (g : Sq → Sq) : (s.modSq k g).staged = s.staged := rfl
@[simp] theorem State.modSq_streams (k : Nat) (g : Sq → Sq) : (s.modSq k g).streams = s.streams := rfl
@[simp] theorem State.modSq_chunks (k : Nat) (g : Sq → Sq) : (s.modSq k g).chunks = s.chunks := rfl
@[simp] theorem State.modSq_frags (k : Nat) (g : Sq → Sq) : (s.modSq k g).frags = s.frags := rfl
@[simp] theorem State.modSq_chans (k : Nat) (g : Sq → Sq) : (s.modSq k g).chans = s.chans := rfl
@[simp] theorem State.modSq_banks (k : Nat) (g : Sq → Sq) : (s.modSq k g).banks = s.banks := rfl
@[simp] theorem State.modSq_urn (k : Nat) (g : Sq → Sq) : (s.modSq k g).urn = s.urn := rfl
@[simp] theorem State.modSq_bufs (k : Nat) (g : Sq → Sq) : (s.modSq k g).bufs = s.bufs := rfl
@[simp] theorem State.modSq_svc (k : Nat) (g : Sq → Sq) : (s.modSq k g).svc = s.svc := rfl
@[simp] theorem State.modSq_pairs (k : Nat) (g : Sq → Sq) : (s.modSq k g).pairs = s.pairs := rfl
@[simp] theorem State.modSq_blendRuns (k : Nat) (g : Sq → Sq) : (s.modSq k g).blendRuns = s.blendRuns := rfl
@[simp] theorem State.modSq_links (k : Nat) (g : Sq → Sq) : (s.modSq k g).links = s.links := rfl
@[simp] theorem State.modSq_lsTable (k : Nat) (g : Sq → Sq) : (s.modSq k g).lsTable = s.lsTable := rfl
@[simp] theorem State.modSq_pins (k : Nat) (g : Sq → Sq) : (s.modSq k g).pins = s.pins := rfl
@[simp] theorem State.modSq_parts (k : Nat) (g : Sq → Sq) : (s.modSq k g).parts = s.parts := rfl
@[simp] theorem State.modSq_asks (k : Nat) (g : Sq → Sq) : (s.modSq k g).asks = s.asks := rfl
@[simp] theorem State.modSq_evRing (k : Nat) (g : Sq → Sq) : (s.modSq k g).evRing = s.evRing := rfl
@[simp] theorem State.modSq_evOpen (k : Nat) (g : Sq → Sq) : (s.modSq k g).evOpen = s.evOpen := rfl
@[simp] theorem State.modSq_evSent (k : Nat) (g : Sq → Sq) : (s.modSq k g).evSent = s.evSent := rfl
@[simp] theorem State.modSq_bus (k : Nat) (g : Sq → Sq) : (s.modSq k g).bus = s.bus := rfl
@[simp] theorem State.modSq_attn (k : Nat) (g : Sq → Sq) : (s.modSq k g).attn = s.attn := rfl
@[simp] theorem State.modSq_xfer (k : Nat) (g : Sq → Sq) : (s.modSq k g).xfer = s.xfer := rfl
@[simp] theorem State.modSq_halted (k : Nat) (g : Sq → Sq) : (s.modSq k g).halted = s.halted := rfl
@[simp] theorem State.modSq_starting (k : Nat) (g : Sq → Sq) : (s.modSq k g).starting = s.starting := rfl
@[simp] theorem State.modSq_twbPos (k : Nat) (g : Sq → Sq) : (s.modSq k g).twbPos = s.twbPos := rfl
@[simp] theorem State.modSq_rd (k : Nat) (g : Sq → Sq) (r' : Reg) (i' j' : Nat) : (s.modSq k g).rd r' i' j' = s.rd r' i' j' := rfl
@[simp] theorem State.modSq_fld (k : Nat) (g : Sq → Sq) (f' : Fld) (i' j' : Nat) : (s.modSq k g).fld f' i' j' = s.fld f' i' j' := rfl
@[simp] theorem State.modSq_flag (k : Nat) (g : Sq → Sq) (f' : Fld) (i' j' : Nat) : (s.modSq k g).flag f' i' j' = s.flag f' i' j' := rfl
@[simp] theorem State.modSq_cmd (k : Nat) (g : Sq → Sq) (t' : Nat) : (s.modSq k g).cmd t' = s.cmd t' := rfl
@[simp] theorem State.modSq_fn (k : Nat) (g : Sq → Sq) (f' : Nat) : (s.modSq k g).fn f' = s.fn f' := rfl
@[simp] theorem State.modSq_dom (k : Nat) (g : Sq → Sq) (d' : Nat) : (s.modSq k g).dom d' = s.dom d' := rfl

@[simp] theorem State.modCq_pending (k : Nat) (g : Cq → Cq) : (s.modCq k g).pending = s.pending := rfl
@[simp] theorem State.modCq_regs (k : Nat) (g : Cq → Cq) : (s.modCq k g).regs = s.regs := rfl
@[simp] theorem State.modCq_us (k : Nat) (g : Cq → Cq) : (s.modCq k g).us = s.us := rfl
@[simp] theorem State.modCq_clockStop (k : Nat) (g : Cq → Cq) : (s.modCq k g).clockStop = s.clockStop := rfl
@[simp] theorem State.modCq_freeCtr (k : Nat) (g : Cq → Cq) : (s.modCq k g).freeCtr = s.freeCtr := rfl
@[simp] theorem State.modCq_out (k : Nat) (g : Cq → Cq) : (s.modCq k g).out = s.out := rfl
@[simp] theorem State.modCq_fns (k : Nat) (g : Cq → Cq) : (s.modCq k g).fns = s.fns := rfl
@[simp] theorem State.modCq_coal (k : Nat) (g : Cq → Cq) : (s.modCq k g).coal = s.coal := rfl
@[simp] theorem State.modCq_sqs (k : Nat) (g : Cq → Cq) : (s.modCq k g).sqs = s.sqs := rfl
@[simp] theorem State.modCq_cmds (k : Nat) (g : Cq → Cq) : (s.modCq k g).cmds = s.cmds := rfl
@[simp] theorem State.modCq_nextTag (k : Nat) (g : Cq → Cq) : (s.modCq k g).nextTag = s.nextTag := rfl
@[simp] theorem State.modCq_hostMem (k : Nat) (g : Cq → Cq) : (s.modCq k g).hostMem = s.hostMem := rfl
@[simp] theorem State.modCq_doms (k : Nat) (g : Cq → Cq) : (s.modCq k g).doms = s.doms := rfl
@[simp] theorem State.modCq_trigs (k : Nat) (g : Cq → Cq) : (s.modCq k g).trigs = s.trigs := rfl
@[simp] theorem State.modCq_batch (k : Nat) (g : Cq → Cq) : (s.modCq k g).batch = s.batch := rfl
@[simp] theorem State.modCq_dueNext (k : Nat) (g : Cq → Cq) : (s.modCq k g).dueNext = s.dueNext := rfl
@[simp] theorem State.modCq_extents (k : Nat) (g : Cq → Cq) : (s.modCq k g).extents = s.extents := rfl
@[simp] theorem State.modCq_lindex (k : Nat) (g : Cq → Cq) : (s.modCq k g).lindex = s.lindex := rfl
@[simp] theorem State.modCq_partitions (k : Nat) (g : Cq → Cq) : (s.modCq k g).partitions = s.partitions := rfl
@[simp] theorem State.modCq_owners (k : Nat) (g : Cq → Cq) : (s.modCq k g).owners = s.owners := rfl
@[simp] theorem State.modCq_mapDram (k : Nat) (g : Cq → Cq) : (s.modCq k g).mapDram = s.mapDram := rfl
@[simp] theorem State.modCq_mapLog (k : Nat) (g : Cq → Cq) : (s.modCq k g).mapLog = s.mapLog := rfl
@[simp] theorem State.modCq_oldRuns (k : Nat) (g : Cq → Cq) : (s.modCq k g).oldRuns = s.oldRuns := rfl
@[simp] theorem State.modCq_alloc (k : Nat) (g : Cq → Cq) : (s.modCq k g).alloc = s.alloc := rfl
@[simp] theorem State.modCq_sectors (k : Nat) (g : Cq → Cq) : (s.modCq k g).sectors = s.sectors := rfl
@[simp] theorem State.modCq_keys (k : Nat) (g : Cq → Cq) : (s.modCq k g).keys = s.keys := rfl
@[simp] theorem State.modCq_volumes (k : Nat) (g : Cq → Cq) : (s.modCq k g).volumes = s.volumes := rfl
@[simp] theorem State.modCq_unitRecs (k : Nat) (g : Cq → Cq) : (s.modCq k g).unitRecs = s.unitRecs := rfl
@[simp] theorem State.modCq_frames (k : Nat) (g : Cq → Cq) : (s.modCq k g).frames = s.frames := rfl
@[simp] theorem State.modCq_staged (k : Nat) (g : Cq → Cq) : (s.modCq k g).staged = s.staged := rfl
@[simp] theorem State.modCq_streams (k : Nat) (g : Cq → Cq) : (s.modCq k g).streams = s.streams := rfl
@[simp] theorem State.modCq_chunks (k : Nat) (g : Cq → Cq) : (s.modCq k g).chunks = s.chunks := rfl
@[simp] theorem State.modCq_frags (k : Nat) (g : Cq → Cq) : (s.modCq k g).frags = s.frags := rfl
@[simp] theorem State.modCq_chans (k : Nat) (g : Cq → Cq) : (s.modCq k g).chans = s.chans := rfl
@[simp] theorem State.modCq_banks (k : Nat) (g : Cq → Cq) : (s.modCq k g).banks = s.banks := rfl
@[simp] theorem State.modCq_urn (k : Nat) (g : Cq → Cq) : (s.modCq k g).urn = s.urn := rfl
@[simp] theorem State.modCq_bufs (k : Nat) (g : Cq → Cq) : (s.modCq k g).bufs = s.bufs := rfl
@[simp] theorem State.modCq_svc (k : Nat) (g : Cq → Cq) : (s.modCq k g).svc = s.svc := rfl
@[simp] theorem State.modCq_pairs (k : Nat) (g : Cq → Cq) : (s.modCq k g).pairs = s.pairs := rfl
@[simp] theorem State.modCq_blendRuns (k : Nat) (g : Cq → Cq) : (s.modCq k g).blendRuns = s.blendRuns := rfl
@[simp] theorem State.modCq_links (k : Nat) (g : Cq → Cq) : (s.modCq k g).links = s.links := rfl
@[simp] theorem State.modCq_lsTable (k : Nat) (g : Cq → Cq) : (s.modCq k g).lsTable = s.lsTable := rfl
@[simp] theorem State.modCq_pins (k : Nat) (g : Cq → Cq) : (s.modCq k g).pins = s.pins := rfl
@[simp] theorem State.modCq_parts (k : Nat) (g : Cq → Cq) : (s.modCq k g).parts = s.parts := rfl
@[simp] theorem State.modCq_asks (k : Nat) (g : Cq → Cq) : (s.modCq k g).asks = s.asks := rfl
@[simp] theorem State.modCq_evRing (k : Nat) (g : Cq → Cq) : (s.modCq k g).evRing = s.evRing := rfl
@[simp] theorem State.modCq_evOpen (k : Nat) (g : Cq → Cq) : (s.modCq k g).evOpen = s.evOpen := rfl
@[simp] theorem State.modCq_evSent (k : Nat) (g : Cq → Cq) : (s.modCq k g).evSent = s.evSent := rfl
@[simp] theorem State.modCq_bus (k : Nat) (g : Cq → Cq) : (s.modCq k g).bus = s.bus := rfl
@[simp] theorem State.modCq_attn (k : Nat) (g : Cq → Cq) : (s.modCq k g).attn = s.attn := rfl
@[simp] theorem State.modCq_xfer (k : Nat) (g : Cq → Cq) : (s.modCq k g).xfer = s.xfer := rfl
@[simp] theorem State.modCq_halted (k : Nat) (g : Cq → Cq) : (s.modCq k g).halted = s.halted := rfl
@[simp] theorem State.modCq_starting (k : Nat) (g : Cq → Cq) : (s.modCq k g).starting = s.starting := rfl
@[simp] theorem State.modCq_twbPos (k : Nat) (g : Cq → Cq) : (s.modCq k g).twbPos = s.twbPos := rfl
@[simp] theorem State.modCq_rd (k : Nat) (g : Cq → Cq) (r' : Reg) (i' j' : Nat) : (s.modCq k g).rd r' i' j' = s.rd r' i' j' := rfl
@[simp] theorem State.modCq_fld (k : Nat) (g : Cq → Cq) (f' : Fld) (i' j' : Nat) : (s.modCq k g).fld f' i' j' = s.fld f' i' j' := rfl
@[simp] theorem State.modCq_flag (k : Nat) (g : Cq → Cq) (f' : Fld) (i' j' : Nat) : (s.modCq k g).flag f' i' j' = s.flag f' i' j' := rfl
@[simp] theorem State.modCq_cmd (k : Nat) (g : Cq → Cq) (t' : Nat) : (s.modCq k g).cmd t' = s.cmd t' := rfl
@[simp] theorem State.modCq_fn (k : Nat) (g : Cq → Cq) (f' : Nat) : (s.modCq k g).fn f' = s.fn f' := rfl
@[simp] theorem State.modCq_dom (k : Nat) (g : Cq → Cq) (d' : Nat) : (s.modCq k g).dom d' = s.dom d' := rfl

@[simp] theorem State.modCmd_pending (k : Nat) (g : Cmd → Cmd) : (s.modCmd k g).pending = s.pending := rfl
@[simp] theorem State.modCmd_regs (k : Nat) (g : Cmd → Cmd) : (s.modCmd k g).regs = s.regs := rfl
@[simp] theorem State.modCmd_us (k : Nat) (g : Cmd → Cmd) : (s.modCmd k g).us = s.us := rfl
@[simp] theorem State.modCmd_clockStop (k : Nat) (g : Cmd → Cmd) : (s.modCmd k g).clockStop = s.clockStop := rfl
@[simp] theorem State.modCmd_freeCtr (k : Nat) (g : Cmd → Cmd) : (s.modCmd k g).freeCtr = s.freeCtr := rfl
@[simp] theorem State.modCmd_out (k : Nat) (g : Cmd → Cmd) : (s.modCmd k g).out = s.out := rfl
@[simp] theorem State.modCmd_fns (k : Nat) (g : Cmd → Cmd) : (s.modCmd k g).fns = s.fns := rfl
@[simp] theorem State.modCmd_coal (k : Nat) (g : Cmd → Cmd) : (s.modCmd k g).coal = s.coal := rfl
@[simp] theorem State.modCmd_sqs (k : Nat) (g : Cmd → Cmd) : (s.modCmd k g).sqs = s.sqs := rfl
@[simp] theorem State.modCmd_cqs (k : Nat) (g : Cmd → Cmd) : (s.modCmd k g).cqs = s.cqs := rfl
@[simp] theorem State.modCmd_nextTag (k : Nat) (g : Cmd → Cmd) : (s.modCmd k g).nextTag = s.nextTag := rfl
@[simp] theorem State.modCmd_hostMem (k : Nat) (g : Cmd → Cmd) : (s.modCmd k g).hostMem = s.hostMem := rfl
@[simp] theorem State.modCmd_doms (k : Nat) (g : Cmd → Cmd) : (s.modCmd k g).doms = s.doms := rfl
@[simp] theorem State.modCmd_trigs (k : Nat) (g : Cmd → Cmd) : (s.modCmd k g).trigs = s.trigs := rfl
@[simp] theorem State.modCmd_batch (k : Nat) (g : Cmd → Cmd) : (s.modCmd k g).batch = s.batch := rfl
@[simp] theorem State.modCmd_dueNext (k : Nat) (g : Cmd → Cmd) : (s.modCmd k g).dueNext = s.dueNext := rfl
@[simp] theorem State.modCmd_extents (k : Nat) (g : Cmd → Cmd) : (s.modCmd k g).extents = s.extents := rfl
@[simp] theorem State.modCmd_lindex (k : Nat) (g : Cmd → Cmd) : (s.modCmd k g).lindex = s.lindex := rfl
@[simp] theorem State.modCmd_partitions (k : Nat) (g : Cmd → Cmd) : (s.modCmd k g).partitions = s.partitions := rfl
@[simp] theorem State.modCmd_owners (k : Nat) (g : Cmd → Cmd) : (s.modCmd k g).owners = s.owners := rfl
@[simp] theorem State.modCmd_mapDram (k : Nat) (g : Cmd → Cmd) : (s.modCmd k g).mapDram = s.mapDram := rfl
@[simp] theorem State.modCmd_mapLog (k : Nat) (g : Cmd → Cmd) : (s.modCmd k g).mapLog = s.mapLog := rfl
@[simp] theorem State.modCmd_oldRuns (k : Nat) (g : Cmd → Cmd) : (s.modCmd k g).oldRuns = s.oldRuns := rfl
@[simp] theorem State.modCmd_alloc (k : Nat) (g : Cmd → Cmd) : (s.modCmd k g).alloc = s.alloc := rfl
@[simp] theorem State.modCmd_sectors (k : Nat) (g : Cmd → Cmd) : (s.modCmd k g).sectors = s.sectors := rfl
@[simp] theorem State.modCmd_keys (k : Nat) (g : Cmd → Cmd) : (s.modCmd k g).keys = s.keys := rfl
@[simp] theorem State.modCmd_volumes (k : Nat) (g : Cmd → Cmd) : (s.modCmd k g).volumes = s.volumes := rfl
@[simp] theorem State.modCmd_unitRecs (k : Nat) (g : Cmd → Cmd) : (s.modCmd k g).unitRecs = s.unitRecs := rfl
@[simp] theorem State.modCmd_frames (k : Nat) (g : Cmd → Cmd) : (s.modCmd k g).frames = s.frames := rfl
@[simp] theorem State.modCmd_staged (k : Nat) (g : Cmd → Cmd) : (s.modCmd k g).staged = s.staged := rfl
@[simp] theorem State.modCmd_streams (k : Nat) (g : Cmd → Cmd) : (s.modCmd k g).streams = s.streams := rfl
@[simp] theorem State.modCmd_chunks (k : Nat) (g : Cmd → Cmd) : (s.modCmd k g).chunks = s.chunks := rfl
@[simp] theorem State.modCmd_frags (k : Nat) (g : Cmd → Cmd) : (s.modCmd k g).frags = s.frags := rfl
@[simp] theorem State.modCmd_chans (k : Nat) (g : Cmd → Cmd) : (s.modCmd k g).chans = s.chans := rfl
@[simp] theorem State.modCmd_banks (k : Nat) (g : Cmd → Cmd) : (s.modCmd k g).banks = s.banks := rfl
@[simp] theorem State.modCmd_urn (k : Nat) (g : Cmd → Cmd) : (s.modCmd k g).urn = s.urn := rfl
@[simp] theorem State.modCmd_bufs (k : Nat) (g : Cmd → Cmd) : (s.modCmd k g).bufs = s.bufs := rfl
@[simp] theorem State.modCmd_svc (k : Nat) (g : Cmd → Cmd) : (s.modCmd k g).svc = s.svc := rfl
@[simp] theorem State.modCmd_pairs (k : Nat) (g : Cmd → Cmd) : (s.modCmd k g).pairs = s.pairs := rfl
@[simp] theorem State.modCmd_blendRuns (k : Nat) (g : Cmd → Cmd) : (s.modCmd k g).blendRuns = s.blendRuns := rfl
@[simp] theorem State.modCmd_links (k : Nat) (g : Cmd → Cmd) : (s.modCmd k g).links = s.links := rfl
@[simp] theorem State.modCmd_lsTable (k : Nat) (g : Cmd → Cmd) : (s.modCmd k g).lsTable = s.lsTable := rfl
@[simp] theorem State.modCmd_pins (k : Nat) (g : Cmd → Cmd) : (s.modCmd k g).pins = s.pins := rfl
@[simp] theorem State.modCmd_parts (k : Nat) (g : Cmd → Cmd) : (s.modCmd k g).parts = s.parts := rfl
@[simp] theorem State.modCmd_asks (k : Nat) (g : Cmd → Cmd) : (s.modCmd k g).asks = s.asks := rfl
@[simp] theorem State.modCmd_evRing (k : Nat) (g : Cmd → Cmd) : (s.modCmd k g).evRing = s.evRing := rfl
@[simp] theorem State.modCmd_evOpen (k : Nat) (g : Cmd → Cmd) : (s.modCmd k g).evOpen = s.evOpen := rfl
@[simp] theorem State.modCmd_evSent (k : Nat) (g : Cmd → Cmd) : (s.modCmd k g).evSent = s.evSent := rfl
@[simp] theorem State.modCmd_bus (k : Nat) (g : Cmd → Cmd) : (s.modCmd k g).bus = s.bus := rfl
@[simp] theorem State.modCmd_attn (k : Nat) (g : Cmd → Cmd) : (s.modCmd k g).attn = s.attn := rfl
@[simp] theorem State.modCmd_xfer (k : Nat) (g : Cmd → Cmd) : (s.modCmd k g).xfer = s.xfer := rfl
@[simp] theorem State.modCmd_halted (k : Nat) (g : Cmd → Cmd) : (s.modCmd k g).halted = s.halted := rfl
@[simp] theorem State.modCmd_starting (k : Nat) (g : Cmd → Cmd) : (s.modCmd k g).starting = s.starting := rfl
@[simp] theorem State.modCmd_twbPos (k : Nat) (g : Cmd → Cmd) : (s.modCmd k g).twbPos = s.twbPos := rfl
@[simp] theorem State.modCmd_rd (k : Nat) (g : Cmd → Cmd) (r' : Reg) (i' j' : Nat) : (s.modCmd k g).rd r' i' j' = s.rd r' i' j' := rfl
@[simp] theorem State.modCmd_fld (k : Nat) (g : Cmd → Cmd) (f' : Fld) (i' j' : Nat) : (s.modCmd k g).fld f' i' j' = s.fld f' i' j' := rfl
@[simp] theorem State.modCmd_flag (k : Nat) (g : Cmd → Cmd) (f' : Fld) (i' j' : Nat) : (s.modCmd k g).flag f' i' j' = s.flag f' i' j' := rfl
@[simp] theorem State.modCmd_fn (k : Nat) (g : Cmd → Cmd) (f' : Nat) : (s.modCmd k g).fn f' = s.fn f' := rfl
@[simp] theorem State.modCmd_dom (k : Nat) (g : Cmd → Cmd) (d' : Nat) : (s.modCmd k g).dom d' = s.dom d' := rfl

@[simp] theorem State.modDom_pending (k : Nat) (g : Dom → Dom) : (s.modDom k g).pending = s.pending := rfl
@[simp] theorem State.modDom_regs (k : Nat) (g : Dom → Dom) : (s.modDom k g).regs = s.regs := rfl
@[simp] theorem State.modDom_us (k : Nat) (g : Dom → Dom) : (s.modDom k g).us = s.us := rfl
@[simp] theorem State.modDom_clockStop (k : Nat) (g : Dom → Dom) : (s.modDom k g).clockStop = s.clockStop := rfl
@[simp] theorem State.modDom_freeCtr (k : Nat) (g : Dom → Dom) : (s.modDom k g).freeCtr = s.freeCtr := rfl
@[simp] theorem State.modDom_out (k : Nat) (g : Dom → Dom) : (s.modDom k g).out = s.out := rfl
@[simp] theorem State.modDom_fns (k : Nat) (g : Dom → Dom) : (s.modDom k g).fns = s.fns := rfl
@[simp] theorem State.modDom_coal (k : Nat) (g : Dom → Dom) : (s.modDom k g).coal = s.coal := rfl
@[simp] theorem State.modDom_sqs (k : Nat) (g : Dom → Dom) : (s.modDom k g).sqs = s.sqs := rfl
@[simp] theorem State.modDom_cqs (k : Nat) (g : Dom → Dom) : (s.modDom k g).cqs = s.cqs := rfl
@[simp] theorem State.modDom_cmds (k : Nat) (g : Dom → Dom) : (s.modDom k g).cmds = s.cmds := rfl
@[simp] theorem State.modDom_nextTag (k : Nat) (g : Dom → Dom) : (s.modDom k g).nextTag = s.nextTag := rfl
@[simp] theorem State.modDom_hostMem (k : Nat) (g : Dom → Dom) : (s.modDom k g).hostMem = s.hostMem := rfl
@[simp] theorem State.modDom_trigs (k : Nat) (g : Dom → Dom) : (s.modDom k g).trigs = s.trigs := rfl
@[simp] theorem State.modDom_batch (k : Nat) (g : Dom → Dom) : (s.modDom k g).batch = s.batch := rfl
@[simp] theorem State.modDom_dueNext (k : Nat) (g : Dom → Dom) : (s.modDom k g).dueNext = s.dueNext := rfl
@[simp] theorem State.modDom_extents (k : Nat) (g : Dom → Dom) : (s.modDom k g).extents = s.extents := rfl
@[simp] theorem State.modDom_lindex (k : Nat) (g : Dom → Dom) : (s.modDom k g).lindex = s.lindex := rfl
@[simp] theorem State.modDom_partitions (k : Nat) (g : Dom → Dom) : (s.modDom k g).partitions = s.partitions := rfl
@[simp] theorem State.modDom_owners (k : Nat) (g : Dom → Dom) : (s.modDom k g).owners = s.owners := rfl
@[simp] theorem State.modDom_mapDram (k : Nat) (g : Dom → Dom) : (s.modDom k g).mapDram = s.mapDram := rfl
@[simp] theorem State.modDom_mapLog (k : Nat) (g : Dom → Dom) : (s.modDom k g).mapLog = s.mapLog := rfl
@[simp] theorem State.modDom_oldRuns (k : Nat) (g : Dom → Dom) : (s.modDom k g).oldRuns = s.oldRuns := rfl
@[simp] theorem State.modDom_alloc (k : Nat) (g : Dom → Dom) : (s.modDom k g).alloc = s.alloc := rfl
@[simp] theorem State.modDom_sectors (k : Nat) (g : Dom → Dom) : (s.modDom k g).sectors = s.sectors := rfl
@[simp] theorem State.modDom_keys (k : Nat) (g : Dom → Dom) : (s.modDom k g).keys = s.keys := rfl
@[simp] theorem State.modDom_volumes (k : Nat) (g : Dom → Dom) : (s.modDom k g).volumes = s.volumes := rfl
@[simp] theorem State.modDom_unitRecs (k : Nat) (g : Dom → Dom) : (s.modDom k g).unitRecs = s.unitRecs := rfl
@[simp] theorem State.modDom_frames (k : Nat) (g : Dom → Dom) : (s.modDom k g).frames = s.frames := rfl
@[simp] theorem State.modDom_staged (k : Nat) (g : Dom → Dom) : (s.modDom k g).staged = s.staged := rfl
@[simp] theorem State.modDom_streams (k : Nat) (g : Dom → Dom) : (s.modDom k g).streams = s.streams := rfl
@[simp] theorem State.modDom_chunks (k : Nat) (g : Dom → Dom) : (s.modDom k g).chunks = s.chunks := rfl
@[simp] theorem State.modDom_frags (k : Nat) (g : Dom → Dom) : (s.modDom k g).frags = s.frags := rfl
@[simp] theorem State.modDom_chans (k : Nat) (g : Dom → Dom) : (s.modDom k g).chans = s.chans := rfl
@[simp] theorem State.modDom_banks (k : Nat) (g : Dom → Dom) : (s.modDom k g).banks = s.banks := rfl
@[simp] theorem State.modDom_urn (k : Nat) (g : Dom → Dom) : (s.modDom k g).urn = s.urn := rfl
@[simp] theorem State.modDom_bufs (k : Nat) (g : Dom → Dom) : (s.modDom k g).bufs = s.bufs := rfl
@[simp] theorem State.modDom_svc (k : Nat) (g : Dom → Dom) : (s.modDom k g).svc = s.svc := rfl
@[simp] theorem State.modDom_pairs (k : Nat) (g : Dom → Dom) : (s.modDom k g).pairs = s.pairs := rfl
@[simp] theorem State.modDom_blendRuns (k : Nat) (g : Dom → Dom) : (s.modDom k g).blendRuns = s.blendRuns := rfl
@[simp] theorem State.modDom_links (k : Nat) (g : Dom → Dom) : (s.modDom k g).links = s.links := rfl
@[simp] theorem State.modDom_lsTable (k : Nat) (g : Dom → Dom) : (s.modDom k g).lsTable = s.lsTable := rfl
@[simp] theorem State.modDom_pins (k : Nat) (g : Dom → Dom) : (s.modDom k g).pins = s.pins := rfl
@[simp] theorem State.modDom_parts (k : Nat) (g : Dom → Dom) : (s.modDom k g).parts = s.parts := rfl
@[simp] theorem State.modDom_asks (k : Nat) (g : Dom → Dom) : (s.modDom k g).asks = s.asks := rfl
@[simp] theorem State.modDom_evRing (k : Nat) (g : Dom → Dom) : (s.modDom k g).evRing = s.evRing := rfl
@[simp] theorem State.modDom_evOpen (k : Nat) (g : Dom → Dom) : (s.modDom k g).evOpen = s.evOpen := rfl
@[simp] theorem State.modDom_evSent (k : Nat) (g : Dom → Dom) : (s.modDom k g).evSent = s.evSent := rfl
@[simp] theorem State.modDom_bus (k : Nat) (g : Dom → Dom) : (s.modDom k g).bus = s.bus := rfl
@[simp] theorem State.modDom_attn (k : Nat) (g : Dom → Dom) : (s.modDom k g).attn = s.attn := rfl
@[simp] theorem State.modDom_xfer (k : Nat) (g : Dom → Dom) : (s.modDom k g).xfer = s.xfer := rfl
@[simp] theorem State.modDom_halted (k : Nat) (g : Dom → Dom) : (s.modDom k g).halted = s.halted := rfl
@[simp] theorem State.modDom_starting (k : Nat) (g : Dom → Dom) : (s.modDom k g).starting = s.starting := rfl
@[simp] theorem State.modDom_twbPos (k : Nat) (g : Dom → Dom) : (s.modDom k g).twbPos = s.twbPos := rfl
@[simp] theorem State.modDom_rd (k : Nat) (g : Dom → Dom) (r' : Reg) (i' j' : Nat) : (s.modDom k g).rd r' i' j' = s.rd r' i' j' := rfl
@[simp] theorem State.modDom_fld (k : Nat) (g : Dom → Dom) (f' : Fld) (i' j' : Nat) : (s.modDom k g).fld f' i' j' = s.fld f' i' j' := rfl
@[simp] theorem State.modDom_flag (k : Nat) (g : Dom → Dom) (f' : Fld) (i' j' : Nat) : (s.modDom k g).flag f' i' j' = s.flag f' i' j' := rfl
@[simp] theorem State.modDom_cmd (k : Nat) (g : Dom → Dom) (t' : Nat) : (s.modDom k g).cmd t' = s.cmd t' := rfl
@[simp] theorem State.modDom_fn (k : Nat) (g : Dom → Dom) (f' : Nat) : (s.modDom k g).fn f' = s.fn f' := rfl

@[simp] theorem State.modTrig_pending (k : Nat) (g : Trig → Trig) : (s.modTrig k g).pending = s.pending := rfl
@[simp] theorem State.modTrig_regs (k : Nat) (g : Trig → Trig) : (s.modTrig k g).regs = s.regs := rfl
@[simp] theorem State.modTrig_us (k : Nat) (g : Trig → Trig) : (s.modTrig k g).us = s.us := rfl
@[simp] theorem State.modTrig_clockStop (k : Nat) (g : Trig → Trig) : (s.modTrig k g).clockStop = s.clockStop := rfl
@[simp] theorem State.modTrig_freeCtr (k : Nat) (g : Trig → Trig) : (s.modTrig k g).freeCtr = s.freeCtr := rfl
@[simp] theorem State.modTrig_out (k : Nat) (g : Trig → Trig) : (s.modTrig k g).out = s.out := rfl
@[simp] theorem State.modTrig_fns (k : Nat) (g : Trig → Trig) : (s.modTrig k g).fns = s.fns := rfl
@[simp] theorem State.modTrig_coal (k : Nat) (g : Trig → Trig) : (s.modTrig k g).coal = s.coal := rfl
@[simp] theorem State.modTrig_sqs (k : Nat) (g : Trig → Trig) : (s.modTrig k g).sqs = s.sqs := rfl
@[simp] theorem State.modTrig_cqs (k : Nat) (g : Trig → Trig) : (s.modTrig k g).cqs = s.cqs := rfl
@[simp] theorem State.modTrig_cmds (k : Nat) (g : Trig → Trig) : (s.modTrig k g).cmds = s.cmds := rfl
@[simp] theorem State.modTrig_nextTag (k : Nat) (g : Trig → Trig) : (s.modTrig k g).nextTag = s.nextTag := rfl
@[simp] theorem State.modTrig_hostMem (k : Nat) (g : Trig → Trig) : (s.modTrig k g).hostMem = s.hostMem := rfl
@[simp] theorem State.modTrig_doms (k : Nat) (g : Trig → Trig) : (s.modTrig k g).doms = s.doms := rfl
@[simp] theorem State.modTrig_batch (k : Nat) (g : Trig → Trig) : (s.modTrig k g).batch = s.batch := rfl
@[simp] theorem State.modTrig_dueNext (k : Nat) (g : Trig → Trig) : (s.modTrig k g).dueNext = s.dueNext := rfl
@[simp] theorem State.modTrig_extents (k : Nat) (g : Trig → Trig) : (s.modTrig k g).extents = s.extents := rfl
@[simp] theorem State.modTrig_lindex (k : Nat) (g : Trig → Trig) : (s.modTrig k g).lindex = s.lindex := rfl
@[simp] theorem State.modTrig_partitions (k : Nat) (g : Trig → Trig) : (s.modTrig k g).partitions = s.partitions := rfl
@[simp] theorem State.modTrig_owners (k : Nat) (g : Trig → Trig) : (s.modTrig k g).owners = s.owners := rfl
@[simp] theorem State.modTrig_mapDram (k : Nat) (g : Trig → Trig) : (s.modTrig k g).mapDram = s.mapDram := rfl
@[simp] theorem State.modTrig_mapLog (k : Nat) (g : Trig → Trig) : (s.modTrig k g).mapLog = s.mapLog := rfl
@[simp] theorem State.modTrig_oldRuns (k : Nat) (g : Trig → Trig) : (s.modTrig k g).oldRuns = s.oldRuns := rfl
@[simp] theorem State.modTrig_alloc (k : Nat) (g : Trig → Trig) : (s.modTrig k g).alloc = s.alloc := rfl
@[simp] theorem State.modTrig_sectors (k : Nat) (g : Trig → Trig) : (s.modTrig k g).sectors = s.sectors := rfl
@[simp] theorem State.modTrig_keys (k : Nat) (g : Trig → Trig) : (s.modTrig k g).keys = s.keys := rfl
@[simp] theorem State.modTrig_volumes (k : Nat) (g : Trig → Trig) : (s.modTrig k g).volumes = s.volumes := rfl
@[simp] theorem State.modTrig_unitRecs (k : Nat) (g : Trig → Trig) : (s.modTrig k g).unitRecs = s.unitRecs := rfl
@[simp] theorem State.modTrig_frames (k : Nat) (g : Trig → Trig) : (s.modTrig k g).frames = s.frames := rfl
@[simp] theorem State.modTrig_staged (k : Nat) (g : Trig → Trig) : (s.modTrig k g).staged = s.staged := rfl
@[simp] theorem State.modTrig_streams (k : Nat) (g : Trig → Trig) : (s.modTrig k g).streams = s.streams := rfl
@[simp] theorem State.modTrig_chunks (k : Nat) (g : Trig → Trig) : (s.modTrig k g).chunks = s.chunks := rfl
@[simp] theorem State.modTrig_frags (k : Nat) (g : Trig → Trig) : (s.modTrig k g).frags = s.frags := rfl
@[simp] theorem State.modTrig_chans (k : Nat) (g : Trig → Trig) : (s.modTrig k g).chans = s.chans := rfl
@[simp] theorem State.modTrig_banks (k : Nat) (g : Trig → Trig) : (s.modTrig k g).banks = s.banks := rfl
@[simp] theorem State.modTrig_urn (k : Nat) (g : Trig → Trig) : (s.modTrig k g).urn = s.urn := rfl
@[simp] theorem State.modTrig_bufs (k : Nat) (g : Trig → Trig) : (s.modTrig k g).bufs = s.bufs := rfl
@[simp] theorem State.modTrig_svc (k : Nat) (g : Trig → Trig) : (s.modTrig k g).svc = s.svc := rfl
@[simp] theorem State.modTrig_pairs (k : Nat) (g : Trig → Trig) : (s.modTrig k g).pairs = s.pairs := rfl
@[simp] theorem State.modTrig_blendRuns (k : Nat) (g : Trig → Trig) : (s.modTrig k g).blendRuns = s.blendRuns := rfl
@[simp] theorem State.modTrig_links (k : Nat) (g : Trig → Trig) : (s.modTrig k g).links = s.links := rfl
@[simp] theorem State.modTrig_lsTable (k : Nat) (g : Trig → Trig) : (s.modTrig k g).lsTable = s.lsTable := rfl
@[simp] theorem State.modTrig_pins (k : Nat) (g : Trig → Trig) : (s.modTrig k g).pins = s.pins := rfl
@[simp] theorem State.modTrig_parts (k : Nat) (g : Trig → Trig) : (s.modTrig k g).parts = s.parts := rfl
@[simp] theorem State.modTrig_asks (k : Nat) (g : Trig → Trig) : (s.modTrig k g).asks = s.asks := rfl
@[simp] theorem State.modTrig_evRing (k : Nat) (g : Trig → Trig) : (s.modTrig k g).evRing = s.evRing := rfl
@[simp] theorem State.modTrig_evOpen (k : Nat) (g : Trig → Trig) : (s.modTrig k g).evOpen = s.evOpen := rfl
@[simp] theorem State.modTrig_evSent (k : Nat) (g : Trig → Trig) : (s.modTrig k g).evSent = s.evSent := rfl
@[simp] theorem State.modTrig_bus (k : Nat) (g : Trig → Trig) : (s.modTrig k g).bus = s.bus := rfl
@[simp] theorem State.modTrig_attn (k : Nat) (g : Trig → Trig) : (s.modTrig k g).attn = s.attn := rfl
@[simp] theorem State.modTrig_xfer (k : Nat) (g : Trig → Trig) : (s.modTrig k g).xfer = s.xfer := rfl
@[simp] theorem State.modTrig_halted (k : Nat) (g : Trig → Trig) : (s.modTrig k g).halted = s.halted := rfl
@[simp] theorem State.modTrig_starting (k : Nat) (g : Trig → Trig) : (s.modTrig k g).starting = s.starting := rfl
@[simp] theorem State.modTrig_twbPos (k : Nat) (g : Trig → Trig) : (s.modTrig k g).twbPos = s.twbPos := rfl
@[simp] theorem State.modTrig_rd (k : Nat) (g : Trig → Trig) (r' : Reg) (i' j' : Nat) : (s.modTrig k g).rd r' i' j' = s.rd r' i' j' := rfl
@[simp] theorem State.modTrig_fld (k : Nat) (g : Trig → Trig) (f' : Fld) (i' j' : Nat) : (s.modTrig k g).fld f' i' j' = s.fld f' i' j' := rfl
@[simp] theorem State.modTrig_flag (k : Nat) (g : Trig → Trig) (f' : Fld) (i' j' : Nat) : (s.modTrig k g).flag f' i' j' = s.flag f' i' j' := rfl
@[simp] theorem State.modTrig_cmd (k : Nat) (g : Trig → Trig) (t' : Nat) : (s.modTrig k g).cmd t' = s.cmd t' := rfl
@[simp] theorem State.modTrig_fn (k : Nat) (g : Trig → Trig) (f' : Nat) : (s.modTrig k g).fn f' = s.fn f' := rfl
@[simp] theorem State.modTrig_dom (k : Nat) (g : Trig → Trig) (d' : Nat) : (s.modTrig k g).dom d' = s.dom d' := rfl

@[simp] theorem State.modUnit_pending (c k : Nat) (g : UnitSvc → UnitSvc) : (s.modUnit c k g).pending = s.pending := rfl
@[simp] theorem State.modUnit_regs (c k : Nat) (g : UnitSvc → UnitSvc) : (s.modUnit c k g).regs = s.regs := rfl
@[simp] theorem State.modUnit_us (c k : Nat) (g : UnitSvc → UnitSvc) : (s.modUnit c k g).us = s.us := rfl
@[simp] theorem State.modUnit_clockStop (c k : Nat) (g : UnitSvc → UnitSvc) : (s.modUnit c k g).clockStop = s.clockStop := rfl
@[simp] theorem State.modUnit_freeCtr (c k : Nat) (g : UnitSvc → UnitSvc) : (s.modUnit c k g).freeCtr = s.freeCtr := rfl
@[simp] theorem State.modUnit_out (c k : Nat) (g : UnitSvc → UnitSvc) : (s.modUnit c k g).out = s.out := rfl
@[simp] theorem State.modUnit_fns (c k : Nat) (g : UnitSvc → UnitSvc) : (s.modUnit c k g).fns = s.fns := rfl
@[simp] theorem State.modUnit_coal (c k : Nat) (g : UnitSvc → UnitSvc) : (s.modUnit c k g).coal = s.coal := rfl
@[simp] theorem State.modUnit_sqs (c k : Nat) (g : UnitSvc → UnitSvc) : (s.modUnit c k g).sqs = s.sqs := rfl
@[simp] theorem State.modUnit_cqs (c k : Nat) (g : UnitSvc → UnitSvc) : (s.modUnit c k g).cqs = s.cqs := rfl
@[simp] theorem State.modUnit_cmds (c k : Nat) (g : UnitSvc → UnitSvc) : (s.modUnit c k g).cmds = s.cmds := rfl
@[simp] theorem State.modUnit_nextTag (c k : Nat) (g : UnitSvc → UnitSvc) : (s.modUnit c k g).nextTag = s.nextTag := rfl
@[simp] theorem State.modUnit_hostMem (c k : Nat) (g : UnitSvc → UnitSvc) : (s.modUnit c k g).hostMem = s.hostMem := rfl
@[simp] theorem State.modUnit_doms (c k : Nat) (g : UnitSvc → UnitSvc) : (s.modUnit c k g).doms = s.doms := rfl
@[simp] theorem State.modUnit_trigs (c k : Nat) (g : UnitSvc → UnitSvc) : (s.modUnit c k g).trigs = s.trigs := rfl
@[simp] theorem State.modUnit_batch (c k : Nat) (g : UnitSvc → UnitSvc) : (s.modUnit c k g).batch = s.batch := rfl
@[simp] theorem State.modUnit_dueNext (c k : Nat) (g : UnitSvc → UnitSvc) : (s.modUnit c k g).dueNext = s.dueNext := rfl
@[simp] theorem State.modUnit_extents (c k : Nat) (g : UnitSvc → UnitSvc) : (s.modUnit c k g).extents = s.extents := rfl
@[simp] theorem State.modUnit_lindex (c k : Nat) (g : UnitSvc → UnitSvc) : (s.modUnit c k g).lindex = s.lindex := rfl
@[simp] theorem State.modUnit_partitions (c k : Nat) (g : UnitSvc → UnitSvc) : (s.modUnit c k g).partitions = s.partitions := rfl
@[simp] theorem State.modUnit_owners (c k : Nat) (g : UnitSvc → UnitSvc) : (s.modUnit c k g).owners = s.owners := rfl
@[simp] theorem State.modUnit_mapDram (c k : Nat) (g : UnitSvc → UnitSvc) : (s.modUnit c k g).mapDram = s.mapDram := rfl
@[simp] theorem State.modUnit_mapLog (c k : Nat) (g : UnitSvc → UnitSvc) : (s.modUnit c k g).mapLog = s.mapLog := rfl
@[simp] theorem State.modUnit_oldRuns (c k : Nat) (g : UnitSvc → UnitSvc) : (s.modUnit c k g).oldRuns = s.oldRuns := rfl
@[simp] theorem State.modUnit_alloc (c k : Nat) (g : UnitSvc → UnitSvc) : (s.modUnit c k g).alloc = s.alloc := rfl
@[simp] theorem State.modUnit_sectors (c k : Nat) (g : UnitSvc → UnitSvc) : (s.modUnit c k g).sectors = s.sectors := rfl
@[simp] theorem State.modUnit_keys (c k : Nat) (g : UnitSvc → UnitSvc) : (s.modUnit c k g).keys = s.keys := rfl
@[simp] theorem State.modUnit_volumes (c k : Nat) (g : UnitSvc → UnitSvc) : (s.modUnit c k g).volumes = s.volumes := rfl
@[simp] theorem State.modUnit_unitRecs (c k : Nat) (g : UnitSvc → UnitSvc) : (s.modUnit c k g).unitRecs = s.unitRecs := rfl
@[simp] theorem State.modUnit_frames (c k : Nat) (g : UnitSvc → UnitSvc) : (s.modUnit c k g).frames = s.frames := rfl
@[simp] theorem State.modUnit_staged (c k : Nat) (g : UnitSvc → UnitSvc) : (s.modUnit c k g).staged = s.staged := rfl
@[simp] theorem State.modUnit_streams (c k : Nat) (g : UnitSvc → UnitSvc) : (s.modUnit c k g).streams = s.streams := rfl
@[simp] theorem State.modUnit_chunks (c k : Nat) (g : UnitSvc → UnitSvc) : (s.modUnit c k g).chunks = s.chunks := rfl
@[simp] theorem State.modUnit_frags (c k : Nat) (g : UnitSvc → UnitSvc) : (s.modUnit c k g).frags = s.frags := rfl
@[simp] theorem State.modUnit_chans (c k : Nat) (g : UnitSvc → UnitSvc) : (s.modUnit c k g).chans = s.chans := rfl
@[simp] theorem State.modUnit_banks (c k : Nat) (g : UnitSvc → UnitSvc) : (s.modUnit c k g).banks = s.banks := rfl
@[simp] theorem State.modUnit_urn (c k : Nat) (g : UnitSvc → UnitSvc) : (s.modUnit c k g).urn = s.urn := rfl
@[simp] theorem State.modUnit_bufs (c k : Nat) (g : UnitSvc → UnitSvc) : (s.modUnit c k g).bufs = s.bufs := rfl
@[simp] theorem State.modUnit_pairs (c k : Nat) (g : UnitSvc → UnitSvc) : (s.modUnit c k g).pairs = s.pairs := rfl
@[simp] theorem State.modUnit_blendRuns (c k : Nat) (g : UnitSvc → UnitSvc) : (s.modUnit c k g).blendRuns = s.blendRuns := rfl
@[simp] theorem State.modUnit_links (c k : Nat) (g : UnitSvc → UnitSvc) : (s.modUnit c k g).links = s.links := rfl
@[simp] theorem State.modUnit_lsTable (c k : Nat) (g : UnitSvc → UnitSvc) : (s.modUnit c k g).lsTable = s.lsTable := rfl
@[simp] theorem State.modUnit_pins (c k : Nat) (g : UnitSvc → UnitSvc) : (s.modUnit c k g).pins = s.pins := rfl
@[simp] theorem State.modUnit_parts (c k : Nat) (g : UnitSvc → UnitSvc) : (s.modUnit c k g).parts = s.parts := rfl
@[simp] theorem State.modUnit_asks (c k : Nat) (g : UnitSvc → UnitSvc) : (s.modUnit c k g).asks = s.asks := rfl
@[simp] theorem State.modUnit_evRing (c k : Nat) (g : UnitSvc → UnitSvc) : (s.modUnit c k g).evRing = s.evRing := rfl
@[simp] theorem State.modUnit_evOpen (c k : Nat) (g : UnitSvc → UnitSvc) : (s.modUnit c k g).evOpen = s.evOpen := rfl
@[simp] theorem State.modUnit_evSent (c k : Nat) (g : UnitSvc → UnitSvc) : (s.modUnit c k g).evSent = s.evSent := rfl
@[simp] theorem State.modUnit_bus (c k : Nat) (g : UnitSvc → UnitSvc) : (s.modUnit c k g).bus = s.bus := rfl
@[simp] theorem State.modUnit_attn (c k : Nat) (g : UnitSvc → UnitSvc) : (s.modUnit c k g).attn = s.attn := rfl
@[simp] theorem State.modUnit_xfer (c k : Nat) (g : UnitSvc → UnitSvc) : (s.modUnit c k g).xfer = s.xfer := rfl
@[simp] theorem State.modUnit_halted (c k : Nat) (g : UnitSvc → UnitSvc) : (s.modUnit c k g).halted = s.halted := rfl
@[simp] theorem State.modUnit_starting (c k : Nat) (g : UnitSvc → UnitSvc) : (s.modUnit c k g).starting = s.starting := rfl
@[simp] theorem State.modUnit_twbPos (c k : Nat) (g : UnitSvc → UnitSvc) : (s.modUnit c k g).twbPos = s.twbPos := rfl
@[simp] theorem State.modUnit_rd (c k : Nat) (g : UnitSvc → UnitSvc) (r' : Reg) (i' j' : Nat) : (s.modUnit c k g).rd r' i' j' = s.rd r' i' j' := rfl
@[simp] theorem State.modUnit_fld (c k : Nat) (g : UnitSvc → UnitSvc) (f' : Fld) (i' j' : Nat) : (s.modUnit c k g).fld f' i' j' = s.fld f' i' j' := rfl
@[simp] theorem State.modUnit_flag (c k : Nat) (g : UnitSvc → UnitSvc) (f' : Fld) (i' j' : Nat) : (s.modUnit c k g).flag f' i' j' = s.flag f' i' j' := rfl
@[simp] theorem State.modUnit_cmd (c k : Nat) (g : UnitSvc → UnitSvc) (t' : Nat) : (s.modUnit c k g).cmd t' = s.cmd t' := rfl
@[simp] theorem State.modUnit_fn (c k : Nat) (g : UnitSvc → UnitSvc) (f' : Nat) : (s.modUnit c k g).fn f' = s.fn f' := rfl
@[simp] theorem State.modUnit_dom (c k : Nat) (g : UnitSvc → UnitSvc) (d' : Nat) : (s.modUnit c k g).dom d' = s.dom d' := rfl

@[simp] theorem State.finish_pending (t : Nat) (r : Res) : (s.finish t r).pending = s.pending := rfl
@[simp] theorem State.finish_regs (t : Nat) (r : Res) : (s.finish t r).regs = s.regs := rfl
@[simp] theorem State.finish_us (t : Nat) (r : Res) : (s.finish t r).us = s.us := rfl
@[simp] theorem State.finish_clockStop (t : Nat) (r : Res) : (s.finish t r).clockStop = s.clockStop := rfl
@[simp] theorem State.finish_freeCtr (t : Nat) (r : Res) : (s.finish t r).freeCtr = s.freeCtr := rfl
@[simp] theorem State.finish_out (t : Nat) (r : Res) : (s.finish t r).out = s.out := rfl
@[simp] theorem State.finish_fns (t : Nat) (r : Res) : (s.finish t r).fns = s.fns := rfl
@[simp] theorem State.finish_coal (t : Nat) (r : Res) : (s.finish t r).coal = s.coal := rfl
@[simp] theorem State.finish_sqs (t : Nat) (r : Res) : (s.finish t r).sqs = s.sqs := rfl
@[simp] theorem State.finish_cqs (t : Nat) (r : Res) : (s.finish t r).cqs = s.cqs := rfl
@[simp] theorem State.finish_nextTag (t : Nat) (r : Res) : (s.finish t r).nextTag = s.nextTag := rfl
@[simp] theorem State.finish_hostMem (t : Nat) (r : Res) : (s.finish t r).hostMem = s.hostMem := rfl
@[simp] theorem State.finish_doms (t : Nat) (r : Res) : (s.finish t r).doms = s.doms := rfl
@[simp] theorem State.finish_trigs (t : Nat) (r : Res) : (s.finish t r).trigs = s.trigs := rfl
@[simp] theorem State.finish_batch (t : Nat) (r : Res) : (s.finish t r).batch = s.batch := rfl
@[simp] theorem State.finish_dueNext (t : Nat) (r : Res) : (s.finish t r).dueNext = s.dueNext := rfl
@[simp] theorem State.finish_extents (t : Nat) (r : Res) : (s.finish t r).extents = s.extents := rfl
@[simp] theorem State.finish_lindex (t : Nat) (r : Res) : (s.finish t r).lindex = s.lindex := rfl
@[simp] theorem State.finish_partitions (t : Nat) (r : Res) : (s.finish t r).partitions = s.partitions := rfl
@[simp] theorem State.finish_owners (t : Nat) (r : Res) : (s.finish t r).owners = s.owners := rfl
@[simp] theorem State.finish_mapDram (t : Nat) (r : Res) : (s.finish t r).mapDram = s.mapDram := rfl
@[simp] theorem State.finish_mapLog (t : Nat) (r : Res) : (s.finish t r).mapLog = s.mapLog := rfl
@[simp] theorem State.finish_oldRuns (t : Nat) (r : Res) : (s.finish t r).oldRuns = s.oldRuns := rfl
@[simp] theorem State.finish_alloc (t : Nat) (r : Res) : (s.finish t r).alloc = s.alloc := rfl
@[simp] theorem State.finish_sectors (t : Nat) (r : Res) : (s.finish t r).sectors = s.sectors := rfl
@[simp] theorem State.finish_keys (t : Nat) (r : Res) : (s.finish t r).keys = s.keys := rfl
@[simp] theorem State.finish_volumes (t : Nat) (r : Res) : (s.finish t r).volumes = s.volumes := rfl
@[simp] theorem State.finish_unitRecs (t : Nat) (r : Res) : (s.finish t r).unitRecs = s.unitRecs := rfl
@[simp] theorem State.finish_frames (t : Nat) (r : Res) : (s.finish t r).frames = s.frames := rfl
@[simp] theorem State.finish_staged (t : Nat) (r : Res) : (s.finish t r).staged = s.staged := rfl
@[simp] theorem State.finish_streams (t : Nat) (r : Res) : (s.finish t r).streams = s.streams := rfl
@[simp] theorem State.finish_chunks (t : Nat) (r : Res) : (s.finish t r).chunks = s.chunks := rfl
@[simp] theorem State.finish_frags (t : Nat) (r : Res) : (s.finish t r).frags = s.frags := rfl
@[simp] theorem State.finish_chans (t : Nat) (r : Res) : (s.finish t r).chans = s.chans := rfl
@[simp] theorem State.finish_banks (t : Nat) (r : Res) : (s.finish t r).banks = s.banks := rfl
@[simp] theorem State.finish_urn (t : Nat) (r : Res) : (s.finish t r).urn = s.urn := rfl
@[simp] theorem State.finish_bufs (t : Nat) (r : Res) : (s.finish t r).bufs = s.bufs := rfl
@[simp] theorem State.finish_svc (t : Nat) (r : Res) : (s.finish t r).svc = s.svc := rfl
@[simp] theorem State.finish_pairs (t : Nat) (r : Res) : (s.finish t r).pairs = s.pairs := rfl
@[simp] theorem State.finish_blendRuns (t : Nat) (r : Res) : (s.finish t r).blendRuns = s.blendRuns := rfl
@[simp] theorem State.finish_links (t : Nat) (r : Res) : (s.finish t r).links = s.links := rfl
@[simp] theorem State.finish_lsTable (t : Nat) (r : Res) : (s.finish t r).lsTable = s.lsTable := rfl
@[simp] theorem State.finish_pins (t : Nat) (r : Res) : (s.finish t r).pins = s.pins := rfl
@[simp] theorem State.finish_parts (t : Nat) (r : Res) : (s.finish t r).parts = s.parts := rfl
@[simp] theorem State.finish_asks (t : Nat) (r : Res) : (s.finish t r).asks = s.asks := rfl
@[simp] theorem State.finish_evRing (t : Nat) (r : Res) : (s.finish t r).evRing = s.evRing := rfl
@[simp] theorem State.finish_evOpen (t : Nat) (r : Res) : (s.finish t r).evOpen = s.evOpen := rfl
@[simp] theorem State.finish_evSent (t : Nat) (r : Res) : (s.finish t r).evSent = s.evSent := rfl
@[simp] theorem State.finish_bus (t : Nat) (r : Res) : (s.finish t r).bus = s.bus := rfl
@[simp] theorem State.finish_attn (t : Nat) (r : Res) : (s.finish t r).attn = s.attn := rfl
@[simp] theorem State.finish_xfer (t : Nat) (r : Res) : (s.finish t r).xfer = s.xfer := rfl
@[simp] theorem State.finish_halted (t : Nat) (r : Res) : (s.finish t r).halted = s.halted := rfl
@[simp] theorem State.finish_starting (t : Nat) (r : Res) : (s.finish t r).starting = s.starting := rfl
@[simp] theorem State.finish_twbPos (t : Nat) (r : Res) : (s.finish t r).twbPos = s.twbPos := rfl
@[simp] theorem State.finish_rd (t : Nat) (r : Res) (r' : Reg) (i' j' : Nat) : (s.finish t r).rd r' i' j' = s.rd r' i' j' := rfl
@[simp] theorem State.finish_fld (t : Nat) (r : Res) (f' : Fld) (i' j' : Nat) : (s.finish t r).fld f' i' j' = s.fld f' i' j' := rfl
@[simp] theorem State.finish_flag (t : Nat) (r : Res) (f' : Fld) (i' j' : Nat) : (s.finish t r).flag f' i' j' = s.flag f' i' j' := rfl
@[simp] theorem State.finish_fn (t : Nat) (r : Res) (f' : Nat) : (s.finish t r).fn f' = s.fn f' := rfl
@[simp] theorem State.finish_dom (t : Nat) (r : Res) (d' : Nat) : (s.finish t r).dom d' = s.dom d' := rfl

end Sys2Proof.Machine
end

