-- ==== Sys2Proof/Laws/Ops.lean ====
section
/-! SUPPORT. What the shared operations can do: outputs, vectors, the event log, attention, the trace. Each lemma says which registers and which fields
an operation may change, so that no later proof unfolds it. -/

namespace Sys2Proof.Machine

variable (s : State)

@[simp] theorem State.cmd_modCmd_same (t : Nat) (g : Cmd → Cmd) : (s.modCmd t g).cmd t = g (s.cmd t) := by
  simp [State.cmd, State.modCmd]
theorem State.cmd_modCmd_ne {t t' : Nat} (g : Cmd → Cmd) (h : t' ≠ t) : (s.modCmd t g).cmd t' = s.cmd t' := by
  simp [State.cmd, State.modCmd, h]
@[simp] theorem State.fn_modFn_same (f : Nat) (g : Fn → Fn) : (s.modFn f g).fn f = g (s.fn f) := by
  simp [State.fn, State.modFn]
theorem State.fn_modFn_ne {f f' : Nat} (g : Fn → Fn) (h : f' ≠ f) : (s.modFn f g).fn f' = s.fn f' := by
  simp [State.fn, State.modFn, h]
@[simp] theorem State.dom_modDom_same (d : Nat) (g : Dom → Dom) : (s.modDom d g).dom d = g (s.dom d) := by
  simp [State.dom, State.modDom]
theorem State.dom_modDom_ne {d d' : Nat} (g : Dom → Dom) (h : d' ≠ d) : (s.modDom d g).dom d' = s.dom d' := by
  simp [State.dom, State.modDom, h]

/-- An output goes to the list, and a trace's hash may change. -/
theorem Only.emit (o : Output) : Only [.regs, .out] s (s.emit o) := by
  have key : ∀ s' : State, Only [.regs, .out] s s' → Only [.regs, .out] s (if s'.tracing 2 then s' else { s' with out := s'.out ++ [o] }) := by
    intro s' h
    split
    · exact h
    · refine h.trans ?_
      intro p hp; cases p <;> first | rfl | exact absurd (by decide) hp
  unfold State.emit
  apply key
  split
  · exact (Only.setFld _ _ _ _ _).mono (by decide)
  · exact Only.refl _ _

theorem RegsBut.emit (o : Output) : RegsBut [.twbOutHash] s (s.emit o) := by
  have key : ∀ s' : State, RegsBut [.twbOutHash] s s' → RegsBut [.twbOutHash] s (if s'.tracing 2 then s' else { s' with out := s'.out ++ [o] }) := by
    intro s' h
    split
    · exact h
    · exact h.trans fun _ _ _ _ => rfl
  unfold State.emit
  apply key
  split
  · exact (RegsBut.setFld _ _ _ _ _).mono (by decide)
  · exact RegsBut.refl _ _

/-- With no trace running an output is appended to the list, and nothing else changes. -/
theorem State.emit_quiet (o : Output) (h : s.flag Fld.twbCtrlGo = false) : s.emit o = { s with out := s.out ++ [o] } := by
  simp [State.emit, State.tracing, h]

/-! ### Vectors -/

/-- Every function's record is as before but for its pending bits. -/
def FnsKeep (s t : State) : Prop := ∀ f, ∃ p, t.fn f = { s.fn f with pba := p }

theorem FnsKeep.of_only {ps : List Field} {s t : State} (h : Only ps s t) (hp : Field.fns ∉ ps) : FnsKeep s t := by
  intro f
  have : t.fns = s.fns := h .fns hp
  exact ⟨(s.fn f).pba, by simp [State.fn, this]⟩

theorem FnsKeep.trans {s t u : State} (h1 : FnsKeep s t) (h2 : FnsKeep t u) : FnsKeep s u := by
  intro f
  obtain ⟨p, hp⟩ := h1 f
  obtain ⟨q, hq⟩ := h2 f
  exact ⟨q, by rw [hq, hp]⟩

/-- Signalling a vector sends a message or sets a pending bit. -/
theorem Only.sendVector (f v : Nat) : Only [.regs, .out, .fns] s (s.sendVector f v) := by
  unfold State.sendVector
  split
  · exact (Only.emit s _).mono (by decide)
  · exact (Only.modFn s _ _).mono (by decide)

theorem RegsBut.sendVector (f v : Nat) : RegsBut [.twbOutHash] s (s.sendVector f v) := by
  unfold State.sendVector
  split
  · exact RegsBut.emit s _
  · exact RegsBut.of_only (Only.modFn s _ _) (by decide) |>.mono (by simp)

theorem FnsKeep.sendVector (f v : Nat) : FnsKeep s (s.sendVector f v) := by
  unfold State.sendVector
  split
  · exact FnsKeep.of_only (Only.emit s _) (by decide)
  · intro f'
    by_cases hf : f' = f
    · subst hf; exact ⟨_, s.fn_modFn_same _ _⟩
    · exact ⟨(s.fn f').pba, s.fn_modFn_ne _ hf⟩

/-! ### The event log -/

/-- The registers that the event log, its interrupt and the attention it raises may write. -/
def logRegs : List Reg := [.evtCons, .evtStat, .evtProd, .pwrMbAttn, .pwrMbStatus, .twbOutHash]

/-- The parts that they may change. -/
def logFields : List Field := [.regs, .out, .fns, .evRing, .evSent, .attn]

/-- Attention writes PWR_MB_ATTN and PWR_MB_STATUS and the attention record. -/
theorem Only.attend (c : Nat) : Only [.regs, .attn] s (s.attend c) := by
  have h : Only [.regs, .attn] s (if bit (s.fld Fld.pwrMbAttnCause) c then s else { s with attn := { s.attn with served := false } }) := by
    split
    · exact Only.refl _ _
    · intro p hp; cases p <;> first | rfl | exact absurd (by decide) hp
  unfold State.attend State.attnShow
  exact (h.trans ((Only.setFld _ _ _ _ _).mono (by decide))).trans ((Only.setFld _ _ _ _ _).mono (by decide))

theorem RegsBut.attend (c : Nat) : RegsBut [.pwrMbAttn, .pwrMbStatus] s (s.attend c) := by
  have h : RegsBut [.pwrMbAttn, .pwrMbStatus] s (if bit (s.fld Fld.pwrMbAttnCause) c then s else { s with attn := { s.attn with served := false } }) := by
    split
    · exact RegsBut.refl _ _
    · exact fun _ _ _ _ => rfl
  unfold State.attend State.attnShow
  exact (h.trans ((RegsBut.setFld _ _ _ _ _).mono (by decide))).trans ((RegsBut.setFld _ _ _ _ _).mono (by decide))

theorem Only.evInterrupt (v : Nat) : Only logFields s (s.evInterrupt v) := by
  unfold State.evInterrupt
  split
  · exact Only.refl _ _
  · split
    · exact Only.refl _ _
    · refine Only.trans (t := { s with evSent := true }) ?_ ((Only.sendVector _ _ _).mono (by decide))
      intro p hp; cases p <;> first | rfl | exact absurd (by decide) hp

theorem RegsBut.evInterrupt (v : Nat) : RegsBut logRegs s (s.evInterrupt v) := by
  unfold State.evInterrupt
  split
  · exact RegsBut.refl _ _
  · split
    · exact RegsBut.refl _ _
    · exact RegsBut.trans (t := { s with evSent := true }) (fun _ _ _ _ => rfl) ((RegsBut.sendVector _ _ _).mono (by decide))

theorem FnsKeep.evInterrupt (v : Nat) : FnsKeep s (s.evInterrupt v) := by
  unfold State.evInterrupt
  split
  · exact FnsKeep.of_only (Only.refl [] _) (by decide)
  · split
    · exact FnsKeep.of_only (Only.refl [] _) (by decide)
    · exact FnsKeep.sendVector { s with evSent := true } _ _

theorem Only.evAttend (c : Nat) : Only [.regs, .attn] s (s.evAttend c) := by
  unfold State.evAttend
  split
  · exact Only.attend s 1
  · exact Only.refl _ _

theorem RegsBut.evAttend (c : Nat) : RegsBut [.pwrMbAttn, .pwrMbStatus] s (s.evAttend c) := by
  unfold State.evAttend
  split
  · exact RegsBut.attend s 1
  · exact RegsBut.refl _ _

theorem Only.ringWrite (k e : Nat) : Only [.evRing] s (s.ringWrite k e) := by
  intro p hp; cases p <;> first | rfl | exact absurd (by decide) hp

theorem Only.evPut (code kind idx detail : Nat) : Only [.regs, .evRing] s (s.evPut code kind idx detail) := by
  unfold State.evPut
  exact ((Only.ringWrite s _ _).mono (by decide)).trans ((Only.setFld (s.ringWrite _ _) _ _ _ _).mono (by decide))

theorem RegsBut.evPut (code kind idx detail : Nat) : RegsBut [.evtProd] s (s.evPut code kind idx detail) := by
  unfold State.evPut
  exact ((RegsBut.of_only (Only.ringWrite s _ _) (by decide)).mono (by decide)).trans
    ((RegsBut.setFld (s.ringWrite _ _) _ _ _ _).mono (by decide))

theorem Only.evRoom : Only [.regs] s s.evRoom := by
  unfold State.evRoom
  split
  · exact (Only.setFld _ _ _ _ _).trans (Only.bump _ _ _ _ _)
  · exact Only.refl _ _

theorem RegsBut.evRoom : RegsBut [.evtCons, .evtStat] s s.evRoom := by
  unfold State.evRoom
  split
  · exact ((RegsBut.setFld _ _ _ _ _).mono (by decide)).trans ((RegsBut.bump _ _ _ _ _).mono (by decide))
  · exact RegsBut.refl _ _

/-- What logging an event may change: the ring and its registers, the attention, the event message. -/
theorem State.log_frame (code kind idx detail : Nat) :
    Only logFields s (s.log code kind idx detail) ∧ RegsBut logRegs s (s.log code kind idx detail) ∧ FnsKeep s (s.log code kind idx detail) := by
  unfold State.log
  split
  · exact ⟨Only.refl _ _, RegsBut.refl _ _, FnsKeep.of_only (Only.refl [] _) (by decide)⟩
  · refine ⟨?_, ?_, ?_⟩
    · exact ((((Only.evRoom s).mono (by decide)).trans ((Only.evPut _ _ _ _ _).mono (by decide))).trans (Only.evInterrupt _ _)).trans
        ((Only.evAttend _ _).mono (by decide))
    · exact ((((RegsBut.evRoom s).mono (by decide)).trans ((RegsBut.evPut _ _ _ _ _).mono (by decide))).trans (RegsBut.evInterrupt _ _)).trans
        ((RegsBut.evAttend _ _).mono (by decide))
    · exact (((FnsKeep.of_only (Only.evRoom s) (by decide)).trans (FnsKeep.of_only (Only.evPut _ _ _ _ _) (by decide))).trans
        (FnsKeep.evInterrupt _ _)).trans (FnsKeep.of_only (Only.evAttend _ _) (by decide))

theorem Only.log (code kind idx detail : Nat) : Only logFields s (s.log code kind idx detail) := (s.log_frame _ _ _ _).1
theorem RegsBut.log (code kind idx detail : Nat) : RegsBut logRegs s (s.log code kind idx detail) := (s.log_frame _ _ _ _).2.1
theorem FnsKeep.log (code kind idx detail : Nat) : FnsKeep s (s.log code kind idx detail) := (s.log_frame _ _ _ _).2.2

/-- An event that is not logged leaves everything as it is: the ring is not open yet (R536). -/
theorem State.log_closed (code kind idx detail : Nat) (h : s.evOpen = false) : s.log code kind idx detail = s := by
  simp [State.log, h]

/-! ### The trace -/

theorem Only.putRecord (place : Nat) (rec : List Byte) : Only [.regs, .urn, .twbPos] s (s.putRecord place rec) := by
  unfold State.putRecord
  refine Only.trans (t := { s with twbPos := place + rec.length }) ?_ (Only.trans ((Only.urnWrite _ _ _).mono (by decide))
    ((Only.tally _ _ _ _ _).mono (by decide)))
  intro p hp; cases p <;> first | rfl | exact absurd (by decide) hp

theorem RegsBut.putRecord (place : Nat) (rec : List Byte) : RegsBut [.twbStatus] s (s.putRecord place rec) := by
  unfold State.putRecord
  refine RegsBut.trans (t := { s with twbPos := place + rec.length }) (fun _ _ _ _ => rfl) (RegsBut.trans
    ((RegsBut.of_only (Only.urnWrite _ _ _) (by decide)).mono (by decide)) ((RegsBut.tally _ _ _ _ _).mono (by decide)))

theorem Only.record (rec : List Byte) : Only [.regs, .urn, .twbPos] s (s.record rec) := by
  unfold State.record
  dsimp only
  split
  · exact Only.putRecord s _ _
  · split
    · exact Only.trans (Only.putRecord s 0 rec) ((Only.setFld (s.putRecord 0 rec) _ _ _ _).mono (by decide))
    · exact Only.trans ((Only.setFld s _ _ _ _).mono (by decide)) ((Only.setFld (s.setFld _ _ _ _) _ _ _ _).mono (by decide))

theorem RegsBut.record (rec : List Byte) : RegsBut [.twbStatus, .twbCtrl] s (s.record rec) := by
  unfold State.record
  dsimp only
  split
  · exact (RegsBut.putRecord s _ _).mono (by decide)
  · split
    · exact RegsBut.trans ((RegsBut.putRecord s 0 rec).mono (by decide)) ((RegsBut.setFld (s.putRecord 0 rec) _ _ _ _).mono (by decide))
    · exact RegsBut.trans ((RegsBut.setFld s _ _ _ _).mono (by decide)) ((RegsBut.setFld (s.setFld _ _ _ _) _ _ _ _).mono (by decide))

/-- Recording may write the trace buffer, its position and its registers. -/
theorem Only.capture (cls idx : Nat) (p : List Byte) : Only [.regs, .urn, .twbPos] s (s.capture cls idx p) := by
  unfold State.capture
  split
  · exact (Only.tally s _ _ _ _).mono (by decide)
  · split
    · exact Only.refl _ _
    · split
      · exact (Only.setFld s _ _ _ _).mono (by decide)
      · exact Only.record s _

theorem RegsBut.capture (cls idx : Nat) (p : List Byte) : RegsBut [.twbStatus, .twbCtrl] s (s.capture cls idx p) := by
  unfold State.capture
  split
  · exact (RegsBut.tally s _ _ _ _).mono (by decide)
  · split
    · exact RegsBut.refl _ _
    · split
      · exact (RegsBut.setFld s _ _ _ _).mono (by decide)
      · exact RegsBut.record s _

/-- A host's write may change the trace's buffer, position and registers, and nothing else. -/
theorem Only.hostInput (f : Nat) (bs : List Byte) : Only [.regs, .urn, .twbPos] s (s.hostInput f bs) := Only.capture s _ _ _
theorem RegsBut.hostInput (f : Nat) (bs : List Byte) : RegsBut [.twbStatus, .twbCtrl] s (s.hostInput f bs) := RegsBut.capture s _ _ _

/-- With no trace running an outside input leaves the state as it is. -/
theorem State.capture_quiet (cls idx : Nat) (p : List Byte) (h : s.flag Fld.twbCtrlGo = false) : s.capture cls idx p = s := by
  simp [State.capture, State.tracing, h]

theorem State.hostInput_quiet (f : Nat) (bs : List Byte) (h : s.flag Fld.twbCtrlGo = false) : s.hostInput f bs = s := s.capture_quiet _ _ _ h

end Sys2Proof.Machine
end

