-- ==== Sys2Proof/Tests/Slice0.lean ====
section
/-! SUPPORT. The model's own tests: ill-formed commands that the check refuses, worked examples of the spec, and for each statement that has hypotheses states
and operands that meet them, clause by clause. -/

open Sys2Proof Sys2Proof.Machine
namespace Sys2Proof.Tests

set_option Elab.async false

/-! ### Well-formed and ill-formed commands -/

/-- Ill-formed commands, each for one check that it misses (part 1). -/
theorem test_illFormed_refused_1 : ([.cmdAcqEnable 256 0, .cmdAcqEnable 0 (2 ^ 32), .cmdAcqDisable 256 0, .cmdAcqDisable 0 (2 ^ 32), .sqEntryWrite 256 0 [],
    .sqEntryWrite 0 (2 ^ 20) [], .sqEntryWrite 0 (2 ^ 20 - 1) [0, 0], .sqTailDoorbell 256 0 0, .sqTailDoorbell 0 256 0, .sqTailDoorbell 0 0 64,
    .cqHeadDoorbell 256 0 0, .cqHeadDoorbell 0 256 0, .cqHeadDoorbell 0 0 (2 ^ 12), .coalesceTimeExpiry 256 0, .coalesceTimeExpiry 0 64,
    .msixUnmask 256 0, .msixUnmask 0 64, .busMasterEnableSet 256, .hostFault 0 3 0, .hostFault 0 0 (2 ^ 64), .progressWatchdogExpiry 0 8 0,
    .progressWatchdogExpiry 0 0 128, .chunkFree (2 ^ 10) 0 0 0, .chunkFree 0 0 256 0, .chunkFree 0 0 0 (2 ^ 12), .selfTestDone 8 0 0,
    .selfTestDone 0 128 0, .selfTestDone 0 0 256, .pourDomEnable 64, .pourDomDisable 64] : List Instr).all (fun i => !wellFormed i) = true := by
  decide +kernel

/-- Ill-formed commands, each for one check that it misses (part 2). -/
theorem test_illFormed_refused_2 : ([.pourDomReset 64, .pourUpdateReceive 64 (List.replicate 16 0), .pourUpdateReceive 0 (List.replicate 15 0), .pourSync 64 0, .pourSync 0 64,
    .pourSyncTimeout 64, .tickAdvance 64, .silenceExpiry 64, .triggerFire (2 ^ 10), .leaseExpiry false (2 ^ 40), .graceEnd false (2 ^ 40),
    .zeroFillStart false (2 ^ 40), .zeroFillDone (2 ^ 27), .poolLogicalWrite 3 0, .poolLogicalWrite 0 (2 ^ 19), .flashFrameRead 32 0 0 0,
    .flashFrameRead 0 (2 ^ 28) 0 0, .flashFrameRead 0 0 6 0, .libPatrol 32 0 0 0, .libPatrol 0 (2 ^ 28) 0 0, .libPatrol 0 0 6 0,
    .lunStatusTimeout 32 0 0, .lunStatusTimeout 0 8 0, .lunStatusTimeout 0 0 4, .dieRebuildUnit (2 ^ 18) 0 0, .dieRebuildUnit 0 (2 ^ 24) 0,
    .dieRebuildUnit 0 0 (2 ^ 28), .stageHoldExpiry (2 ^ 18) 0 0, .stageHoldExpiry 0 (2 ^ 24) 0, .stageHoldExpiry 0 0 2] : List Instr).all (fun i => !wellFormed i) = true := by
  decide +kernel

/-- Ill-formed commands, each for one check that it misses (part 3). -/
theorem test_illFormed_refused_3 : ([.libStageDramWrite 3 0, .libStageDramWrite 0 (2 ^ 19), .libStageUrnWrite 3 0, .libStageUrnWrite 0 (2 ^ 9), .prsScratchWrite 3 0,
    .prsScratchWrite 0 (2 ^ 64), .bufferDeferredFree (2 ^ 16), .urnScrubPatrol (2 ^ 29) 0, .urnScrubPatrol 0 (2 ^ 16), .urnWinCtrlWrite 64 0,
    .urnWinCtrlWrite 0 (2 ^ 64), .channelDispatch 32, .descriptor 256, .move 256, .loop 256, .wait 256, .waitFlagPoll 256, .waitSatisfied 256,
    .waitLimitExpiry 256, .signal 256, .endInstr 256, .runComplete 256, .dmaRetryTimer 256, .trefiElapse 16 0, .trefiElapse 0 16,
    .opportunisticRefresh 16 0, .opportunisticRefresh 0 16, .rowIdleClose 16 0, .rowIdleClose 0 (2 ^ 9), .thermalHot 16] : List Instr).all (fun i => !wellFormed i) = true := by
  decide +kernel

/-- Ill-formed commands, each for one check that it misses (part 4). -/
theorem test_illFormed_refused_4 : ([.dramPatrolScrub 16 0 0, .dramPatrolScrub 0 (2 ^ 64) 0, .dramPatrolScrub 0 0 12, .dramChannelLost 16, .drcHashNextWrite 5 0,
    .drcHashNextWrite 0 (2 ^ 48), .blendWindowEnd [] [] (2 ^ 64), .bldCommit 64, .bldActiveWrite (2 ^ 64), .decafAge 402 0, .flr 256,
    .flrCancelTimeout 256, .portReset 16, .vfEnableClear 256, .numvfsWrite 256 0, .numvfsWrite 0 256, .tenFmWrite 3 0, .tenFmWrite 0 (2 ^ 64),
    .flitReceive 64 (List.replicate 256 0) 0 false, .flitReceive 0 (List.replicate 255 0) 0 false, .replayTimerExpiry 64, .fastRetrain 64,
    .coldRetrain 64, .detectTimeout 64, .trainFlit 64 (List.replicate 256 0), .trainFlit 0 (List.replicate 255 0), .paramTimeout 64,
    .reupTimer 64, .wlkCtrlFast 64, .wlkCtrlCold 64] : List Instr).all (fun i => !wellFormed i) = true := by
  decide +kernel

/-- Ill-formed commands, each for one check that it misses (part 5). -/
theorem test_illFormed_refused_5 : ([.wlkCreditWrite 64 0, .wlkCreditWrite 0 (2 ^ 64), .fastReq 64, .coldReq 64, .linkLost 64 (List.replicate 16 0),
    .linkLost 0 (List.replicate 15 0), .linkLostTimeout 64, .cmdFwd 64 (List.replicate 16 0), .cmdFwd 0 (List.replicate 15 0),
    .work 64 (List.replicate 16 0), .work 0 (List.replicate 15 0), .writeData 64 (List.replicate 16 0), .writeData 0 (List.replicate 15 0),
    .replyMsg 64 (List.replicate 16 0), .replyMsg 0 (List.replicate 15 0), .partDone 64 (List.replicate 16 0),
    .partDone 0 (List.replicate 15 0), .readData 64 (List.replicate 16 0), .readData 0 (List.replicate 15 0), .bulk 64 (List.replicate 16 0),
    .bulk 0 (List.replicate 15 0), .test 64 (List.replicate 16 0), .test 0 (List.replicate 15 0), .cancel 64 (List.replicate 16 0),
    .cancel 0 (List.replicate 15 0), .cancelAck 64 (List.replicate 16 0), .cancelAck 0 (List.replicate 15 0), .revoke 64 (List.replicate 16 0),
    .revoke 0 (List.replicate 15 0), .revokeAck 64 (List.replicate 16 0)] : List Instr).all (fun i => !wellFormed i) = true := by
  decide +kernel

/-- Ill-formed commands, each for one check that it misses (part 6). -/
theorem test_illFormed_refused_6 : ([.revokeAck 0 (List.replicate 15 0), .table 64 (List.replicate 16 0), .table 0 (List.replicate 15 0), .tableAck 64 (List.replicate 16 0),
    .tableAck 0 (List.replicate 15 0), .messageForward 64 (List.replicate 16 0), .messageForward 0 (List.replicate 15 0),
    .route 64 (List.replicate 16 0), .route 0 (List.replicate 17 0), .route 0 [], .linkState 64 (List.replicate 16 0),
    .linkState 0 (List.replicate 17 0), .linkState 0 [], .linkStateStale (2 ^ 10), .pinLapse (2 ^ 16) 0 0, .pinLapse 0 (2 ^ 16) 0,
    .pinLapse 0 0 4, .napIdle 64, .napReq 64 (List.replicate 16 0), .napReq 0 (List.replicate 15 0), .napAck 64 (List.replicate 16 0),
    .napAck 0 (List.replicate 15 0), .napNak 64 (List.replicate 16 0), .napNak 0 (List.replicate 15 0), .napWake 64, .napWakeMissed 64,
    .step 64 (List.replicate 16 0), .step 0 (List.replicate 15 0), .stepAck 64 (List.replicate 16 0), .stepAck 0 (List.replicate 15 0)] : List Instr).all (fun i => !wellFormed i) = true := by
  decide +kernel

/-- Ill-formed commands, each for one check that it misses (part 7). -/
theorem test_illFormed_refused_7 : ([.protCommit 8, .join 64 (List.replicate 16 0), .join 0 (List.replicate 17 0), .join 0 [], .deltaAckTimeout (2 ^ 64),
    .absent 64 (List.replicate 16 0), .absent 0 (List.replicate 17 0), .absent 0 [], .failTimeout 18, .assume 64 (List.replicate 16 0),
    .assume 0 (List.replicate 17 0), .assume 0 [], .lock 64 (List.replicate 16 0), .lock 0 (List.replicate 17 0), .lock 0 [],
    .unlock 64 (List.replicate 16 0), .unlock 0 (List.replicate 17 0), .unlock 0 [], .flashStripeCloseTimeout (2 ^ 64),
    .recoveryWait 64 (List.replicate 16 0), .recoveryWait 0 (List.replicate 17 0), .recoveryWait 0 [], .dead 64 (List.replicate 16 0),
    .dead 0 (List.replicate 17 0), .dead 0 [], .free 64 (List.replicate 16 0), .free 0 (List.replicate 17 0), .free 0 [],
    .dirty 64 (List.replicate 16 0), .dirty 0 (List.replicate 17 0)] : List Instr).all (fun i => !wellFormed i) = true := by
  decide +kernel

/-- Ill-formed commands, each for one check that it misses (part 8). -/
theorem test_illFormed_refused_8 : ([.dirty 0 [], .return 64 (List.replicate 16 0), .return 0 (List.replicate 17 0), .return 0 [], .lost 64 (List.replicate 16 0),
    .lost 0 (List.replicate 17 0), .lost 0 [], .protEvacGo (2 ^ 10), .mbAddress 2 0, .mbAddress 0 256, .mbPointerWrite 2 0 0,
    .mbPointerWrite 0 256 0, .mbPointerWrite 0 0 256, .mbReadByte 2 false, .mbWriteByte 2 0, .mbWriteByte 0 256, .mbStretchAbort 2,
    .mbAttentionSignal 2, .mbAlertResponse 2 false, .mbAttentionDetect 2 [], .mbAttentionDetect 0 [0, 128], .mbLock 256, .mbXcmdGo (2 ^ 32),
    .mbTransferDone 8 0 [], .mbTransferDone 0 65 [], .mbTransferDone 0 0 (List.replicate 33 0), .mbStuckSda 2 false, .mbSclTimeout 2,
    .mbDeadPairCheck 2 false, .mbWakeMatch 2 0] : List Instr).all (fun i => !wellFormed i) = true := by
  decide +kernel

/-- Ill-formed commands, each for one check that it misses (part 9). -/
theorem test_illFormed_refused_9 : ([.mbWakeMatch 0 256, .pwrTargetDoze 3, .pwrTargetSleep 3, .pwrTargetOn 3, .dozeWake 256, .sleepWake 256, .vstbyRise (2 ^ 21),
    .pwrgoodAssert (2 ^ 16), .startupStepTimeout 9, .railFault 16, .pwrResetDevice 3 0, .pwrResetDevice 0 256, .pwrResetMgmt 3 0,
    .pwrResetMgmt 0 256, .evtConsWrite 3 0, .evtConsWrite 0 (2 ^ 32), .evtBusPop 2, .registerWrite 3 false 0 0 0 0,
    .registerWrite 0 false 256 0 0 0, .registerWrite 0 false 0 (2 ^ 24) 0 0, .registerWrite 0 false 0 0 9 0,
    .registerWrite 0 false 0 0 0 (2 ^ 64), .busMasterEnableClear 256, .vfEnableSet 256, .perstRelease 16, .dramInitDone 8193,
    .thermalHotEnd 16, .laneSignalLoss 64 0, .laneSignalLoss 0 2, .signalDetect 64 0] : List Instr).all (fun i => !wellFormed i) = true := by
  decide +kernel

/-- Ill-formed commands, each for one check that it misses (part 10). -/
theorem test_illFormed_refused_10 : ([.signalDetect 0 4, .mbStop 2, .flashProgramDone 32 0 0 false false, .flashProgramDone 0 8 0 false false,
    .flashProgramDone 0 0 4 false false] : List Instr).all (fun i => !wellFormed i) = true := by
  decide +kernel

/-- The same commands with every operand in its range (part 1). -/
theorem test_wellFormed_taken_1 : ([.cmdAcqEnable 0 0, .cmdAcqDisable 0 0, .sqEntryWrite 0 0 [], .sqTailDoorbell 0 0 0, .cqHeadDoorbell 0 0 0, .coalesceTimeExpiry 0 0,
    .msixUnmask 0 0, .busMasterEnableSet 0, .hostFault 0 0 0, .progressWatchdogExpiry 0 0 0, .chunkFree 0 0 0 0, .selfTestDone 0 0 0,
    .pourDomEnable 0, .pourDomDisable 0, .pourDomReset 0, .pourUpdateReceive 0 (List.replicate 16 0), .pourSync 0 0, .pourSyncTimeout 0,
    .tickAdvance 0, .silenceExpiry 0, .triggerFire 0, .leaseExpiry false 0, .graceEnd false 0, .zeroFillStart false 0, .zeroFillDone 0,
    .poolLogicalWrite 0 0, .flashFrameRead 0 0 0 0, .libPatrol 0 0 0 0, .lunStatusTimeout 0 0 0, .dieRebuildUnit 0 0 0, .stageHoldExpiry 0 0 0,
    .libStageDramWrite 0 0, .libStageUrnWrite 0 0, .prsScratchWrite 0 0, .bufferDeferredFree 0, .urnScrubPatrol 0 0, .urnWinCtrlWrite 0 0,
    .channelDispatch 0, .descriptor 0, .move 0, .loop 0, .wait 0, .waitFlagPoll 0, .waitSatisfied 0, .waitLimitExpiry 0, .signal 0,
    .endInstr 0, .runComplete 0, .dmaRetryTimer 0, .trefiElapse 0 0, .opportunisticRefresh 0 0, .rowIdleClose 0 0, .thermalHot 0,
    .dramPatrolScrub 0 0 0, .dramChannelLost 0, .drcHashNextWrite 0 0, .blendWindowEnd [] [] 0, .bldCommit 0, .bldActiveWrite 0, .decafAge 0 0] : List Instr).all wellFormed = true := by
  decide +kernel

/-- The same commands with every operand in its range (part 2). -/
theorem test_wellFormed_taken_2 : ([.flr 0, .flrCancelTimeout 0, .portReset 0, .vfEnableClear 0, .numvfsWrite 0 0, .tenFmWrite 0 0,
    .flitReceive 0 (List.replicate 256 0) 0 false, .replayTimerExpiry 0, .fastRetrain 0, .coldRetrain 0, .detectTimeout 0,
    .trainFlit 0 (List.replicate 256 0), .paramTimeout 0, .reupTimer 0, .wlkCtrlFast 0, .wlkCtrlCold 0, .wlkCreditWrite 0 0, .fastReq 0,
    .coldReq 0, .linkLost 0 (List.replicate 16 0), .linkLostTimeout 0, .cmdFwd 0 (List.replicate 16 0), .work 0 (List.replicate 16 0),
    .writeData 0 (List.replicate 16 0), .replyMsg 0 (List.replicate 16 0), .partDone 0 (List.replicate 16 0),
    .readData 0 (List.replicate 16 0), .bulk 0 (List.replicate 16 0), .test 0 (List.replicate 16 0), .cancel 0 (List.replicate 16 0),
    .cancelAck 0 (List.replicate 16 0), .revoke 0 (List.replicate 16 0), .revokeAck 0 (List.replicate 16 0), .table 0 (List.replicate 16 0),
    .tableAck 0 (List.replicate 16 0), .messageForward 0 (List.replicate 16 0), .route 0 (List.replicate 16 0),
    .linkState 0 (List.replicate 16 0), .linkStateStale 0, .pinLapse 0 0 0, .napIdle 0, .napReq 0 (List.replicate 16 0),
    .napAck 0 (List.replicate 16 0), .napNak 0 (List.replicate 16 0), .napWake 0, .napWakeMissed 0, .step 0 (List.replicate 16 0),
    .stepAck 0 (List.replicate 16 0), .protCommit 0, .join 0 (List.replicate 16 0), .deltaAckTimeout 0, .absent 0 (List.replicate 16 0),
    .failTimeout 0, .assume 0 (List.replicate 16 0), .lock 0 (List.replicate 16 0), .unlock 0 (List.replicate 16 0),
    .flashStripeCloseTimeout 0, .recoveryWait 0 (List.replicate 16 0), .dead 0 (List.replicate 16 0), .free 0 (List.replicate 16 0)] : List Instr).all wellFormed = true := by
  decide +kernel

/-- The same commands with every operand in its range (part 3). -/
theorem test_wellFormed_taken_3 : ([.dirty 0 (List.replicate 16 0), .return 0 (List.replicate 16 0), .lost 0 (List.replicate 16 0), .protEvacGo 0, .mbAddress 0 0,
    .mbPointerWrite 0 0 0, .mbReadByte 0 false, .mbWriteByte 0 0, .mbStretchAbort 0, .mbAttentionSignal 0, .mbAlertResponse 0 false,
    .mbAttentionDetect 0 [], .mbLock 0, .mbXcmdGo 0, .mbTransferDone 0 0 [], .mbStuckSda 0 false, .mbSclTimeout 0, .mbDeadPairCheck 0 false,
    .mbWakeMatch 0 0, .pwrTargetDoze 0, .pwrTargetSleep 0, .pwrTargetOn 0, .dozeWake 0, .sleepWake 0, .vstbyRise 0, .pwrgoodAssert 0,
    .startupStepTimeout 0, .railFault 0, .pwrResetDevice 0 0, .pwrResetMgmt 0 0, .evtConsWrite 0 0, .evtBusPop 0,
    .registerWrite 0 false 0 0 0 0, .busMasterEnableClear 0, .vfEnableSet 0, .perstRelease 0, .dramInitDone 0, .thermalHotEnd 0,
    .laneSignalLoss 0 0, .signalDetect 0 0, .mbStop 0, .flashProgramDone 0 0 0 false false] : List Instr).all wellFormed = true := by
  decide +kernel

/-! Worked examples of the spec, each on one definition. -/

/-- The example under R400: a DATA flit on VC 0 with SEQ 4095, ACK 17, CVC 2 and CCOUNT 300. -/
theorem test_flit_header : ({ seq := 4095, ack := 17, nak := false, typ := 1, vc := 0, cvc := 2, ccount := 300 } : FlitHead).word = 0x12C82011FFF ∧
    flitHeadOk 0x12C82011FFF = true := by
  decide +kernel

/-- The case under R6: the position 2:40:1500, and its bytes in a reply. -/
theorem test_packed_position : leBytes 8 (packPos 2 40 1500) = [0xDC, 0x05, 0x28, 0x00, 0x02, 0x00, 0x00, 0x00] := by
  decide +kernel

/-- The case of a pool address on system 3, shelf 17, slot 9 (spec/01). -/
theorem test_pool_address : Addr.pool 3 553 0x123400000 = 0x0E29000123400000 ∧ Addr.sys 0x0E29000123400000 = 3 ∧
    Addr.dev 0x0E29000123400000 = 17 * 32 + 9 ∧ Addr.off 0x0E29000123400000 / 2 ^ 21 = 2330 ∧ Addr.off 0x0E29000123400000 / 2 ^ 30 = 4 := by
  decide +kernel

/-- The case of 1 pt per µs at 1.6 GHz (spec/02): inc. -/
theorem test_inc : incOf 65536000 1600000 = 0x28F5C2 := by
  decide +kernel

/-- The case of a function that overruns blend 12 (R367): shares of 20,000 and 60,000 MB/s; and no share at all. -/
theorem test_pace : paceOf (some 20000) = 0x93 ∧ paceOf (some 60000) = 0xBD ∧ paceOf (some 253952) = 0xFF ∧ paceOf none = 0 := by
  decide +kernel

/-- The case of one device's capacity (spec/05): 4 TiB of DRAM, 8192 GiB offered, 64 GiB of staging. -/
theorem test_capacity : sectorsLeft 4096 8192 64 = 16777216000 ∧ usableSectors 4096 8192 64 = 16609443840 := by
  decide +kernel

/-- The case of an INT8 page coded as PLANE: its container's header (R162). -/
theorem test_plane_header : (containerBytes 4 6 0x5A3C91E7 (List.replicate 2064 0)).take 8 = [0x14, 0x06, 0x10, 0x08, 0xE7, 0x91, 0x3C, 0x5A] := by
  decide +kernel

/-- The case under R306: deinterleaving 3 channels of 16-bit samples, 12 bytes. -/
theorem test_deinterleave : (Xfer.mk 0 64 12 0 0 false false false 2 1 2).shuffle ((List.range 12).map (BitVec.ofNat 8)) =
    [0, 1, 6, 7, 2, 3, 8, 9, 4, 5, 10, 11] := by
  decide +kernel

/-- The case under R307: transposing eight 8-bit elements. -/
theorem test_transpose : (Xfer.mk 0 64 8 0 0 false false false 3 0 7).shuffle ((List.range 8).map (BitVec.ofNat 8)) =
    [0, 0, 0, 0, 0, 0xF0, 0xCC, 0xAA] := by
  decide +kernel

/-- The case of a PSCAN entry for 10 nearest INT8 embeddings (spec/04). -/
def scanEntry : Nat := leNat [0x44, 0x00, 0x07, 0x01, 0x4C, 0x00, 0x00, 0x00, 0x40, 0x06, 0x28, 0x00, 0x00, 0x00, 0x00, 0x00, 0x00, 0x00, 0x40, 0x23, 0x01, 0x00, 0x29,
  0x0E, 0x00, 0x00, 0x00, 0x80, 0x10, 0x00, 0x00, 0x00, 0x00, 0x00, 0x00, 0x40, 0x00, 0x00, 0x00, 0x00, 0x00, 0x10, 0x00, 0x80, 0x10, 0x00, 0x00, 0x00, 0x00,
  0x01, 0x01, 0x01, 0x0A, 0x00, 0x00, 0x00, 0x00, 0x00, 0x00, 0x00, 0x00, 0x00, 0x00, 0x00]

/-- Its fields: PSCAN, CID 0x0107, DEGRADE at 40:1600, blend 12, the range, the output, 256 INT8 elements, L2SQ, 10 records. -/
theorem test_scan_entry : Entry.op scanEntry = 0x44 ∧ Entry.cid scanEntry = 0x0107 ∧ Entry.dlMode scanEntry = 1 ∧ Entry.deadline scanEntry = 0x280640 ∧
    Entry.object scanEntry = 0x0E29000123400000 ∧ Entry.hostBuf scanEntry = 0x1080000000 ∧ Entry.length scanEntry = 0x40000000 ∧
    pressDim scanEntry = 256 ∧ pressFmt scanEntry = 1 ∧ pressDist scanEntry = 1 ∧ pressK scanEntry = 10 ∧ scanCheck scanEntry = none := by
  decide +kernel

/-- The example of link numbers (R425, spec/16). -/
theorem test_link_numbers : linkNo 552 553 = some 8 ∧ linkNo 553 552 = some 8 ∧ linkNo 40 552 = some 47 ∧ linkNo 552 40 = some 32 := by
  decide +kernel

/-- Device 553 of system 3, with 32 Gb DIMMs mapped by order 2. -/
def dev553 : State :=
  let s := (State.reset.setFld Fld.glbIdDevid 553).setFld Fld.glbIdSysid 3
  let s := (((s.setFld Fld.drcMapOrder 2).setFld Fld.drcStateDensity 1).setFld Fld.drcStateRanks 1).setFld Fld.drcStateDimms 1
  s.setFld Fld.drcHashSel0Sel7 (23 + 30 * 64) 0

/-- The case of a bus read of GLB_ID of device 553 of system 3 (R491). -/
theorem test_glb_id : leBytes 8 (dev553.readReg .glbId 0 0) = [0x59, 0x4B, 0x01, 0x00, 0x29, 0x0E, 0x00, 0x00] := by
  decide +kernel

/-- The case of physical address 0x0004_0083_2A40 under order 2 (R329 to R332): channel 9, subchannel A, bank group 0 after the hash, row 2049; the address that
differs in row bit 0 keeps bank group 1. -/
theorem test_dram_place : (dev553.burstAt 0x400832A40).chan = 9 ∧ (dev553.burstAt 0x400832A40).row = 2049 ∧ (dev553.burstAt 0x400832A40).bank = 0 ∧
    (dev553.burstAt 0x400032A40).bank = 4 := by
  decide +kernel

/-! ### States that meet the hypotheses of the statements -/

/-! ### States that the tests stand on -/

/-- Device 553 (shelf 17, slot 9) of system 1 in service, with function 64 as the fabric manager's. -/
def up : State :=
  { ((((((((((State.reset.setFld Fld.glbIdDevid 553).setFld Fld.glbIdSysid 1).setFld Fld.wlkSysSysid 1).setFld Fld.glbClkLock 1).setFld
      Fld.tenFmDevid 553).setFld Fld.tenFmFunc 64).setFld Fld.tenFmValid 1).setFld Fld.tenFmLocal 1).setFld Fld.cmdFnQuotaSq 8 0).setFld Fld.cmdFnQuotaCq 8 0).setFld
      Fld.urnFnQuotaMib 8 0 with
    svc := [], pwrgood := true, standby := true, us := 5000000 }

/-- It with two functions, 0 and 64, their admin pairs, a queue pair of function 0, and its domain. -/
def base : State :=
  { up with
    fns := [(0, { present := true, busMaster := true, admitted := true, domain := some 2, blends := 3, ready := true }),
            (64, { present := true, attach := 4, busMaster := true, admitted := true, blends := 1, ready := true })]
    sqs := [(0, { state := .active, size := 16 }), (64, { state := .active, owner := 64, size := 16, cq := 64, barista := 15 }),
            (256, { state := .active, loc := 1, size := 4, cq := 256 })]
    cqs := [(0, { state := .active, size := 16, base := 0x1000 }), (64, { state := .active, owner := 64, size := 16, base := 0x1000 }),
            (256, { state := .active, loc := 1, size := 8, base := 0x2000, vector := some 3 })]
    doms := [(2, { state := .live, epoch := 3, layer := 1, tick := 100, rate := 1 })] }

/-- The entry of a command: opcode, object address, host buffer, LENGTH, OPSPEC; its CID is 7. -/
def ent (op obj host len spec : Nat) : Nat := op + 7 * 2 ^ 16 + obj * 2 ^ 128 + host * 2 ^ 192 + len * 2 ^ 256 + spec * 2 ^ 320

/-- A command of function 0 that was accepted from its queue 1. -/
def cmd (e : Nat) : Cmd := { live := true, sq := 256, order := 1, entry := e, caller := ⟨553, 0⟩, since := 4000000 }

/-- A command of function 0 that was accepted from its admin queue. -/
def adm (e : Nat) : Cmd := { cmd e with sq := 0 }

/-- A command of the privileged queue. -/
def fm (e : Nat) : Cmd := { live := true, fn := 64, sq := 64, order := 1, entry := e, caller := ⟨553, 64⟩, since := 4000000 }

/-- A state with one command in flight, under tag 1. -/
def State1 (s : State) (c : Cmd) : State := { s with cmds := [(1, c)], nextTag := 2 }

/-- An address of this device's pool. -/
def here (off : Nat) : Nat := 1 * 2 ^ 58 + 553 * 2 ^ 48 + off

def sOff : State :=
  { base with fns := [(0, { present := true, busMaster := true })], sqs := [], cqs := [] }

def sFm : State :=
  State1 base (fm (ent 0 0 0x4000 4096 0))

def sFull : State :=
  { base with sqs := base.sqs.upd 256 fun q => { q with tail := 2 } }

def sDoor : State :=
  { base with urn := base.urn.putN 0x100000 (leBytes 64 (ent 0x70 0 0x4000 64 1)) }

def sOut : State :=
  { base with fns := base.fns.upd 0 fun f => { f with admitted := false } }

def sHeld : State :=
  { base with cqs := base.cqs.upd 256 fun q => { q with tail := 3 } }

def sDone : State :=
  State1 { base with cqs := base.cqs.upd 256 fun q => { q with head := 2, tail := 7 } } { cmd (ent 0x71 0 0 0 0) with stage := .done, reply := { sq := 256, cid := 7, result0 := 3 } }

def sDoneFull : State :=
  State1 { base with cqs := base.cqs.upd 256 fun q => { q with tail := 7 } } { cmd (ent 0x71 0 0 0 0) with stage := .done, reply := { sq := 256, cid := 7, result0 := 3 } }

def sCoal : State :=
  { base.setFld Fld.cmdVecCoalTime 10 0 3 with coal := [(coalKey 0 3, { count := 2, since := 4000000 })], fns := base.fns.upd 0 fun f => { f with msixEnable := true, vecUnmasked := 8 } }

def sRead : State :=
  State1 base (cmd (ent 0x13 (here 0) 0x4000 64 0))

def sAb1 : State :=
  State1 base (cmd (ent 0x08 0 0 0 (1 + 9 * 2 ^ 16)))

def sAb2 : State :=
  State1 base (adm (ent 0x08 0 0 0 (1 + 9 * 2 ^ 16)))

def sAb3 : State :=
  { base with cmds := [(1, adm (ent 0x08 0 0 0 (1 + 7 * 2 ^ 16))), (2, { cmd (ent 0x34 0 0 0 0) with order := 0 })], nextTag := 3 }

def sAb4 : State :=
  State1 base { adm (ent 0x08 0 0 0 (1 + 7 * 2 ^ 16)) with stage := .running, first := 2, moved := 1 }

def s2a : State :=
  State1 base (adm (ent 0 0 0x4000 4096 0))

def s2d : State :=
  State1 base (adm (ent 0 0 0x4000 4096 3))

def s2e : State :=
  State1 base (adm (ent 0 0 0x4000 4096 (2 ^ 100)))

def s2f : State :=
  State1 base (cmd (ent 0x70 0 0x4000 64 1))

def s2g : State :=
  State1 base (cmd (ent 0x70 0 0x4000 64 63))

def s2h : State :=
  State1 base (cmd (ent 0x71 0 0 0 0))

def s2i : State :=
  State1 base (adm (ent 0x01 0 0 0 (255 + 64 * 2 ^ 16 + 1 * 2 ^ 32)))

def s2j : State :=
  State1 base (adm (ent 0x03 0 0x3000 0 (255 + 4096 * 2 ^ 16 + 63 * 2 ^ 32)))

def s2k : State :=
  State1 base (adm (ent 0x02 0 0 0 1))

def s2l : State :=
  State1 base (adm (ent 0x04 0 0 0 1))

def s2m : State :=
  State1 { base with sqs := base.sqs.put 256 {} } (adm (ent 0x04 0 0 0 1))

def s2n : State :=
  State1 base (cmd (ent 0x06 0 0 8192 0))

def s2o : State :=
  State1 base (cmd (ent 0x06 0 0 8193 0))

def s2p : State :=
  State1 { base with bufs := [(5, { held := true, named := true, gen := 255, owner := 0, page := 14336, pages := 2 })] } (cmd (ent 0x07 (5 + 255 * 2 ^ 16) 0 0 0))

def s2q : State :=
  State1 { base with bufs := [(5, { held := true, named := true, gen := 255, owner := 0, page := 14336, pages := 2 })] } (cmd (ent 0x07 (5 + 254 * 2 ^ 16) 0 0 0))

def s2r : State :=
  State1 { base with bufs := [(5, { held := true, named := true, owner := 64, page := 14336, pages := 2 })] } (cmd (ent 0x07 5 0 0 0))

def s2s : State :=
  { base with bufs := [(5, { held := true, named := false, gen := 7, owner := 0, page := 14336, pages := 2 })] }

def s2t : State :=
  { s2s with urn := s2s.urn.putN 58720256 (List.replicate 128 1#8) }

def sPend1 : State :=
  { base with pending := [.blist 1, .identify 2] }

def sPool : State :=
  { (((((base.setFld Fld.poolTablesExtentFree 100).setFld Fld.poolTablesLindexFree 100).setFld Fld.poolFnLimitExtents 4 0).setFld Fld.poolFnLimitLeaseMax 60 0).setFld Fld.poolLogicalGib 8).setFld Fld.poolRangesFree 50 with extents := [(4, { state := .live, len := 2, claimant := ⟨553, 0⟩, leaseMs := 30000, expiry := 34000 }), (9, { state := .live, len := 1, claimant := ⟨553, 3⟩, leaseMs := 30000, expiry := 34000, grants := (List.range 16).map fun n => ⟨⟨7, n⟩, true⟩ })], lindex := [(0, [⟨553, here (4 * 2 ^ 21)⟩]), (3, [⟨553, here (9 * 2 ^ 21)⟩])] }

def s3a : State :=
  State1 sPool { cmd (ent 0x10 (here (6 * 2 ^ 21)) 0 (2 * 2 ^ 21) 30) with inPart := true }

def s3b : State :=
  State1 sPool { cmd (ent 0x10 (here (6 * 2 ^ 21)) 0 (2 * 2 ^ 21) 0) with inPart := false }

def s3c : State :=
  State1 sPool { cmd (ent 0x10 (here (3 * 2 ^ 21)) 0 (2 * 2 ^ 21) 30) with inPart := true }

def sPoolNo : State :=
  sPool.setFld Fld.poolFnUseLeases 4 0

def s3d : State :=
  State1 sPoolNo { cmd (ent 0x10 (here (6 * 2 ^ 21)) 0 (2 * 2 ^ 21) 30) with inPart := true }

def s3f : State :=
  State1 sPool (cmd (ent (0x11) (here (4 * 2 ^ 21)) 0 (0) (0)))

def s3g : State :=
  State1 sPool (cmd (ent (0x11) (here (6 * 2 ^ 21)) 0 (0) (0)))

def s3h : State :=
  State1 sPool (cmd (ent (0x11) (here (9 * 2 ^ 21)) 0 (0) (0)))

def s3i : State :=
  State1 sPool (cmd (ent (0x05) (here (4 * 2 ^ 21)) 0 (0) (0)))

def s3j2 : State :=
  State1 sPool (cmd (ent (0x05) (here (5*2^21)) 0 (0) (10)))

def s3k : State :=
  State1 sPool (cmd (ent (0x12) (here (4 * 2 ^ 21)) 0 (0) (553)))

def s3l : State :=
  State1 sPool (cmd (ent (0x12) (here (4 * 2 ^ 21)) 0 (0) (7 + 2 * 2 ^ 16 + 1 * 2 ^ 24)))

def sPoolG : State :=
  { sPool with extents := sPool.extents.upd 4 fun x => { x with grants := [⟨⟨7, 2⟩, true⟩, ⟨⟨7, 3⟩, true⟩] } }

def s3m : State :=
  State1 sPoolG (cmd (ent (0x12) (here (4 * 2 ^ 21)) 0 (0) (7 + 2 * 2 ^ 16)))

def sPoolF : State :=
  { sPool with extents := sPool.extents.upd 4 fun x => { x with grants := (List.range 16).map fun n => ⟨⟨8, n⟩, true⟩ } }

def s3n : State :=
  State1 sPoolF (cmd (ent (0x12) (here (4 * 2 ^ 21)) 0 (0) (7 + 2 * 2 ^ 16 + 1 * 2 ^ 24)))

def s3o : State :=
  State1 sPool (fm (ent (0x84) (0) 0 (0) (3 * 2 ^ 16)))

def s3p : State :=
  { base with us := 34000000, extents := [(4, { state := .live, len := 2, claimant := ⟨553, 0⟩, leaseMs := 30000, expiry := 34000, grants := [⟨⟨7, 2⟩, true⟩] })], streams := [(4, { state := .opened, gen := 1, rsize := 64, opener := ⟨553, 0⟩, expiry := 34000 })] }

def s3q : State :=
  { s3p with us := 36000000, extents := s3p.extents.upd 4 fun x => { x with state := .expired }, streams := s3p.streams.upd 4 fun x => { x with state := .expired } }

def s3r : State :=
  { s3p with extents := s3p.extents.upd 4 fun x => { x with state := .orphaned } }

def s3r2 : State :=
  { s3p with extents := s3p.extents.upd 4 fun x => { x with state := .orphaned, filling := true }, mapDram := [(2048, { mapped := true, codec := 1, base := 5, count := 3 }), (3072, { mapped := true, codec := 1, base := 9, count := 3 })] }

def s3s : State :=
  State1 sPool ({ cmd (ent (0x13) (here (4 * 2 ^ 21)) 0x4000 (4160) (0)) with inPart := true })

def s3t : State :=
  State1 sPool ({ cmd (ent (0x14) (here (4 * 2 ^ 21)) 0x4000 (4096) (0)) with refuse := some .outOfPartition })

def s3u : State :=
  State1 sPool ({ cmd (ent (0x13) (here (4 * 2 ^ 21)) 0x4000 (4096) (0)) with refuse := some .leaseExpired })

def sPoolW : State :=
  { (((sPool.setFld Fld.poolSectorsFreeFree 100000).setFld Fld.poolSectorsTotalTotal 100000).setFld Fld.drcInitDone 1) with dramGib := 64, hostMem := sPool.hostMem.putN 0x4010 (List.replicate 1 0#8) }

def s3v : State :=
  State1 sPoolW (cmd (ent (0x14) (here (4 * 2 ^ 21)) 0x4000 (4096) (0)))

def s3w : State :=
  State1 sPool (fm (ent (0x80) (here (2 * 2 ^ 30)) 0 ((2 * 2 ^ 30)) (0 + 5 * 2 ^ 16)))

def sPoolO : State :=
  { sPool with owners := [(3, some ⟨553, 1⟩)], partitions := [(1, [⟨553, 3, 1⟩])] }

def s3x : State :=
  State1 sPoolO (fm (ent (0x80) (here (2 * 2 ^ 30)) 0 ((2 * 2 ^ 30)) (0 + 5 * 2 ^ 16)))

def sPoolP2 : State :=
  { sPool with extents := [], owners := [(2, some ⟨553, 5⟩), (3, some ⟨553, 5⟩), (4, some ⟨553, 1⟩)], partitions := [(1, [⟨553, 4, 1⟩]), (5, [⟨553, 2, 2⟩])] }

def s3y : State :=
  State1 sPoolP2 (fm (ent (0x80) (here (2 * 2 ^ 30)) 0 (2 ^ 30) (1 + 5 * 2 ^ 16)))

def s3z : State :=
  State1 sPoolP2 (fm (ent (0x80) (here 0) 0 (0) (2 + 5 * 2 ^ 16)))

def s3A : State :=
  { base with dramGib := 512 }

def s3B : State :=
  { base with dramGib := 512, owners := [(2, some ⟨553, 5⟩)] }

def s3C : State :=
  { base with mapLog := [{ page := 2048, entry := { mapped := true, codec := 1, base := 5, count := 3 }, seq := 1 }, { page := 2049, entry := { mapped := true, codec := 1, base := 9, count := 3 }, seq := 2 }] }

def s3D : State :=
  { base with oldRuns := [{ base := 40, count := 3, seq := 4 }], alloc := [(40, 3), (43, 1)] }

def s3E : State :=
  base.setSeam 1 true

def sSeq : State :=
  { ((((sPool.setFld Fld.seqStreamsOpen 1).setFld Fld.seqChunksFree 1000).setFld Fld.drcInitDone 1).setFld Fld.poolSectorsFreeFree 100000) with owners := [(2, some ⟨553, 0⟩)], streams := [(0, { state := .opened, gen := 5, rsize := 64, opener := ⟨553, 0⟩, leaseMs := 30000, expiry := 34000, stripe := [553], first := 8192, last := 8200 }), (2, { state := .orphaned, gen := 9, rsize := 64, opener := ⟨553, 0⟩, stripe := [553] })], sinfo := [(553 * 65536, { gen := 5, rsize := 64 })] }

def s4a : State :=
  State1 sSeq (cmd (ent (0x30) (1 * 2 ^ 58 + 553 * 2 ^ 48 + 0) 0 (0) (64 + 30 * 2 ^ 32)))

def s4b : State :=
  State1 { sSeq with streams := sSeq.streams.upd 0 fun r => { r with state := .closing } } ({ cmd (ent (0x34) (1 * 2 ^ 58 + 553 * 2 ^ 48 + 0 * 2 ^ 32 + 5 * 2 ^ 24) 0 (0) (0)) with started := true })

def s4c : State :=
  State1 sSeq (cmd (ent (0x31) (1 * 2 ^ 58 + 553 * 2 ^ 48 + 5 * 2 ^ 24 + 8200) 0x4000 (128) (0)))

def s4d : State :=
  State1 sSeq ({ cmd (ent (0x31) (1 * 2 ^ 58 + 553 * 2 ^ 48 + 5 * 2 ^ 24 + 8200) 0x4000 (128) (0)) with refuse := some .notOwner })

def s4e : State :=
  State1 { sSeq with streams := sSeq.streams.upd 0 fun r => { r with waiting := [1, 3] } } ({ cmd (ent (0x31) (1 * 2 ^ 58 + 553 * 2 ^ 48 + 5 * 2 ^ 24 + 8200) 0x4000 (128) (1)) with stage := .running })

def s4f : State :=
  State1 { sSeq with streams := sSeq.streams.upd 0 fun r => { r with waiting := [1, 3] } } ({ cmd (ent (0x31) (1 * 2 ^ 58 + 553 * 2 ^ 48 + 5 * 2 ^ 24 + 8199) 0x4000 (128) (1)) with stage := .running })

def s4h : State :=
  State1 { sSeq with streams := sSeq.streams.upd 0 fun r => { r with waiting := [1, 3], ordered := true }, parts := [(0, { live := true, cmd := 1, sys := 1, dev := 553, len := 128, moved := 128, done := true, data := List.replicate 128 3#8 })], nextPart := 1 } ({ cmd (ent (0x31) (1 * 2 ^ 58 + 553 * 2 ^ 48 + 5 * 2 ^ 24 + 8200) 0x4000 (128) (0)) with stage := .running, first := 8200, started := true })

def s4i : State :=
  State1 { sSeq with streams := sSeq.streams.upd 0 fun r => { r with waiting := [1, 3], ordered := true }, parts := [(0, { live := true, cmd := 1, sys := 1, dev := 553, len := 128, moved := 128, done := true, data := List.replicate 128 3#8 })], nextPart := 1 } ({ cmd (ent (0x32) (1 * 2 ^ 58 + 553 * 2 ^ 48 + 5 * 2 ^ 24 + 8192) 0x4000 (128) (0)) with stage := .running, started := true })

def s4j : State :=
  State1 sSeq ({ cmd (ent (0x33) (1 * 2 ^ 58 + 553 * 2 ^ 48 + 5 * 2 ^ 24 + 8192) 0 (0) (0)) with moved := 92 })

def s4k : State :=
  State1 sSeq ({ cmd (ent (0x33) (1 * 2 ^ 58 + 553 * 2 ^ 48 + 5 * 2 ^ 24 + 8192) 0 (0) (0)) with refuse := some .badField })

def s4l : State :=
  { sSeq with chunks := [(chunkKey 553 0 5 1, { present := true, home := 553, stream := 0, gen := 5, chunk := 1, rsize := 64, bases := [40] }), (chunkKey 553 0 5 2, { present := true, home := 553, stream := 0, gen := 5, chunk := 2, rsize := 64, bases := [44] })], alloc := [(40, 4), (44, 4)] }

def s4rn : State :=
  State1 sSeq (cmd (ent (0x05) (1 * 2 ^ 58 + 553 * 2 ^ 48 + 0 * 2 ^ 32 + 5 * 2 ^ 24) 0 (0) (0)))

def s4rq : State :=
  State1 sSeq (cmd (ent (0x12) (1 * 2 ^ 58 + 553 * 2 ^ 48 + 0 * 2 ^ 32 + 5 * 2 ^ 24) 0 (0) (7 + 2 * 2 ^ 16 + 2 * 2 ^ 24)))

def sLib : State :=
  { ((((sPool.setFld Fld.libStageDramGib 16).setFld Fld.libStageUrnMib 64).setFld Fld.libStageFillUrn 1).setFld Fld.libStageFillDram 0) with volumes := [(7, { present := true, length := 10 * 65536, writer := ⟨553, 0⟩, stripe := [553], start := 7 })], staged := [(stagedKey 7 3 1, { present := true, since := 4000000, hold := true, slot := 2 })], chFrames := 64, dramGib := 512 }

def s5a : State :=
  State1 { sLib with urn := sLib.urn.putN (sLib.urnSlot 2 + 65472) (List.replicate 64 9#8) } (cmd (ent (0x20) (1 * 2 ^ 58 + 7 * 2 ^ 40 + 3 * 65536 + 65472) 0x4000 (64) (0)))

def s5b : State :=
  State1 sLib (cmd (ent (0x20) (1 * 2 ^ 58 + 7 * 2 ^ 40 + 4 * 65536) 0x4000 (65536) (0)))

def s5c : State :=
  State1 sLib (cmd (ent (0x21) (1 * 2 ^ 58 + 7 * 2 ^ 40 + 3 * 65536 + 65472) 0 (64) (1)))

def s5d : State :=
  State1 sLib (cmd (ent (0x21) (1 * 2 ^ 58 + 7 * 2 ^ 40 + 4 * 65536) 0 (65536) (0)))

def s5e : State :=
  State1 (sLib.setFld Fld.libStageUrnMib 0) (cmd (ent (0x21) (1 * 2 ^ 58 + 7 * 2 ^ 40 + 4 * 65536) 0 (65536) (1)))

def s5f : State :=
  State1 (sLib.setFld Fld.libStageUrnMib 0) ({ cmd (ent (0x21) (1 * 2 ^ 58 + 7 * 2 ^ 40 + 4 * 65536) 0 (65536) (1)) with waitSince := some 3000000 })

def s5g : State :=
  State1 (sLib.setFld Fld.libStageUrnMib 0) (cmd (ent (0x21 + 3 * 2 ^ 38) (1 * 2 ^ 58 + 7 * 2 ^ 40 + 4 * 65536) 0 (65536) (1)))

def s5h : State :=
  { sLib with us := 4000000 + 1000 * sLib.fld Fld.libStageHoldMs }

def s5i : State :=
  State1 sLib (cmd (ent (0x22) (1 * 2 ^ 58 + 7 * 2 ^ 40 + 9 * 65536) 0x4000 (65536) (0)))

def s5j : State :=
  State1 { sLib with parts := [(0, { live := true, cmd := 1, sys := 1, dev := 553, len := 65536, moved := 65536, done := true })], nextPart := 1 } ({ cmd (ent (0x22) (1 * 2 ^ 58 + 7 * 2 ^ 40 + 10 * 65536) 0x4000 (65536) (1)) with stage := .running, started := true })

def s5k : State :=
  State1 sLib (fm (ent (0x86) (1 * 2 ^ 58 + 9 * 2 ^ 40) 0 (0) (0 + 5 * 2 ^ 16)))

def s5l : State :=
  State1 sLib (fm (ent (0x86) (1 * 2 ^ 58 + 7 * 2 ^ 40) 0 (0) (1 + 5 * 2 ^ 16)))

def s5m : State :=
  State1 sLib (fm (ent (0x86) (1 * 2 ^ 58 + 7 * 2 ^ 40) 0 (0) (2 + 5 * 2 ^ 16)))

def s5n : State :=
  State1 { sLib with volumes := sLib.volumes.upd 7 fun v => { v with readers := [⟨553, 5⟩, ⟨553, 6⟩] } } (fm (ent (0x86) (1 * 2 ^ 58 + 7 * 2 ^ 40) 0 (0) (3 + 5 * 2 ^ 16)))

def s5o : State :=
  State1 sLib (fm (ent (0x86) (1 * 2 ^ 58 + 7 * 2 ^ 40) 0 (0) (4 + 5 * 2 ^ 16)))

def s5p : State :=
  State1 { sLib with volumes := sLib.volumes.upd 7 fun v => { v with deleting := true } } ({ fm (ent (0x86) (1 * 2 ^ 58 + 7 * 2 ^ 40) 0 (0) (1 + 5 * 2 ^ 16)) with stage := .running, started := true })

def s5r : State :=
  { base with lunFails := [(lunKey 31 7 3, base.fld Fld.libCtrlDieFailBlocks)], frames := [(frameKey 31 5, { used := true, target := 7, lun := 3, stale := true })] }

def sGrp : State :=
  ((((base.setFld Fld.protGroupWidth 3).setFld Fld.protStateState 2).setFld Fld.protMemberDevid 553 0).setFld Fld.protMemberDevid 554 1)

def s5s : State :=
  { ((sGrp.setFld Fld.libFlashReserve 2).setFld Fld.libChStateFailed (2 ^ 31) 8) with chFrames := 64, volumes := [(7, { present := true, length := 10 * 65536, writer := ⟨553, 0⟩, stripe := [553], start := 7 })], unitRecs := [(unitKeyOf 7 1, { present := true, frame := 3 })], frames := [(frameKey 8 3, { used := true, target := 7, lun := 3 })], flash := [(frameKey 8 3 * 65536, 5#8)] }

def s5t : State :=
  s5s.setFld Fld.libFlashReserve 0

def s6a : State :=
  State1 sPoolW ({ cmd (ent (0x40) (here (4 * 2 ^ 21)) 0 (4096) (0 + 1 * 2 ^ 128)) with inPart := true })

def s6b : State :=
  { State1 sPoolW ({ cmd (ent (0x40) (here (4 * 2 ^ 21)) 0 (8192) (0xABCD + 2 * 2 ^ 128)) with inPart := true }) with mapLog := List.replicate 16384 ⟨2048, { base := 1, count := 3, codec := 1, mapped := true : PageEntry }, 1⟩ }

def s6c : State :=
  State1 sPoolW ({ cmd (ent (0x41) (here (4 * 2 ^ 21)) 0 (4096) (here (4 * 2 ^ 21 + 8192))) with inPart := true })

def s6d : State :=
  State1 sPoolW ({ cmd (ent (0x42) (here (4 * 2 ^ 21)) 0x4000 (192) (here (4 * 2 ^ 21 + 8192) + (128 * 2 ^ 64) + (0 * 2 ^ 80))) with inPart := true })

def s6e : State :=
  State1 sPoolW ({ cmd (ent (0x43) (here (4 * 2 ^ 21)) 0x4000 (192) ((2 * 2 ^ 80))) with inPart := true })

def sScan : State :=
  { sPoolW with partitions := [(0, [⟨553, 0, 8⟩])], owners := (List.range 8).map fun n => (n, some ⟨553, 0⟩) }

def s6f : State :=
  State1 sScan ({ cmd (ent (0x44) (here (4 * 2 ^ 21)) 0x4000 (128) ((0x5000) + (64 * 2 ^ 64) + (1 * 2 ^ 80) + (5 * 2 ^ 96))) with inPart := true })

def s6g : State :=
  State1 { sScan with parts := [(0, { live := true, cmd := 1, sys := 1, dev := 553, done := true, recs := recBytes 2 4 ++ recBytes 7 (-3) ++ recBytes 5 9 })], nextPart := 1 } ({ cmd (ent (0x44) (here (4 * 2 ^ 21)) 0x4000 (128) ((0x5000) + (64 * 2 ^ 64) + (1 * 2 ^ 80) + (5 * 2 ^ 96))) with stage := .running, started := true })

def s6h : State :=
  { sScan with frags := [(1, { live := true, tag := 7, slice := some 0, order := 1, fmt := 1 }), (2, { live := true, tag := 8, order := 2, fmt := 1 }), (3, { live := true, tag := 9, order := 3, fmt := 1 })], nextFrag := 4 }

def s6i : State :=
  State1 { sScan with frags := [(1, { live := true, tag := 1, slice := some 0, order := 1, ranges := [(here (4 * 2 ^ 21), 128)], query := List.replicate 64 1, fmt := 1, dist := 0, dim := 64, k := 100, stride := 64, planes := 8 })], nextFrag := 2 } ({ cmd (ent (0x44) (here 0) 0 (0) (0)) with stage := .running, started := true, part := some (here (4*2^21), 128, 64), origin := some (1577, 5) })

def sPour : State :=
  { (base.setFld Fld.pourDomSrcDevid 553 2) with doms := [(2, { state := .live, epoch := 3, layer := 1, tick := 100, rate := 1, synced := true, rgen := 15, seq := 65535, brim := 200, lastEpoch := 3, lastLayer := 1, lastTick := 90 }), (5, { state := .stale, synced := true })], trigs := [(4, { valid := true, epoch := 3, layer := 1, tick := 101, domain := 2, action := 6, owner := 0, args := 3 }), (6, { valid := true, epoch := 3, layer := 0, tick := 0, domain := 5, action := 6, owner := 0 })] }

def s7a : State :=
  State1 sPour (cmd (ent (0x50) (3 * 2 ^ 32 + 1 * 2 ^ 16 + 101) 0 (0) (0)))

def s7b : State :=
  State1 sPour (cmd (ent (0x50) (3 * 2 ^ 32 + 1 * 2 ^ 16 + 80) 0 (0) (0)))

def s7e : State :=
  State1 (sPour.setFld Fld.pourDomSrcFunc 1 2) (cmd (ent (0x50) (3 * 2 ^ 32 + 1 * 2 ^ 16 + 101) 0 (0) (0)))

def s7f : State :=
  { sPour with doms := sPour.doms.upd 2 fun r => { r with sync := some .nothing, synced := false } }

def s7g : State :=
  { sPour with doms := sPour.doms.upd 2 fun r => { r with sync := some .reset, synced := false } }

def s7h : State :=
  sPour.setFld Fld.pourDomCtrlEnable 1 2

def s7i : State :=
  { sPour with doms := sPour.doms.upd 2 fun r => { r with rate := 65536, frac := 2 ^ 32 - 1 } }

def s7j : State :=
  { sPour with doms := sPour.doms.upd 2 fun r => { r with rate := 65536, tick := 200 } }

def s7l : State :=
  State1 (sPour.setFld Fld.pourTrigQuotaQuota 8) (cmd (ent (0x51) (3 * 2 ^ 32 + 1 * 2 ^ 16 + 90) 0 (0) (6 + 2 * 2 ^ 8 + 5 * 2 ^ 64)))

def s7m : State :=
  State1 (sPour.setFld Fld.pourTrigQuotaQuota 8) (cmd (ent (0x51) (3 * 2 ^ 32 + 1 * 2 ^ 16 + 90) 0 (0) (3 + 2 * 2 ^ 8)))

def s7n : State :=
  State1 { sPour with batch := [⟨4, 3, 1, 101⟩] } (cmd (ent (0x52) (0) 0 (0) (4)))

def s7o : State :=
  State1 { sPour with trigs := sPour.trigs.upd 6 fun t => { t with owner := 9 } } (cmd (ent (0x52) (0) 0 (0) (6)))

def s7p : State :=
  { sPour with dueNext := [⟨4, 3, 1, 101⟩] }

def s7q : State :=
  { sPour with dueNext := [⟨4, 3, 1, 101⟩], fns := sPour.fns.upd 0 fun f => { f with admitted := false } }

def s7r : State :=
  base.setFld Fld.twbSizeSize 1

def s7s : State :=
  ((base.setFld Fld.twbCtrlGo 1).setFld Fld.twbCtrlMode 2)

def sDma : State :=
  { ((base.setFld Fld.dmaFnQuotaQuota 8 0).setChState 9 1) with nextRun := 3 }

def s8a : State :=
  State1 sDma (cmd (ent (0x60) (0) 0 (0) (1)))

def s8b : State :=
  State1 sDma (cmd (ent (0x61) (9) 0 (0) (0)))

def s8c : State :=
  State1 (sDma.setChState 9 1) (cmd (ent (0x62) (9) 0 (0) ((here (4 * 2 ^ 21)) + 1 * 2 ^ 64 + 1 * 2 ^ 72 + 0 * 2 ^ 80)))

def s8d : State :=
  State1 (sDma.setChState 9 1) (cmd (ent (0x62) (9) 0 (0) ((here (4 * 2 ^ 21)) + 1 * 2 ^ 64 + 1 * 2 ^ 72 + 1 * 2 ^ 80)))

def s8e : State :=
  State1 (sDma.setChState 9 6) (cmd (ent (0x62) (9) 0 (0) ((here (4 * 2 ^ 21)) + 1 * 2 ^ 64 + 1 * 2 ^ 72 + 2 * 2 ^ 80)))

def s8f : State :=
  State1 (sDma.setChState 9 2) (cmd (ent (0x63) (9) 0 (0) (0)))

def s8g : State :=
  { (sDma.setChState 9 3) with chans := [(9, { first := here (4 * 2 ^ 21) })] }

def s8h : State :=
  { ((sDma.setChState 9 4).setCh Fld.dmaChStateMode 0 9).setPc 9 (here (4 * 2 ^ 21)) with chans := [(9, { first := here (4 * 2 ^ 21), bases := [0x4000, 0x6000, 0, 0, 0, 0, 0, 0], spaces := [2, 2, 0, 0, 0, 0, 0, 0], word := some ((here (4 * 2 ^ 21)) / 64 * 64, leBytes 64 ((0x4000 + 0x6000 * 2 ^ 64 + 64 * 2 ^ 128 + (2 + 8) * 2 ^ 160 + (here (4 * 2 ^ 21 + 96)) * 2 ^ 192) * 2 ^ (8 * ((here (4 * 2 ^ 21)) % 64)))) })], hostMem := sDma.hostMem.putN 0x4000 (List.replicate 64 6#8) }

def s8j : State :=
  { ((sDma.setChState 9 4).setCh Fld.dmaChStateMode 1 9).setPc 9 (here (4 * 2 ^ 21 + 32)) with chans := [(9, { first := here (4 * 2 ^ 21), bases := [0x4000, 0x6000, 0, 0, 0, 0, 0, 0], spaces := [2, 2, 0, 0, 0, 0, 0, 0], word := some ((here (4 * 2 ^ 21 + 32)) / 64 * 64, leBytes 64 ((1 + 8 * 2 ^ 8 + 64 * 2 ^ 96) * 2 ^ (8 * ((here (4 * 2 ^ 21 + 32)) % 64)))) })], hostMem := sDma.hostMem.putN 0x4000 (List.replicate 64 6#8) }

def s8k : State :=
  { ((sDma.setChState 9 4).setCh Fld.dmaChStateMode 1 9).setPc 9 (here (4 * 2 ^ 21 + 32)) with chans := [(9, { first := here (4 * 2 ^ 21), bases := [0x4000, 0x6000, 0, 0, 0, 0, 0, 0], spaces := [2, 2, 0, 0, 0, 0, 0, 0], word := some ((here (4 * 2 ^ 21 + 32)) / 64 * 64, leBytes 64 ((1 + 128 * 2 ^ 8 + 3 * 2 ^ 16 + 2 * 2 ^ 24 + 0x9000 * 2 ^ 64) * 2 ^ (8 * ((here (4 * 2 ^ 21 + 32)) % 64)))) })], hostMem := sDma.hostMem.putN 0x4000 (List.replicate 64 6#8) }

def s8l : State :=
  { ((sDma.setChState 9 4).setCh Fld.dmaChStateMode 1 9).setPc 9 (here (4 * 2 ^ 21 + 32)) with chans := [(9, { first := here (4 * 2 ^ 21), bases := [0x4000, 0x6000, 0, 0, 0, 0, 0, 0], spaces := [2, 2, 0, 0, 0, 0, 0, 0], word := some ((here (4 * 2 ^ 21 + 32)) / 64 * 64, leBytes 64 ((2 + 1 * 2 ^ 8 + 65535 * 2 ^ 16 + 2 * 2 ^ 32) * 2 ^ (8 * ((here (4 * 2 ^ 21 + 32)) % 64)))) })], hostMem := sDma.hostMem.putN 0x4000 (List.replicate 64 6#8) }

def s8m : State :=
  { ((sDma.setChState 9 4).setCh Fld.dmaChStateMode 1 9).setPc 9 (here (4 * 2 ^ 21 + 32)) with chans := [(9, { first := here (4 * 2 ^ 21), bases := [0x4000, 0x6000, 0, 0, 0, 0, 0, 0], spaces := [2, 2, 0, 0, 0, 0, 0, 0], word := some ((here (4 * 2 ^ 21 + 32)) / 64 * 64, leBytes 64 ((2 + 0 * 2 ^ 8 + 0 * 2 ^ 16 + 1 * 2 ^ 32) * 2 ^ (8 * ((here (4 * 2 ^ 21 + 32)) % 64)))) })], hostMem := sDma.hostMem.putN 0x4000 (List.replicate 64 6#8) }

def s8n : State :=
  { ((sDma.setChState 9 4).setCh Fld.dmaChStateMode 1 9).setPc 9 (here (4 * 2 ^ 21 + 32)) with chans := [(9, { first := here (4 * 2 ^ 21), bases := [0x4000, 0x6000, 0, 0, 0, 0, 0, 0], spaces := [2, 2, 0, 0, 0, 0, 0, 0], word := some ((here (4 * 2 ^ 21 + 32)) / 64 * 64, leBytes 64 ((4 + 0 * 2 ^ 8 + 36 * 2 ^ 16 + 65535 * 2 ^ 32) * 2 ^ (8 * ((here (4 * 2 ^ 21 + 32)) % 64)))) })], hostMem := sDma.hostMem.putN 0x4000 (List.replicate 64 6#8) }

def s8o : State :=
  { ((sDma.setChState 9 4).setCh Fld.dmaChStateMode 1 9).setPc 9 (here (4 * 2 ^ 21 + 32)) with chans := [(9, { first := here (4 * 2 ^ 21), bases := [0x4000, 0x6000, 0, 0, 0, 0, 0, 0], spaces := [2, 2, 0, 0, 0, 0, 0, 0], word := some ((here (4 * 2 ^ 21 + 32)) / 64 * 64, leBytes 64 ((0) * 2 ^ (8 * ((here (4 * 2 ^ 21 + 32)) % 64)))) })], hostMem := sDma.hostMem.putN 0x4000 (List.replicate 64 6#8) }

def s8p : State :=
  State1 { (sDma.setChState 9 4).setCh Fld.dmaChMovedMoved 4096 9 with chans := [(9, { ended := true, tag := some 1 })] } { cmd (ent 0x62 9 0 0 0) with stage := .running }

def s8r : State :=
  { ((sDma.setChState 9 4).setCh Fld.dmaChStateMode 1 9).setPc 9 (here (4 * 2 ^ 21 + 32)) with chans := [(9, { first := here (4 * 2 ^ 21), bases := [0x4000, 0x6000, 0, 0, 0, 0, 0, 0], spaces := [2, 2, 0, 0, 0, 0, 0, 0], word := some ((here (4 * 2 ^ 21 + 32)) / 64 * 64, leBytes 64 ((3 + 0 * 2 ^ 8 + 37 * 2 ^ 16 + 65535 * 2 ^ 32) * 2 ^ (8 * ((here (4 * 2 ^ 21 + 32)) % 64)))) })], hostMem := sDma.hostMem.putN 0x4000 (List.replicate 64 6#8) }

def s8s : State :=
  { (((sDma.setChState 10 1).setSignal 41 5).setChState 9 4).setCh Fld.dmaChStateMode 1 9 with chans := [(9, { first := here 0, word := some (0, leBytes 64 (3 + 4 * 2 ^ 8 + 41 * 2 ^ 16 + 5 * 2 ^ 32)) })] }

def s8t : State :=
  { (((sDma.setChState 10 1).setSignal 41 5).setChState 9 4).setCh Fld.dmaChStateMode 1 9 with chans := [(9, { first := here 0, word := some (0, leBytes 64 (3 + 0 * 2 ^ 8 + 41 * 2 ^ 16 + 6 * 2 ^ 32)) })] }

def sDmaU : State :=
  { sDma with bufs := [(5, { held := true, named := true, owner := 0, page := 14336, pages := 2 })] }

def s8u0 : State :=
  { (((sDma.setChState 10 1).setSignal 41 5).setChState 9 5).setCh Fld.dmaChStateMode 1 9 with chans := [(9, { first := here 0, word := some (0, leBytes 64 (3 + (2 + 0 * 8) * 2 ^ 8 + 0 * 2 ^ 32 + 0x3800000 * 2 ^ 64)), waiting := some { since := 0, us := some 10, epoch := 0, layer := 0, tick := 0, pt := 0, cap := 10 } })] }

def s8u : State :=
  ({ s8u0 with bufs := sDmaU.bufs }).setRegion 9 0 0x3800000

def s8v : State :=
  { (((sDma.setChState 10 1).setSignal 41 5).setChState 9 5).setCh Fld.dmaChStateMode 1 9 with chans := [(9, { first := here 0, word := some (0, leBytes 64 (3 + 1 * 2 ^ 8 + (3 * 2 ^ 32 + 2 ^ 16 + 100) * 2 ^ 64)), waiting := some { since := 0, us := some 10, epoch := 0, layer := 0, tick := 0, pt := 0, cap := 10 } })] }

def s8w : State :=
  State1 s8v { cmd (ent 0x62 9 0 0 0) with stage := .running }

def s8x : State :=
  { s8w with chans := s8w.chans.upd 9 fun k => { k with tag := some 1 } }

def s8y : State :=
  { (sDma.setChState 9 4) with chans := [(9, { retryAt := some 5000000 })] }

def sDr : State :=
  { ((((((base.setFld Fld.drcStateTrained 1 3).setFld Fld.drcStateDimms 1 3).setFld Fld.drcStateRanks 1 3).setFld Fld.drcRefSoft 2 3).setFld Fld.drcRefPostponeLimit 4 3).setFld Fld.drcInitDone 1) with dramGib := 512, population := [] }

def s9b : State :=
  sDr.setDebt 3 9 4

def s9k : State :=
  sDr.setFld Fld.drcStateTrained 1 0

def s9e : State :=
  { sDr.setFld Fld.drcInitDone 0 with dramGib := 512 }

def sBl : State :=
  { ((((base.setFld Fld.bldStageGuar0Mbps 10).setFld Fld.bldStageLimit0Mbps 100).setFld Fld.bldStageGuar1Mbps 20).setFld Fld.bldStageLimit1Mbps 200) with pairs := [(pairKey 0 3, { live := true, cg := 5, cl := 7, runReqs := 2, runBytes := 128 })], blendRuns := [(3, { bytes := 128, charges := 2, replies := 2, done := 64 })] }

def s9f : State :=
  sBl.setFld Fld.glbClkLock 0

def s9g : State :=
  { (sBl.setFld Fld.bldGuar0Mbps 64000 3).setFld Fld.bldLimit0Mbps 64000 3 with winUs := 1000 }

def s9h : State :=
  sBl.setFld Fld.bldStageLimit0Mbps 9

def s9i : State :=
  { base with links := [(63, { waiting := [{ typ := 0, vc := 3, tier := 2 }] })] }

def sTen : State :=
  { base with fns := base.fns.upd 16 fun f => { f with present := true, attach := 1 } }

def s10a : State :=
  State1 sTen (fm (ent (0x81) (0) 0 (0) (0 + 16 * 2 ^ 16 + 128 * 2 ^ 32 + 1 * 2 ^ 64)))

def s10c : State :=
  State1 sTen (fm (ent (0x81) (0) 0 (0) (2 + 0 * 2 ^ 16 + 2 * 2 ^ 32 + 7 * 2 ^ 64)))

def s10e : State :=
  State1 sTen (fm (ent (0x81) (0) 0 (0) (1 + 0 * 2 ^ 16)))

def sTenR : State :=
  { sTen with fns := sTen.fns.upd 16 fun f => { f with resetState := 1, cancels := 1 } }

def s10g : State :=
  State1 sTenR (fm (ent (0x81) (0) 0 (0) (0 + 16 * 2 ^ 16 + 128 * 2 ^ 32 + 1 * 2 ^ 64)))

def s10h : State :=
  State1 sTenR (fm (ent (0x81) (0) 0 (0) (2 + 16 * 2 ^ 16 + 128 * 2 ^ 32 + 1 * 2 ^ 64)))

def s10i : State :=
  State1 sPool (fm (ent (0x82) (0) 0x4000 (72) (1023 + 0 * 2 ^ 16 + 9 * 2 ^ 32)))

def s10j : State :=
  State1 { base with keys := [(1023, { loaded := true, owner := 0 })] } (fm (ent (0x82) (0) 0 (0) (1023 + 1 * 2 ^ 16 + 0 * 2 ^ 32)))

def s10k : State :=
  State1 { base with keys := [(1023, { loaded := true, owner := 0 })], extents := [(4, { state := .live, len := 2, enc := true, key := 1023 })] } (fm (ent (0x82) (0) 0 (0) (1023 + 1 * 2 ^ 16 + 0 * 2 ^ 32)))

def sVf : State :=
  { base with fns := base.fns.upd 1 fun f => { f with present := true, vf := 1, epoch := 255, ready := true, busMaster := true, msixEnable := true }, sqs := (base.sqs.put 1 { state := .active, owner := 1, size := 16, cq := 1 }), cqs := base.cqs.put 1 { state := .active, owner := 1, size := 16 } }

def s10l : State :=
  { sVf with fns := sVf.fns.upd 0 fun f => { f with vfEnable := true, numVfs := 1 } }

def s10m : State :=
  { sVf with fns := (sVf.fns.upd 1 fun f => { f with resetState := 1, cancels := 2, resetStart := 0 }) }

def s10n2 : State :=
  { base with fns := base.fns.upd 0 fun f => { f with vfEnable := true } }

def s10o : State :=
  State1 base { fm (ent 0 0 0 0 0) with live := true }

def s10p : State :=
  { base with fmNext := some 0 }

def s10q : State :=
  State1 { base with svc := [(unitKey 1 63, { state := 2 })] } (fm (ent (0x85) (0) 0 (0) (1 + 63 * 2 ^ 8 + 0 * 2 ^ 24)))

def s10r : State :=
  State1 { base with svc := [(unitKey 2 127, { state := 0 })] } (fm (ent (0x85) (0) 0 (0) (2 + 127 * 2 ^ 8 + 1 * 2 ^ 24)))

def s10s : State :=
  State1 { base with svc := [(unitKey 1 0, { state := 2 })] } (fm (ent (0x85) (0) 0 (0) (1 + 0 * 2 ^ 8 + 1 * 2 ^ 24)))

def s10t : State :=
  State1 { base with svc := [(unitKey 1 0, { state := 1, test := some 0 })] } (fm (ent (0x85) (0) 0 (0) (1 + 0 * 2 ^ 8 + 2 * 2 ^ 24)))

def s10v : State :=
  State1 { base with svc := [(unitKey 2 127, { state := 1 })] } (fm (ent (0x85) (0) 0 (0) (2 + 127 * 2 ^ 8 + 2 * 2 ^ 24)))

def s10w : State :=
  State1 { base with svc := [(unitKey 1 5, { state := 2 })] } (fm (ent (0x85) (0) 0 (0) (1 + 5 * 2 ^ 8 + 3 * 2 ^ 24)))

def s10x : State :=
  State1 { base with svc := [(unitKey 2 127, { state := 1, waiting := some 1 })] } ({ fm (ent (0x85) (0) 0 (0) (2 + 127 * 2 ^ 8 + 2 * 2 ^ 24)) with stage := .running })

def sLk : State :=
  { ((((((((((((base.setFld Fld.wlkStateTstate 5 0).setFld Fld.wlkStateLanes 3 0).setFld Fld.wlkStatePartnerDev 544 0).setFld Fld.wlkStatePartnerSys 1 0).setFld Fld.wlkStatePartnerLink 8 0).setFld Fld.wlkTxcredC0C3 0x0064006400640064 0).setFld Fld.wlkStateTstate 5 1).setFld Fld.wlkStateLanes 3 1).setFld Fld.wlkStatePartnerDev 545 1).setFld Fld.wlkStatePartnerSys 1 1).setFld Fld.wlkStatePartnerLink 8 1).setFld Fld.wlkTxcredC0C3 0x0064006400640064 1) with links := [(0, { expected := 4, next := 6, base := 6, used := 4999000, since := 4000000 })] }

def sLkR : State :=
  { sLk with links := sLk.links.upd 0 fun l => { l with replay := [{ payload := [], item := some { vc := 0, kind := 0x10, sys := 1, dev := 544, bytes := (MsgHead.bytes { dev := 544, sys := 1, kind := 0x10, tag := 5, orgDev := 553, orgSys := 1 }) } }], base := 5, timer := 4000000 } }

def sLkR9 : State :=
  { (sLkR.setFld Fld.wlkCtrlRetryLimit 2 0) with links := sLkR.links.upd 0 fun l => { l with fails := 2 } }

def sLkT : State :=
  { sLk with links := sLk.links.upd 0 fun l => { l with rx3 := (MsgHead.bytes { dev := 553, sys := 1, kind := 0x3F, len := 1 } ++ List.replicate 16 1#8) ++ [1#8, 2#8, 3#8, 4#8, 5#8] } }

def sLkL : State :=
  { sLk with links := sLk.links.upd 0 fun l => { l with lostWait := some 4000000 } }

def sT7 : State :=
  { (sLk.setFld Fld.wlkStateTstate 7 0) with links := sLk.links.upd 0 fun l => { l with since := 4999999 } }

def sT7b : State :=
  { (sLk.setFld Fld.wlkStateTstate 7 0) with links := sLk.links.upd 0 fun l => { l with since := 4000000, partner := some (544, 1, 8) } }

def sT8 : State :=
  { (sLk.setFld Fld.wlkStateTstate 8 0) with links := sLk.links.upd 0 fun l => { l with since := 4000000 } }

def sT1 : State :=
  { (sLk.setFld Fld.wlkStateTstate 1 0) with links := sLk.links.upd 0 fun l => { l with since := 4000000 } }

def sT2 : State :=
  { (sLk.setFld Fld.wlkStateTstate 2 0) with links := sLk.links.upd 0 fun l => { l with since := 4999999 } }

def sT2b : State :=
  { (sLk.setFld Fld.wlkStateTstate 2 0) with links := sLk.links.upd 0 fun l => { l with since := 4000000, partner := some (544, 1, 8) } }

def sT4 : State :=
  { (sLk.setFld Fld.wlkStateTstate 4 0) with links := sLk.links.upd 0 fun l => { l with since := 4999999 } }

def sT4b : State :=
  { (sLk.setFld Fld.wlkStateTstate 4 0) with links := sLk.links.upd 0 fun l => { l with since := 4000000 } }

def sT5d : State :=
  { (sLk.setFld Fld.wlkStateTstate 5 0) with links := sLk.links.upd 0 fun l => { l with since := 4000000, degraded := some 1000000 } }

def sT5e : State :=
  sT5d.setFld Fld.wlkCtrlReupS 2 0

def sL1 : State :=
  { (sLk.setFld Fld.wlkStateLanes 1 0) with links := sLk.links.upd 0 fun l => { l with degraded := some 4000000 } }

def sMc : State :=
  { sPool with cmds := [(3, { live := true, sq := 2 ^ 20 + 2, entry := ent 0x14 0 0 64 0, origin := some (1568, 5), inData := [9#8] })], nextTag := 4 }

def sMn : State :=
  { sPool with nextTag := 4 }

def sPw : State :=
  { sPool with cmds := [(3, { live := true, sq := 256, entry := ent 0x13 (here (4 * 2 ^ 21)) 0x4000 64 0, stage := .running, caller := ⟨553, 0⟩ })], parts := [(9, { live := true, cmd := 3, sys := 1, dev := 544, whole := true, len := 64 })], nextTag := 4, nextPart := 10 }

def sPp : State :=
  { sPool with cmds := [(3, { live := true, sq := 256, entry := ent 0x13 (here (4 * 2 ^ 21)) 0x4000 64 0, stage := .running, caller := ⟨553, 0⟩ })], parts := [(9, { live := true, cmd := 3, sys := 1, dev := 544, whole := false, len := 64 })], nextTag := 4, nextPart := 10 }

def sDl : State :=
  { sPool with deltas := [(9, { live := true, pos := 2, sent := 4000000 })] }

def sCn : State :=
  { sPool with cmds := [(3, { live := true, sq := 2 ^ 20 + 2, entry := ent 0x13 (here (4 * 2 ^ 21)) 0 64 0, origin := some (1568, 5), caller := ⟨544, 2⟩ })], nextTag := 4 }

def sPc : State :=
  { sPp with parts := sPp.parts.upd 9 fun p => { p with cancelled := true } }

def sAk : State :=
  { sPool with asks := [(9, { live := true, cmd := 3, dev := 544, code := 0x100 })] }

def sAt : State :=
  { sPool with asks := [(9, { live := true, cmd := 3, dev := 544, code := 0 })] }

def sRt : State :=
  { ((((((((((sLk.setFld Fld.wlkStateTstate 5 62).setFld Fld.wlkStateLanes 3 62).setFld Fld.wlkStatePartnerDev 544 62).setFld Fld.wlkStatePartnerSys 2 62).setFld Fld.wlkStatePartnerLink 62 62).setFld Fld.wlkTxcredC0C3 0x0064006400640064 62).setFld Fld.wlkModeMode 1 62).setFld Fld.wlkStateTstate 5 63).setFld Fld.wlkStateLanes 3 63).setFld Fld.wlkModeMode 2 63) with lsTable := [(544, { heard := some 1, links := 4 ^ 31 * 5 + 0x155, devState := 3, stale := false }), (545, { heard := some 1, links := 0x55555, devState := 3, stale := false }), (0x21, { heard := some 1, devState := 0, stale := false })] }

def sLs : State :=
  { sRt with lsTable := [(544, { heard := some 1, count := 2, seq := 65535, devState := 3, stale := false })] }

def sLr : State :=
  { sLs.setFld Fld.pwrStartStep 8 with starting := none, lsSent := 0, lsSeq := 65535 }

def sSt : State :=
  { sPool with cmds := [(3, { live := true, sq := 256, entry := ent 0x85 0 0 0 (6 + 544 * 2^8), stage := .running, caller := ⟨553, 0⟩ })], parts := [(9, { live := true, cmd := 3, sys := 1, dev := 544, whole := true, len := 64 })], nextTag := 4, nextPart := 10 }

def sNp : State :=
  { (sLk.setFld Fld.wlkNapCtrlEnable 1 0).setFld Fld.wlkRtCtrlMinAwake 1 with links := [(0, { napOk := true, used := 1000, slots := [100, 100, 100, 100] })] }

def sNa : State :=
  { sNp with links := sNp.links.upd 0 fun l => { l with napAsked := some 200 } }

def sNx : State :=
  sNp.setFld Fld.wlkNapCtrlEnable 0 0

def sNn : State :=
  { sNp.setFld Fld.wlkStateTstate 6 0 with links := sNp.links.upd 0 fun l => { l with napUntil := 4000000 } }

def sLg : State :=
  ((((((((sLk.setFld Fld.wlkStateTstate 5 32).setFld Fld.wlkStateLanes 3 32).setFld Fld.wlkStatePartnerDev 41 32).setFld Fld.wlkTxcredC0C3 0x0064006400640064 32).setFld Fld.wlkStateTstate 5 33).setFld Fld.wlkStateLanes 3 33).setFld Fld.wlkStatePartnerDev 73 33).setFld Fld.wlkTxcredC0C3 0x0064006400640064 33)

def sGr : State :=
  ((((((((sLg.setFld Fld.protMemberDevid 41 0).setFld Fld.protMemberDevid 73 1).setFld Fld.protMemberDevid 105 2).setFld Fld.protMemberDevid 553 3).setFld Fld.protMemberDevid 585 4).setFld Fld.poolLogicalGib 1).setFld Fld.poolSectorsRsvRsv 400000).setFld Fld.poolTablesExtentFree 100)

def sGr1 : State :=
  (((((((((sLg.setFld Fld.protMemberDevid 41 0).setFld Fld.protMemberDevid 73 1).setFld Fld.protMemberDevid 105 2).setFld Fld.protMemberDevid 553 3).setFld Fld.protMemberDevid 585 4).setFld Fld.poolLogicalGib 1).setFld Fld.poolSectorsRsvRsv 400000).setFld Fld.poolTablesExtentFree 100).setFld Fld.protGroupWidth 1).sizeParity

def sGrJ : State :=
  { sGr with joins := [(41, some sGr1.sizeCheck), (73, some sGr1.sizeCheck), (105, some sGr1.sizeCheck), (585, some sGr1.sizeCheck)] }

def sGs : State :=
  (((((((((((sLg.setFld Fld.protMemberDevid 41 0).setFld Fld.protMemberDevid 73 1).setFld Fld.protMemberDevid 105 2).setFld Fld.protMemberDevid 553 3).setFld Fld.protMemberDevid 585 4).setFld Fld.poolLogicalGib 1).setFld Fld.poolSectorsRsvRsv 400000).setFld Fld.poolTablesExtentFree 100).setFld Fld.protGroupWidth 1).sizeParity.setFld Fld.protStateState 1).setFld Fld.protGroupPosition 3)

def sGw : State :=
  (((((((((((sLg.setFld Fld.protMemberDevid 41 0).setFld Fld.protMemberDevid 73 1).setFld Fld.protMemberDevid 105 2).setFld Fld.protMemberDevid 553 3).setFld Fld.protMemberDevid 585 4).setFld Fld.poolLogicalGib 1).setFld Fld.poolSectorsRsvRsv 400000).setFld Fld.poolTablesExtentFree 100).setFld Fld.protGroupWidth 1).sizeParity.setFld Fld.protStateState 2).setFld Fld.protGroupPosition 3)

def sGj : State :=
  { sGr1 with joining := true, joins := [(41, some sGr1.sizeCheck), (73, some sGr1.sizeCheck), (105, some sGr1.sizeCheck)] }

def sGa : State :=
  ((((((((((((sLg.setFld Fld.protMemberDevid 41 0).setFld Fld.protMemberDevid 73 1).setFld Fld.protMemberDevid 105 2).setFld Fld.protMemberDevid 553 3).setFld Fld.protMemberDevid 585 4).setFld Fld.protMemberState 1 0).setFld Fld.poolLogicalGib 1).setFld Fld.poolSectorsRsvRsv 400000).setFld Fld.poolTablesExtentFree 100).setFld Fld.protGroupWidth 1).sizeParity.setFld Fld.protStateState 3).setFld Fld.protGroupPosition 3)

def sGf : State :=
  ((((((((((((sLg.setFld Fld.protMemberDevid 41 0).setFld Fld.protMemberDevid 73 1).setFld Fld.protMemberDevid 105 2).setFld Fld.protMemberDevid 553 3).setFld Fld.protMemberDevid 585 4).setFld Fld.protMemberState 2 0).setFld Fld.poolLogicalGib 1).setFld Fld.poolSectorsRsvRsv 400000).setFld Fld.poolTablesExtentFree 100).setFld Fld.protGroupWidth 1).sizeParity.setFld Fld.protStateState 3).setFld Fld.protGroupPosition 3)

def sGc : State :=
  (sGa.setFld Fld.protStateCoord 3)

def sSp2 : State :=
  ((sGf.setFld Fld.protSpareState 2).setFld Fld.protSpareFor 41)

def sSp9 : State :=
  ((sGa.setFld Fld.protSpareState 1).setFld Fld.glbIdDevid 560)

def sEv : State :=
  (sGw.setFld Fld.protEvacBusy 1)

def sEvC : State :=
  { sEv with cmds := [(3, cmd (ent 0x13 0 0 0 0))] }

def sDs : State :=
  State1 sLg (fm (ent (0x83) (0) 0 (0) (0)))

def sDs2 : State :=
  State1 { sLg with owners := [(3, some ⟨553, 1⟩)] } (fm (ent (0x83) (0) 0 (0) (0)))

def sWd : State :=
  State1 sLg (fm (ent (0x83) (0) 0 (0) (1)))

def sWd2 : State :=
  State1 (sLg.setFld Fld.protSpareState 1) (fm (ent (0x83) (0) 0 (0) (1)))

def sDel : State :=
  { sGw with deltas := [(9, { live := true, pos := 2, area := 0, stripe := 4, sent := 100 }), (10, { live := true, pos := 2, area := 0, stripe := 5, sent := 100 })] }

def sRd : State :=
  (sSp2.setFld Fld.protRebuildArea 1).setFld Fld.protRebuildStripe 1360

def sRb : State :=
  { sGw with resync := [(0, 7)] }

def sRb1 : State :=
  { sRb with rebuilding := true, srcGot := [(0, 256), (1, 256), (2, 256), (3, 256), (16, 256)], srcBytes := [(5, 9#8), (65536 + 7, 3#8), (2 * 65536, 1#8), (16 * 65536 + 2, 1#8)] }

def sRb2 : State :=
  { sRb with rebuilding := true, srcGot := [(0, 256)] }

def sRb4 : State :=
  { (List.range 5).foldl (fun s p => s.setFld Fld.protMemberState 2 p) sRb with rebuilding := true }

def sLo : State :=
  { sGw with locks := [(areaKey 0 7, some 600), (areaKey 0 8, some 600)], dirty := [(frameOf 0 0 7, true)], lostFrames := [(frameOf 0 0 7, true)] }

def sFr : State :=
  { sGw with frames := [(frameKey 5 3, { used := true }), (frameKey 6 3, { used := true })], flashStripes := [(101, { opened := true, here := 1 })], flash := [(frameKey 5 3 * 65536 + 3, 9#8)] }

def sFr2 : State :=
  { sGw with frames := [(frameKey 5 2, { used := true })] }

def sFt : State :=
  { sGw with flashStripes := [(96, { opened := true, here := 1, since := 100 })] }

def sBa : State :=
  { ((((base.setFld Fld.pwrMbAttnCause 1).setFld Fld.pwrMbAttnMask 255).setFld Fld.pwrMbStatusPending 1)) with attn := { served := false } }

def sB2 : State :=
  { base with bus := [(0, { pointer := 0x280, state := .busy, role := .write })] }

def sB3 : State :=
  { base with bus := [(0, { pointer := 0x280, state := .busy, role := .read })] }

def sB5 : State :=
  { base with bus := [(0, { pointer := 0x280, state := .busy, role := .alert })] }

def sB6 : State :=
  { base with bus := [(0, { pointer := 0x280, state := .recovering, waits := 3 })] }

def sB80 : State :=
  { base with bus := [(0, { pointer := 0x208, state := .busy, role := .write, pointed := true, fill := 77, got := 3 })], evOpen := true }

def sB83 : State :=
  { base with bus := [(0, { pointer := 0x300, state := .busy, role := .write, pointed := true, fill := 77, got := 3 })], evOpen := true }

def sBw : State :=
  { (base.setFld Fld.pwrStateState 2) with bus := [(1, { pointer := 5 })] }

def sBb : State :=
  { sBa with attn := { served := false, last := some 1000, interval := 2000 }, bus := [(1, { state := .busy })] }

def sBp : State :=
  (base.setFld Fld.pwrMbCtrlPollEn 1)

def sBd : State :=
  { (base.setFld Fld.pwrMbStatusPair0 2) with bus := [(0, { state := .dead })] }

def sBd2 : State :=
  { base with bus := [(0, { state := .dead }), (1, { state := .dead })] }

def sBx : State :=
  { (base.setFld Fld.pwrMbCtrlArbRetry 2) with xfer := some { pair := 0 } }

def sBx2 : State :=
  { (base.setFld Fld.pwrMbCtrlArbRetry 2) with xfer := some { pair := 1, retries := 2 } }

def sBt : State :=
  { base with bus := [(0, { state := .recovering, tries := 2, pointer := 9 })] }

def sQ : State :=
  { sLk with svc := [(393216, { state := 1 })], fns := sLk.fns }

def sQd : State :=
  sQ.setFld Fld.pwrStateState 1

def sQl : State :=
  sQ.setFld Fld.pwrMbCtrlLock 1

def sQb : State :=
  { sQ with bus := [(0, { state := .busy, role := .write })] }

def sQs : State :=
  { (sQ.setFld Fld.pwrStateState 2).setFld Fld.glbClkLock 0 with waking := true }

def sV : State :=
  { State.reset with us := 77, out := [.busHold 0] }

def sVs : State :=
  { State.reset with us := 77, standby := true, straps := 5 }

def sCs : State :=
  { State.reset with pwrgood := true, standby := true, straps := 17 * 8 + 9 * 256 + 3, starting := some ⟨3, true⟩, urn := [(3, 1#8)] }

def sCs2 : State :=
  { sCs with slotA := {} }

def sC2 : State :=
  { sCs with starting := some ⟨2, true⟩, pwrgood := false }

def sTr : State :=
  { base with starting := some ⟨5, false⟩, trial := some 1, slotA := { verified := true, version := 1 }, slotB := { verified := true, svn := 2, version := 2 } }

def sTr2 : State :=
  sTr.setFld Fld.pwrFwStatAttempts 2

def sDv : State :=
  { base with slotA := { verified := true, version := 1 }, straps := 17 * 8 + 9 * 256 }

def sDvl : State :=
  sDv.setFld Fld.pwrMbCtrlLock 1

def sCf : State :=
  { sDv with norA := some (sDv.configNow 5) }

def sCf2 : State :=
  { sDv with norA := some { sDv.configNow 5 with system := 9 }, norB := some { sDv.configNow 6 with system := 8 } }

def sFw : State :=
  { sDv.setFld Fld.pwrFwLenBytes 5000 with slotB := { verified := true, svn := 3 } }

def sFw1 : State :=
  { (sFw.setFld Fld.pwrFwStatStatus 1) with staging := some ⟨1, 2, { verified := true, svn := 4, version := 9 }⟩ }

def sFwN : State :=
  { (sDv.setFld Fld.pwrFwCtrlSlot 1) with minSvn := 3 }

def sEv1 : State :=
  { ((base.setFld Fld.evtProdProd 5).setFld Fld.evtConsCons 3) with evOpen := true, evSent := true, evRing := [(3, 77), (4, 78)] }

def sEvL : State :=
  sEv1.setFld Fld.pwrMbCtrlLock 1

def sRw : State :=
  base

/-- An answer is that value, not a refusal. -/
theorem answers {ε α : Type} [DecidableEq α] {x : Except ε α} {y : α} (h : (match x with | .ok z => decide (z = y) | .error _ => false) = true) :
    x = .ok y := by
  cases x <;> simp_all

/-- An answer is that refusal. -/
theorem refuses {ε α : Type} [DecidableEq ε] {x : Except ε α} {y : ε} (h : (match x with | .ok _ => false | .error z => decide (z = y)) = true) :
    x = .error y := by
  cases x <;> simp_all

/-- An answer with two further values. -/
theorem pairs {α β γ : Type} [DecidableEq β] [DecidableEq γ] {x : α × β × γ} {b : β} {c : γ} (h : decide (x.2 = (b, c)) = true) :
    ∃ t, x = (t, b, c) := by
  obtain ⟨a, d, e⟩ := x
  simp_all

/-- An answer of some value. -/
theorem goes {ε α : Type} {x : Except ε α} (h : (match x with | .ok _ => true | .error _ => false) = true) : ∃ t, x = .ok t := by
  cases x <;> simp_all

/-- An answer beside a state. -/
theorem paired {α β ε : Type} [DecidableEq β] {x : α × Except ε β} {b : β}
    (h : (match x.2 with | .ok z => decide (z = b) | .error _ => false) = true) : ∃ t, x = (t, .ok b) := by
  obtain ⟨a, _ | d⟩ := x <;> simp_all

/-- A value that is there. -/
theorem present {α : Type} {x : Option α} {d : α} (h : x.isSome = true) : x = some (x.getD d) := by
  cases x <;> simp_all

/-- The word of program memory in hand, and the number that 16 of its bytes make. -/
theorem held {x : Option (Nat × List Byte)} {a o n : Nat}
    (h : (match x with | some (b, w) => decide (b = a) && decide (leNat ((w.drop o).take 16) = n) | none => false) = true) :
    ∃ w, x = some (a, w) ∧ leNat ((w.drop o).take 16) = n := by
  obtain _ | ⟨b, w⟩ := x
  · cases h
  · simp only [Bool.and_eq_true, decide_eq_true_eq] at h
    exact ⟨w, by rw [h.1], h.2⟩

/-- A range is blank when each of its pages, in turn, is. -/
theorem blank {s : State} {a n : Nat}
    (h : (List.range (n / 4096 + 2)).all (fun i => !(s.mapEntry (a / 4096 + i)).mapped && !(s.mapEntry (a / 4096 + i)).poison) = true) :
    ∀ p, a / 4096 ≤ p → 4096 * p < a + n → (s.mapEntry p).mapped = false ∧ (s.mapEntry p).poison = false := by
  intro p h1 h2
  have h3 := List.all_eq_true.mp h (p - a / 4096) (List.mem_range.mpr (by omega))
  rw [Nat.add_sub_cancel' h1] at h3
  simpa using h3

/-- A number below the bound at which the value is present and is not the one named. -/
theorem otherAt {f : Nat → Option Who} {y : Who} {n : Nat} (i : Nat)
    (h : (decide (i < n) && match f i with | some w => decide (w ≠ y) | none => false) = true) : ∃ i w, i < n ∧ f i = some w ∧ w ≠ y := by
  refine ⟨i, ?_⟩
  cases hf : f i <;> simp_all

/-- A brim, where one is given, that is no lower than the tick. -/
theorem brims {x : Option Nat} {n : Nat} (h : (match x with | some b => decide (n ≤ b) | none => true) = true) :
    ∀ b, x = some b → n ≤ b := by
  cases x <;> simp_all

theorem witness_StepRunsFrontCommand :
    (sPend1.pending = [Instr.blist 1, Instr.identify 2]) ∧
    (base.pending = []) := by
  refine ⟨?_, ?_⟩
  · decide +kernel
  · decide +kernel

theorem witness_AdminPairComesAndGoes :
    ((sOff.fn 0).present = true ∧
      (sOff.fn 0).ready = false ∧
      (sOff.fn 0).acqDeleting = false ∧
      (sOff.fn 0).resetState = 0 ∧
      bits (2 ^ 31) 0 12 = 0) ∧
    ((sOff.fn 0).present = true ∧
      (sOff.fn 0).ready = false ∧
      (sOff.fn 0).acqDeleting = false ∧
      (sOff.fn 0).resetState = 0 ∧
      bits (4095 + 2 ^ 31) 0 12 ≠ 0) ∧
    ((base.fn 0).present = true ∧
      (base.fn 0).ready = true ∧
      (base.fn 0).acqDeleting = false ∧
      (base.fn 0).resetState = 0 ∧
      (base.sqCount 0 ≠ 0 ∨ base.cqCount 0 ≠ 0)) ∧
    ((base.fn 64).present = true ∧
      (base.fn 64).ready = true ∧
      (base.fn 64).acqDeleting = false ∧
      (base.fn 64).resetState = 0 ∧
      base.sqCount 64 = 0 ∧
      base.cqCount 64 = 0 ∧
      base.sqBusy 64 = false ∧
      (base.cqs.get 64).held = []) ∧
    ((sFm.fn 64).present = true ∧
      (sFm.fn 64).ready = true ∧
      (sFm.fn 64).acqDeleting = false ∧
      (sFm.fn 64).resetState = 0 ∧
      sFm.sqCount 64 = 0 ∧
      sFm.cqCount 64 = 0 ∧
      sFm.sqBusy 64 = true) := by
  refine ⟨?_, ?_, ?_, ?_, ?_⟩
  · decide +kernel
  · decide +kernel
  · decide +kernel
  · decide +kernel
  · decide +kernel

theorem witness_EntryWriteLandsInItsSlot :
    (base.hostMay 0 = true ∧
      1 < 256 ∧
      base.findSq 0 1 = some (256, base.sqs.get 256) ∧
      3 < (base.sqs.get 256).size ∧
      3 < 64 ∧
      List.replicate 64 5#8 ≠ [] ∧
      0 + (List.replicate 64 5#8).length ≤ 64 ∧
      (¬((base.sqs.get 256).state = QState.active ∧ ringCount (base.sqs.get 256).size (base.sqs.get 256).head 3 < ringCount (base.sqs.get 256).size (base.sqs.get 256).head (base.sqs.get 256).tail))) ∧
    (sFull.hostMay 0 = true ∧
      1 < 256 ∧
      sFull.findSq 0 1 = some (256, sFull.sqs.get 256) ∧
      0 < (sFull.sqs.get 256).size ∧
      0 < 64 ∧
      List.replicate 1 5#8 ≠ [] ∧
      1 + (List.replicate 1 5#8).length ≤ 64 ∧
      (sFull.sqs.get 256).state = QState.active ∧
      ringCount (sFull.sqs.get 256).size (sFull.sqs.get 256).head 0 < ringCount (sFull.sqs.get 256).size (sFull.sqs.get 256).head (sFull.sqs.get 256).tail) ∧
    (sFull.hostMay 0 = true ∧
      4064 + (List.replicate 128 5#8).length ≤ 2 ^ 20 ∧
      4064 ≤ 4160 ∧
      4160 < 4064 + (List.replicate 128 5#8).length ∧
      sFull.findSq 0 (4160 / 4096) = some (256, sFull.sqs.get 256) ∧
      (sFull.sqs.get 256).state = QState.active ∧
      4160 % 4096 / 64 < (sFull.sqs.get 256).size ∧
      ringCount (sFull.sqs.get 256).size (sFull.sqs.get 256).head (4160 % 4096 / 64) < ringCount (sFull.sqs.get 256).size (sFull.sqs.get 256).head (sFull.sqs.get 256).tail) ∧
    (2 ^ 20 < 1048544 + (List.replicate 64 5#8).length) := by
  refine ⟨?_, ?_, ?_, ?_⟩
  · decide +kernel
  · decide +kernel
  · decide +kernel
  · decide +kernel

theorem witness_TailDoorbell :
    (base.hostMay 0 = true ∧
      base.findSq 0 2 = none) ∧
    (base.hostMay 0 = true ∧
      base.findSq 0 1 = some (256, base.sqs.get 256) ∧
      (base.sqs.get 256).state = QState.active ∧
      base.poisoned (4194304 + 64 * 256) = false ∧
      3 < (base.sqs.get 256).size ∧
      ringCount (base.sqs.get 256).size (base.sqs.get 256).head (base.sqs.get 256).tail ≤ ringCount (base.sqs.get 256).size (base.sqs.get 256).head 3) ∧
    (base.hostMay 0 = true ∧
      base.findSq 0 1 = some (256, base.sqs.get 256) ∧
      (base.sqs.get 256).state = QState.active ∧
      base.poisoned (4194304 + 64 * 256) = false ∧
      0 = (base.sqs.get 256).tail ∧
      0 < (base.sqs.get 256).size) ∧
    (base.hostMay 0 = true ∧
      base.findSq 0 1 = some (256, base.sqs.get 256) ∧
      (base.sqs.get 256).state = QState.active ∧
      base.poisoned (4194304 + 64 * 256) = false ∧
      (¬(4 < (base.sqs.get 256).size ∧ ringCount (base.sqs.get 256).size (base.sqs.get 256).head (base.sqs.get 256).tail ≤ ringCount (base.sqs.get 256).size (base.sqs.get 256).head 4))) := by
  refine ⟨?_, ?_, ?_, ?_⟩
  · decide +kernel
  · decide +kernel
  · decide +kernel
  · decide +kernel

theorem witness_AcceptanceTakesOneEntry :
    (sDoor.hostMay 0 = true ∧
      sDoor.findSq 0 1 = some (256, sDoor.sqs.get 256) ∧
      (sDoor.sqs.get 256).head = (sDoor.sqs.get 256).tail ∧
      2 ≤ (sDoor.sqs.get 256).size ∧
      sDoor.poisoned (4194304 + 64 * 256) = false ∧
      sDoor.poisoned (slotOff 256 (sDoor.sqs.get 256).head) = false ∧
      (sDoor.sqs.get 256).head < (sDoor.sqs.get 256).size ∧
      (sDoor.sqs.get 256).owner = 0 ∧
      sDoor.canAccept 256 = true) := by
  decide +kernel

theorem witness_AcceptanceCheckOrder :
    (sOut.admittedNow (sOut.sqs.get 256).owner = false ∧
      Entry.op 112 ≠ 0) ∧
    (base.admittedNow (base.sqs.get 256).owner = true ∧
      opDefined (Entry.op 15) = false) ∧
    (base.admittedNow (base.sqs.get 256).owner = true ∧
      opDefined (Entry.op 129) = true ∧
      Entry.op 129 / 16 = 8 ∧
      base.privSq 256 = false) ∧
    (base.admittedNow (base.sqs.get 256).owner = true ∧
      opDefined (Entry.op (19 + 2 * 2 ^ 32)) = true ∧
      (Entry.op (19 + 2 * 2 ^ 32) / 16 = 8 → base.privSq 256 = true) ∧
      (Entry.headerClean (19 + 2 * 2 ^ 32) (base.privSq 256) = false ∨ Entry.noint (19 + 2 * 2 ^ 32) = true ∧ Entry.urgent (19 + 2 * 2 ^ 32) = true ∨ bit (base.blendsOf (base.sqs.get 256).owner) (Entry.blend (19 + 2 * 2 ^ 32)) = false)) ∧
    (base.admittedNow (base.sqs.get 256).owner = true ∧
      opDefined (Entry.op 19) = true ∧
      (Entry.op 19 / 16 = 8 → base.privSq 256 = true) ∧
      Entry.headerClean 19 (base.privSq 256) = true ∧
      (¬(Entry.noint 19 = true ∧ Entry.urgent 19 = true)) ∧
      bit (base.blendsOf (base.sqs.get 256).owner) (Entry.blend 19) = true ∧
      Entry.dlMode 19 = 0 ∧
      bits 19 296 24 = 0) := by
  refine ⟨?_, ?_, ?_, ?_, ?_⟩
  · decide +kernel
  · decide +kernel
  · decide +kernel
  · decide +kernel
  · decide +kernel

theorem witness_RepliesReachTheirCq :
    (sHeld.hostMay 0 = true ∧
      sHeld.findCq 0 1 = some (256, sHeld.cqs.get 256) ∧
      (sHeld.cqs.get 256).state = QState.active ∧
      3 < (sHeld.cqs.get 256).size ∧
      ringCount (sHeld.cqs.get 256).size (sHeld.cqs.get 256).head 3 ≤ ringCount (sHeld.cqs.get 256).size (sHeld.cqs.get 256).head (sHeld.cqs.get 256).tail) ∧
    (sHeld.hostMay 0 = true ∧
      sHeld.findCq 0 1 = some (256, sHeld.cqs.get 256) ∧
      (sHeld.cqs.get 256).state = QState.active ∧
      (¬(4 < (sHeld.cqs.get 256).size ∧ ringCount (sHeld.cqs.get 256).size (sHeld.cqs.get 256).head 4 ≤ ringCount (sHeld.cqs.get 256).size (sHeld.cqs.get 256).head (sHeld.cqs.get 256).tail))) ∧
    ((sDone.cmd 1).live = true ∧
      (sDone.cmd 1).stage = Stage.done ∧
      (sDone.cmd 1).origin = none ∧
      (sDone.cmd 1).epoch = (sDone.fn (sDone.cmd 1).fn).epoch ∧
      (sDone.cmd 1).sq < 2 ^ 20 ∧
      (sDone.grouped = false ∨ opTables (Entry.op (sDone.cmd 1).entry) = false) ∧
      sDone.deltasOpen (sDone.cmd 1) = false ∧
      Entry.op (sDone.cmd 1).entry ≠ 129 ∧
      sDone.canReply (sDone.sqs.get (sDone.cmd 1).sq).cq = true ∧
      (sDone.cqs.get (sDone.sqs.get (sDone.cmd 1).sq).cq).held = []) ∧
    ((sDoneFull.cmd 1).live = true ∧
      (sDoneFull.cmd 1).stage = Stage.done ∧
      (sDoneFull.cmd 1).origin = none ∧
      (sDoneFull.cmd 1).epoch = (sDoneFull.fn (sDoneFull.cmd 1).fn).epoch ∧
      (sDoneFull.cmd 1).sq < 2 ^ 20 ∧
      (sDoneFull.grouped = false ∨ opTables (Entry.op (sDoneFull.cmd 1).entry) = false) ∧
      sDoneFull.deltasOpen (sDoneFull.cmd 1) = false ∧
      Entry.op (sDoneFull.cmd 1).entry ≠ 129 ∧
      sDoneFull.canReply (sDoneFull.sqs.get (sDoneFull.cmd 1).sq).cq = false) := by
  refine ⟨?_, ?_, ?_, ?_⟩
  · decide +kernel
  · decide +kernel
  · decide +kernel
  · decide +kernel

theorem witness_VectorsAndBusMaster :
    ((sCoal.coal.get (coalKey 0 3)).count ≠ 0 ∧
      sCoal.fld Fld.cmdVecCoalTime 0 3 ≠ 0 ∧
      (sCoal.coal.get (coalKey 0 3)).since + sCoal.fld Fld.cmdVecCoalTime 0 3 ≤ sCoal.us ∧
      sCoal.tracing 2 = false) ∧
    (sCoal.hostMay 0 = true ∧
      sCoal.flag Fld.twbCtrlGo = false) ∧
    (sCoal.hostMay 0 = true) ∧
    (sCoal.hostMay 0 = true) := by
  refine ⟨?_, ?_, ?_, ?_⟩
  · decide +kernel
  · decide +kernel
  · decide +kernel
  · decide +kernel

theorem witness_WorkEndsEarly :
    ((sDone.cmd 1).live = true ∧
      (sDone.cmd 1).stage = Stage.done) ∧
    ((sRead.cmd 1).live = true ∧
      (sRead.cmd 1).stage ≠ Stage.done ∧
      sRead.chanFor 1 = none ∧
      sRead.partsOf 1 = [] ∧
      (¬Entry.op (sRead.cmd 1).entry ∈ [32, 34, 49, 50, 68])) ∧
    ((sRead.cmd 1).live = true ∧
      (sRead.cmd 1).stage ≠ Stage.done ∧
      sRead.chanFor 1 = none ∧
      sRead.partsOf 1 = [] ∧
      (¬Entry.op (sRead.cmd 1).entry ∈ [32, 34, 49, 50, 68]) ∧
      127 < 128) ∧
    (Served sAb1 1 8 (sAb1.cmd 1) ∧
      (sAb1.sqs.get (sAb1.cmd 1).sq).loc ≠ 0) ∧
    (Served sAb2 1 8 (sAb2.cmd 1) ∧
      (sAb2.sqs.get (sAb2.cmd 1).sq).loc = 0 ∧
      (sAb2.cmd 1).stage ≠ Stage.running ∧
      sAb2.outstanding (sAb2.cmd 1).fn (Entry.spec (sAb2.cmd 1).entry 40 2) (Entry.spec (sAb2.cmd 1).entry 42 2) 1 = none) ∧
    (Served sAb3 1 8 (sAb3.cmd 1) ∧
      (sAb3.sqs.get (sAb3.cmd 1).sq).loc = 0 ∧
      (sAb3.cmd 1).stage ≠ Stage.running ∧
      sAb3.outstanding (sAb3.cmd 1).fn (Entry.spec (sAb3.cmd 1).entry 40 2) (Entry.spec (sAb3.cmd 1).entry 42 2) 1 = some 2 ∧
      sAb3.abortable 2 = false) ∧
    (Served sAb4 1 8 (sAb4.cmd 1) ∧
      (sAb4.sqs.get (sAb4.cmd 1).sq).loc = 0 ∧
      (sAb4.cmd 1).stage = Stage.running ∧
      (sAb4.cmd (sAb4.cmd 1).first).live = false) := by
  refine ⟨?_, ?_, ?_, ?_, ?_, ?_, ?_⟩
  · decide +kernel
  · decide +kernel
  · decide +kernel
  · unfold Served; decide +kernel
  · unfold Served; decide +kernel
  · unfold Served; decide +kernel
  · unfold Served; decide +kernel

theorem witness_OpcodeRowsCheckReservedFields :
    ((Instr.sqCreate, 1) ∈ Claims.opcodeRows ∧
      s2a.ready 1 (Instr.sqCreate, 1).snd = none) ∧
    ((Instr.identify, 0) ∈ Claims.opcodeRows ∧
      s2e.ready 1 (Instr.identify, 0).snd = some (s2e.cmd 1) ∧
      (opSpecClean (s2e.cmd 1).entry = false ∨ mapFields (s2e.cmd 1).entry = false ∨ opDeadline (Instr.identify, 0).snd = false ∧ (Entry.dlMode (s2e.cmd 1).entry ≠ 0 ∨ Entry.deadline (s2e.cmd 1).entry ≠ 0))) := by
  refine ⟨?_, ?_⟩
  · exact ⟨by simp [Claims.opcodeRows],
      by decide +kernel⟩
  · exact ⟨by simp [Claims.opcodeRows],
      by decide +kernel,
      by decide +kernel⟩

theorem witness_QueriesAnswer :
    (Served s2a 1 0 (s2a.cmd 1) ∧
      Entry.spec (s2a.cmd 1).entry 40 1 ≤ 2) ∧
    (Served s2d 1 0 (s2d.cmd 1) ∧
      2 < Entry.spec (s2d.cmd 1).entry 40 1) ∧
    (Served s2f 1 112 (s2f.cmd 1) ∧
      Entry.length (s2f.cmd 1).entry = 64 ∧
      bit (s2f.blendsOf (s2f.cmd 1).fn) (Entry.specBits (s2f.cmd 1).entry 40 0 6) = true) ∧
    (Served s2g 1 112 (s2g.cmd 1) ∧
      Entry.length (s2g.cmd 1).entry = 64 ∧
      bit (s2g.blendsOf (s2g.cmd 1).fn) (Entry.specBits (s2g.cmd 1).entry 40 0 6) = false) ∧
    (Served s2h 1 113 (s2h.cmd 1)) := by
  refine ⟨?_, ?_, ?_, ?_, ?_⟩
  · unfold Served; decide +kernel
  · unfold Served; decide +kernel
  · unfold Served; decide +kernel
  · unfold Served; decide +kernel
  · unfold Served; decide +kernel

theorem witness_QueueCommands :
    (Served s2i 1 1 (s2i.cmd 1) ∧
      (s2i.sqs.get (s2i.cmd 1).sq).loc = 0 ∧
      0 < Entry.spec (s2i.cmd 1).entry 40 2 ∧
      Entry.spec (s2i.cmd 1).entry 40 2 < 256 ∧
      s2i.findSq (s2i.cmd 1).fn (Entry.spec (s2i.cmd 1).entry 40 2) = none ∧
      2 ≤ Entry.spec (s2i.cmd 1).entry 42 2 ∧
      Entry.spec (s2i.cmd 1).entry 42 2 ≤ 64 ∧
      s2i.findCq (s2i.cmd 1).fn (Entry.spec (s2i.cmd 1).entry 44 2) = some (256, base.cqs.get 256) ∧
      s2i.sqCount (s2i.cmd 1).fn < min 256 (s2i.fld Fld.cmdFnQuotaSq (s2i.cmd 1).fn) ∧
      s2i.freeSq = some 257) ∧
    (Served s2j 1 3 (s2j.cmd 1) ∧
      (s2j.sqs.get (s2j.cmd 1).sq).loc = 0 ∧
      0 < Entry.spec (s2j.cmd 1).entry 40 2 ∧
      Entry.spec (s2j.cmd 1).entry 40 2 < 256 ∧
      s2j.findCq (s2j.cmd 1).fn (Entry.spec (s2j.cmd 1).entry 40 2) = none ∧
      2 ≤ Entry.spec (s2j.cmd 1).entry 42 2 ∧
      Entry.spec (s2j.cmd 1).entry 42 2 ≤ 4096 ∧
      Entry.hostBuf (s2j.cmd 1).entry % 4096 = 0 ∧
      s2j.cqCount (s2j.cmd 1).fn < min 256 (s2j.fld Fld.cmdFnQuotaCq (s2j.cmd 1).fn) ∧
      s2j.freeCq = some 257) ∧
    (Served s2k 1 2 (s2k.cmd 1) ∧
      (s2k.sqs.get (s2k.cmd 1).sq).loc = 0 ∧
      0 < Entry.spec (s2k.cmd 1).entry 40 2 ∧
      s2k.findSq (s2k.cmd 1).fn (Entry.spec (s2k.cmd 1).entry 40 2) = some (256, base.sqs.get 256) ∧
      256 ≠ (s2k.cmd 1).sq ∧
      s2k.sqBusy 256 = false) ∧
    (Served s2m 1 4 (s2m.cmd 1) ∧
      (s2m.sqs.get (s2m.cmd 1).sq).loc = 0 ∧
      0 < Entry.spec (s2m.cmd 1).entry 40 2 ∧
      s2m.findCq (s2m.cmd 1).fn (Entry.spec (s2m.cmd 1).entry 40 2) = some (256, base.cqs.get 256) ∧
      s2m.boundSqs 256 = []) ∧
    (Served s2l 1 4 (s2l.cmd 1) ∧
      (s2l.sqs.get (s2l.cmd 1).sq).loc = 0 ∧
      0 < Entry.spec (s2l.cmd 1).entry 40 2 ∧
      s2l.findCq (s2l.cmd 1).fn (Entry.spec (s2l.cmd 1).entry 40 2) = some (256, base.cqs.get 256) ∧
      s2l.boundSqs 256 ≠ []) := by
  refine ⟨?_, ?_, ?_, ?_, ?_⟩
  · unfold Served; decide +kernel
  · unfold Served; decide +kernel
  · unfold Served; decide +kernel
  · unfold Served; decide +kernel
  · unfold Served; decide +kernel

theorem witness_UrnBufferLife :
    (Served s2n 1 6 (s2n.cmd 1) ∧
      Entry.length (s2n.cmd 1).entry % 4096 = 0 ∧
      0 < Entry.length (s2n.cmd 1).entry ∧
      Entry.length (s2n.cmd 1).entry ≤ 2 ^ 26 ∧
      s2n.fld Fld.urnFnUsePages (s2n.cmd 1).fn + Entry.length (s2n.cmd 1).entry / 4096 ≤ 256 * min 512 (s2n.fld Fld.urnFnQuotaMib (s2n.cmd 1).fn) ∧
      s2n.firstFit (Entry.length (s2n.cmd 1).entry / 4096) = some 14336 ∧
      s2n.freeBuf = some 0) ∧
    (Served s2o 1 6 (s2o.cmd 1) ∧
      (Entry.length (s2o.cmd 1).entry % 4096 ≠ 0 ∨ Entry.length (s2o.cmd 1).entry = 0 ∨ 2 ^ 26 < Entry.length (s2o.cmd 1).entry)) ∧
    (Served s2p 1 7 (s2p.cmd 1) ∧
      s2p.bufOf (s2p.cmd 1).fn (Entry.object (s2p.cmd 1).entry) = Except.ok 5 ∧
      s2p.bufBusy 5 1 = false) ∧
    (Served s2q 1 7 (s2q.cmd 1) ∧
      s2q.bufOf (s2q.cmd 1).fn (Entry.object (s2q.cmd 1).entry) = Except.error Status.alreadyFree) ∧
    (Served s2r 1 7 (s2r.cmd 1) ∧
      s2r.bufOf (s2r.cmd 1).fn (Entry.object (s2r.cmd 1).entry) = Except.error Status.notOwner) ∧
    ((s2s.bufs.get 5).held = true ∧
      (s2s.bufs.get 5).named = false ∧
      s2s.bufBusy 5 0 = false) := by
  refine ⟨?_, ?_, ?_, ?_, ?_, ?_⟩
  · unfold Served; decide +kernel
  · unfold Served; decide +kernel
  · exact ⟨by unfold Served; decide +kernel,
      by exact answers (by decide +kernel),
      by decide +kernel⟩
  · exact ⟨by unfold Served; decide +kernel,
      by exact refuses (by decide +kernel)⟩
  · exact ⟨by unfold Served; decide +kernel,
      by exact refuses (by decide +kernel)⟩
  · decide +kernel

theorem witness_UrnScrubAndWindows :
    (bits 255 8 8 = 0) ∧
    (58720256 < 2 ^ 29 ∧
      bits (255 + 2 ^ 8) 8 8 ≠ 0 ∧
      s2t.fld Fld.urnLayoutBufBase * 2 ^ 20 ≤ 58720256 / 64 * 64 ∧
      41943040 ≤ 58720256 / 64 * 64 ∧
      58720256 / 64 * 64 < s2t.fld Fld.urnLayoutScratchBase * 2 ^ 20 ∧
      58720256 / 64 * 64 < s2t.fld Fld.urnLayoutStageBase * 2 ^ 20 ∧
      List.find? (fun e => e.snd.held && decide (4096 * e.snd.page ≤ 58720256 / 64 * 64) && decide (58720256 / 64 * 64 < 4096 * (e.snd.page + e.snd.pages))) s2t.bufs = some (5, s2t.bufs.get 5)) ∧
    (0 < 64) := by
  refine ⟨?_, ?_, ?_⟩
  · decide +kernel
  · decide +kernel
  · decide +kernel

theorem witness_ClaimGivesALiveExtent :
    (Served s3b 1 16 (s3b.cmd 1) ∧
      claimFields (s3b.cmd 1).entry = none ∧
      (s3b.cmd 1).origin = none ∧
      s3b.isHere (Entry.object (s3b.cmd 1).entry) = true ∧
      (s3b.cmd 1).inPart = false ∧
      s3b.claimAhead (s3b.cmd 1) = false ∧
      s3b.claimReach (s3b.cmd 1).caller (Addr.off (Entry.object (s3b.cmd 1).entry) / 2 ^ 21) (Entry.length (s3b.cmd 1).entry / 2 ^ 21) = false) ∧
    (Served s3c 1 16 (s3c.cmd 1) ∧
      claimFields (s3c.cmd 1).entry = none ∧
      (s3c.cmd 1).origin = none ∧
      s3c.isHere (Entry.object (s3c.cmd 1).entry) = true ∧
      (s3c.cmd 1).inPart = true ∧
      s3c.claimAhead (s3c.cmd 1) = false ∧
      (∃ x, x ∈ s3c.extents ∧ (fun x => decide (x.snd.state ≠ LeaseState.free) && rangesMeet (Addr.off (Entry.object (s3c.cmd 1).entry) / 2 ^ 21) (Entry.length (s3c.cmd 1).entry / 2 ^ 21) x.fst x.snd.len) x = true ∧ (x.snd.state = LeaseState.live ∨ x.snd.state = LeaseState.expired))) ∧
    (Served s3d 1 16 (s3d.cmd 1) ∧
      claimFields (s3d.cmd 1).entry = none ∧
      (s3d.cmd 1).origin = none ∧
      s3d.isHere (Entry.object (s3d.cmd 1).entry) = true ∧
      (s3d.cmd 1).inPart = true ∧
      s3d.claimAhead (s3d.cmd 1) = false ∧
      (∀ (x : Nat × Extent), x ∈ s3d.extents → (fun x => decide (x.snd.state ≠ LeaseState.free) && rangesMeet (Addr.off (Entry.object (s3d.cmd 1).entry) / 2 ^ 21) (Entry.length (s3d.cmd 1).entry / 2 ^ 21) x.fst x.snd.len) x = false) ∧
      (bit (Entry.spec (s3d.cmd 1).entry 46 2) 15 = true → s3d.keyHeld (s3d.cmd 1).caller (Entry.specBits (s3d.cmd 1).entry 46 0 10) = true) ∧
      s3d.leaseRoom (s3d.cmd 1).caller = false) ∧
    (Served s3a 1 16 (s3a.cmd 1) ∧
      claimFields (s3a.cmd 1).entry = none ∧
      (s3a.cmd 1).origin = none ∧
      s3a.isHere (Entry.object (s3a.cmd 1).entry) = true ∧
      (s3a.cmd 1).inPart = true ∧
      s3a.claimAhead (s3a.cmd 1) = false ∧
      (∀ (x : Nat × Extent), x ∈ s3a.extents → (fun x => decide (x.snd.state ≠ LeaseState.free) && rangesMeet (Addr.off (Entry.object (s3a.cmd 1).entry) / 2 ^ 21) (Entry.length (s3a.cmd 1).entry / 2 ^ 21) x.fst x.snd.len) x = false) ∧
      (bit (Entry.spec (s3a.cmd 1).entry 46 2) 15 = true → s3a.keyHeld (s3a.cmd 1).caller (Entry.specBits (s3a.cmd 1).entry 46 0 10) = true) ∧
      s3a.leaseRoom (s3a.cmd 1).caller = true ∧
      0 < s3a.fld Fld.poolTablesExtentFree) := by
  refine ⟨?_, ?_, ?_, ?_⟩
  · unfold Served; decide +kernel
  · unfold Served; decide +kernel
  · unfold Served; decide +kernel
  · unfold Served; decide +kernel

theorem witness_LeasesStandAndEnd :
    (Served s3f 1 17 (s3f.cmd 1) ∧
      Entry.object (s3f.cmd 1).entry % 64 = 0 ∧
      s3f.isHere (Entry.object (s3f.cmd 1).entry) = true ∧
      (s3f.cmd 1).stage ≠ Stage.running ∧
      Addr.off (Entry.object (s3f.cmd 1).entry) % 2 ^ 21 = 0 ∧
      (s3f.extents.get (Addr.off (Entry.object (s3f.cmd 1).entry) / 2 ^ 21)).state = LeaseState.live ∧
      (s3f.extents.get (Addr.off (Entry.object (s3f.cmd 1).entry) / 2 ^ 21)).lapsed s3f.ms = false ∧
      (s3f.extents.get (Addr.off (Entry.object (s3f.cmd 1).entry) / 2 ^ 21)).claimant = (s3f.cmd 1).caller ∧
      s3f.objBusy (ObjRef.extent s3f.dev (Addr.off (Entry.object (s3f.cmd 1).entry) / 2 ^ 21)) 1 = false) ∧
    (Served s3g 1 17 (s3g.cmd 1) ∧
      Entry.object (s3g.cmd 1).entry % 64 = 0 ∧
      s3g.isHere (Entry.object (s3g.cmd 1).entry) = true ∧
      (s3g.cmd 1).stage ≠ Stage.running ∧
      (s3g.extents.get (Addr.off (Entry.object (s3g.cmd 1).entry) / 2 ^ 21)).state = LeaseState.free) ∧
    (Served s3h 1 17 (s3h.cmd 1) ∧
      Entry.object (s3h.cmd 1).entry % 64 = 0 ∧
      s3h.isHere (Entry.object (s3h.cmd 1).entry) = true ∧
      (s3h.cmd 1).stage ≠ Stage.running ∧
      Addr.off (Entry.object (s3h.cmd 1).entry) % 2 ^ 21 = 0 ∧
      (s3h.extents.get (Addr.off (Entry.object (s3h.cmd 1).entry) / 2 ^ 21)).state = LeaseState.live ∧
      (s3h.extents.get (Addr.off (Entry.object (s3h.cmd 1).entry) / 2 ^ 21)).claimant ≠ (s3h.cmd 1).caller ∧
      (s3h.extents.get (Addr.off (Entry.object (s3h.cmd 1).entry) / 2 ^ 21)).wasHeldBy (s3h.cmd 1).caller = false) ∧
    (Served s3i 1 5 (s3i.cmd 1) ∧
      s3i.isHere (Entry.object (s3i.cmd 1).entry) = true ∧
      s3i.leaseObj (Entry.object (s3i.cmd 1).entry) = some (LeaseObj.extent 4) ∧
      (s3i.extents.get 4).state = LeaseState.live ∧
      (s3i.extents.get 4).lapsed ((s3i.cmd 1).since / 1000) = false ∧
      (s3i.extents.get 4).claimant = (s3i.cmd 1).caller ∧
      Entry.spec (s3i.cmd 1).entry 40 4 ≤ 3600) ∧
    (Served s4rn 1 5 (s4rn.cmd 1) ∧
      s4rn.isHere (Entry.object (s4rn.cmd 1).entry) = true ∧
      s4rn.leaseObj (Entry.object (s4rn.cmd 1).entry) = some (LeaseObj.stream 0) ∧
      (s4rn.streams.get 0).state = StreamState.opened ∧
      (s4rn.streams.get 0).lapsed ((s4rn.cmd 1).since / 1000) = false ∧
      (s4rn.streams.get 0).opener = (s4rn.cmd 1).caller ∧
      Entry.spec (s4rn.cmd 1).entry 40 4 ≤ 3600) ∧
    (Served s3j2 1 5 (s3j2.cmd 1) ∧
      s3j2.isHere (Entry.object (s3j2.cmd 1).entry) = true ∧
      (s3j2.leaseObj (Entry.object (s3j2.cmd 1).entry) = some (LeaseObj.extent 4) ∧ (s3j2.extents.get 4).lapsed ((s3j2.cmd 1).since / 1000) = false ∧ (s3j2.extents.get 4).claimant ≠ (s3j2.cmd 1).caller ∨ s3j2.leaseObj (Entry.object (s3j2.cmd 1).entry) = some (LeaseObj.stream 4) ∧ (s3j2.streams.get 4).state ≠ StreamState.closing ∧ (s3j2.streams.get 4).lapsed ((s3j2.cmd 1).since / 1000) = false ∧ (s3j2.streams.get 4).opener ≠ (s3j2.cmd 1).caller ∨ s3j2.leaseObj (Entry.object (s3j2.cmd 1).entry) = none) ∧
      Entry.spec (s3j2.cmd 1).entry 40 4 ≤ 3600) ∧
    (Served s4rq 1 18 (s4rq.cmd 1) ∧
      s4rq.isHere (Entry.object (s4rq.cmd 1).entry) = true ∧
      s4rq.leaseObj (Entry.object (s4rq.cmd 1).entry) = some (LeaseObj.stream 0) ∧
      { dev := Entry.specBits (s4rq.cmd 1).entry 40 0 10, fn := Entry.spec (s4rq.cmd 1).entry 42 1 : Who } ≠ (s4rq.cmd 1).caller ∧
      (s4rq.streams.get 0).state = StreamState.opened ∧
      (s4rq.streams.get 0).lapsed s4rq.ms = false ∧
      (s4rq.streams.get 0).opener = (s4rq.cmd 1).caller ∧
      (Entry.spec (s4rq.cmd 1).entry 43 1 = 1 ∨ Entry.spec (s4rq.cmd 1).entry 43 1 = 2) ∧
      grantOf (s4rq.streams.get 0).grants { dev := Entry.specBits (s4rq.cmd 1).entry 40 0 10, fn := Entry.spec (s4rq.cmd 1).entry 42 1 : Who } = none ∧
      (s4rq.streams.get 0).grants.length < 16) ∧
    (Served s3k 1 18 (s3k.cmd 1) ∧
      s3k.isHere (Entry.object (s3k.cmd 1).entry) = true ∧
      s3k.leaseObj (Entry.object (s3k.cmd 1).entry) = some (LeaseObj.extent 4) ∧
      { dev := Entry.specBits (s3k.cmd 1).entry 40 0 10, fn := Entry.spec (s3k.cmd 1).entry 42 1 : Who } = (s3k.cmd 1).caller) ∧
    (Served s3l 1 18 (s3l.cmd 1) ∧
      s3l.isHere (Entry.object (s3l.cmd 1).entry) = true ∧
      s3l.leaseObj (Entry.object (s3l.cmd 1).entry) = some (LeaseObj.extent 4) ∧
      { dev := Entry.specBits (s3l.cmd 1).entry 40 0 10, fn := Entry.spec (s3l.cmd 1).entry 42 1 : Who } ≠ (s3l.cmd 1).caller ∧
      (s3l.extents.get 4).state = LeaseState.live ∧
      (s3l.extents.get 4).lapsed s3l.ms = false ∧
      (s3l.extents.get 4).claimant = (s3l.cmd 1).caller ∧
      (Entry.spec (s3l.cmd 1).entry 43 1 = 1 ∨ Entry.spec (s3l.cmd 1).entry 43 1 = 2) ∧
      grantOf (s3l.extents.get 4).grants { dev := Entry.specBits (s3l.cmd 1).entry 40 0 10, fn := Entry.spec (s3l.cmd 1).entry 42 1 : Who } = none ∧
      (s3l.extents.get 4).grants.length < 16) ∧
    (Served s3m 1 18 (s3m.cmd 1) ∧
      s3m.isHere (Entry.object (s3m.cmd 1).entry) = true ∧
      s3m.leaseObj (Entry.object (s3m.cmd 1).entry) = some (LeaseObj.extent 4) ∧
      { dev := Entry.specBits (s3m.cmd 1).entry 40 0 10, fn := Entry.spec (s3m.cmd 1).entry 42 1 : Who } ≠ (s3m.cmd 1).caller ∧
      (s3m.extents.get 4).state = LeaseState.live ∧
      (s3m.extents.get 4).lapsed s3m.ms = false ∧
      (s3m.extents.get 4).claimant = (s3m.cmd 1).caller ∧
      Entry.spec (s3m.cmd 1).entry 43 1 = 0 ∧
      (grantOf (s3m.extents.get 4).grants { dev := Entry.specBits (s3m.cmd 1).entry 40 0 10, fn := Entry.spec (s3m.cmd 1).entry 42 1 : Who }).isSome = true) ∧
    (Served s3n 1 18 (s3n.cmd 1) ∧
      s3n.isHere (Entry.object (s3n.cmd 1).entry) = true ∧
      s3n.leaseObj (Entry.object (s3n.cmd 1).entry) = some (LeaseObj.extent 4) ∧
      { dev := Entry.specBits (s3n.cmd 1).entry 40 0 10, fn := Entry.spec (s3n.cmd 1).entry 42 1 : Who } ≠ (s3n.cmd 1).caller ∧
      (s3n.extents.get 4).state = LeaseState.live ∧
      (s3n.extents.get 4).lapsed s3n.ms = false ∧
      (s3n.extents.get 4).claimant = (s3n.cmd 1).caller ∧
      (Entry.spec (s3n.cmd 1).entry 43 1 = 1 ∨ Entry.spec (s3n.cmd 1).entry 43 1 = 2) ∧
      grantOf (s3n.extents.get 4).grants { dev := Entry.specBits (s3n.cmd 1).entry 40 0 10, fn := Entry.spec (s3n.cmd 1).entry 42 1 : Who } = none ∧
      16 ≤ (s3n.extents.get 4).grants.length) ∧
    ((s3p.extents.get 4).state = LeaseState.live ∧
      (s3p.extents.get 4).expiry ≤ s3p.ms ∧
      s3p.renewPending (LeaseObj.extent 4) (s3p.extents.get 4).expiry = false) ∧
    ((s3p.streams.get 4).state = StreamState.opened ∧
      (s3p.streams.get 4).expiry ≤ s3p.ms ∧
      s3p.renewPending (LeaseObj.stream 4) (s3p.streams.get 4).expiry = false) ∧
    ((s3q.extents.get 4).state = LeaseState.expired ∧
      (s3q.extents.get 4).expiry + 2000 ≤ s3q.ms) ∧
    ((s3q.streams.get 4).state = StreamState.expired ∧
      (s3q.streams.get 4).expiry + 2000 ≤ s3q.ms) ∧
    (((s3r.extents.get 4).state = LeaseState.orphaned ∨ (s3r.extents.get 4).state = LeaseState.releasing) ∧
      (s3r.extents.get 4).filling = false ∧
      s3r.objBusy (ObjRef.extent s3r.dev 4) 0 = false) ∧
    ((s3r2.extents.get 4).filling = true ∧
      (s3r2.extents.get 4).state ≠ LeaseState.free ∧
      s3r2.grouped = false ∧
      (s3r2.extents.get 4).claimant.dev = s3r2.dev) ∧
    (Served s3o 1 132 (s3o.cmd 1) ∧
      Entry.qspec (s3o.cmd 1).entry = 0 ∧
      s3o.seam 0 = false ∧
      (s3o.cmd 1).stage ≠ Stage.running ∧
      s3o.remoteHolders (List.filter (fun r => decide (Entry.object (s3o.cmd 1).entry = 0) || decide (r.addr = Entry.object (s3o.cmd 1).entry)) (s3o.lindex.get (Entry.spec (s3o.cmd 1).entry 42 1))) = []) := by
  refine ⟨?_, ?_, ?_, ?_, ?_, ?_, ?_, ?_, ?_, ?_, ?_, ?_, ?_, ?_, ?_, ?_, ?_, ?_⟩
  · unfold Served; decide +kernel
  · unfold Served; decide +kernel
  · unfold Served; decide +kernel
  · unfold Served; decide +kernel
  · unfold Served; decide +kernel
  · unfold Served; decide +kernel
  · unfold Served; decide +kernel
  · unfold Served; decide +kernel
  · unfold Served; decide +kernel
  · unfold Served; decide +kernel
  · unfold Served; decide +kernel
  · decide +kernel
  · decide +kernel
  · decide +kernel
  · decide +kernel
  · decide +kernel
  · decide +kernel
  · unfold Served; decide +kernel

theorem witness_PoolDataCommands :
    (Served s3s 1 19 (s3s.cmd 1) ∧
      rangeRules (s3s.cmd 1).entry = none ∧
      (s3s.cmd 1).refuse = none ∧
      s3s.abandoned (s3s.cmd 1) = false ∧
      (s3s.cmd 1).origin = none ∧
      Addr.sys (Entry.object (s3s.cmd 1).entry) = s3s.sys ∧
      s3s.mine (Addr.dev (Entry.object (s3s.cmd 1).entry)) = true ∧
      (∀ (p : Nat), Addr.off (Entry.object (s3s.cmd 1).entry) / 4096 ≤ p → 4096 * p < Addr.off (Entry.object (s3s.cmd 1).entry) + Entry.length (s3s.cmd 1).entry → (s3s.mapEntry p).mapped = false ∧ (s3s.mapEntry p).poison = false)) ∧
    (rangeRules (s3u.cmd 1).entry = none ∧
      (s3u.cmd 1).refuse = some Status.leaseExpired ∧
      Served s3u 1 19 (s3u.cmd 1)) ∧
    (rangeRules (s3t.cmd 1).entry = none ∧
      (s3t.cmd 1).refuse = some Status.outOfPartition ∧
      Served s3t 1 20 (s3t.cmd 1)) ∧
    (Served s3v 1 20 (s3v.cmd 1) ∧
      rangeRules (s3v.cmd 1).entry = none ∧
      (s3v.cmd 1).refuse = none ∧
      s3v.abandoned (s3v.cmd 1) = false ∧
      (s3v.cmd 1).origin = none ∧
      (s3v.cmd 1).moved = 0 ∧
      Addr.sys (Entry.object (s3v.cmd 1).entry) = s3v.sys ∧
      s3v.mine (Addr.dev (Entry.object (s3v.cmd 1).entry)) = true ∧
      Entry.length (s3v.cmd 1).entry = 4096 ∧
      Addr.off (Entry.object (s3v.cmd 1).entry) % 4096 = 0 ∧
      1 ≤ s3v.pageRoom 1 ∧
      s3v.seam 1 = false ∧
      (∃ t, s3v.storePage s3v.poolSpace (Addr.off (Entry.object (s3v.cmd 1).entry) / 4096) (s3v.hostRead (s3v.cmd 1).fn (Entry.hostBuf (s3v.cmd 1).entry) 4096) = Except.ok t)) := by
  refine ⟨?_, ?_, ?_, ?_⟩
  · exact ⟨by unfold Served; decide +kernel,
      by decide +kernel,
      by decide +kernel,
      by decide +kernel,
      by decide +kernel,
      by decide +kernel,
      by decide +kernel,
      by exact blank (by decide +kernel)⟩
  · unfold Served; decide +kernel
  · unfold Served; decide +kernel
  · exact ⟨by unfold Served; decide +kernel,
      by decide +kernel,
      by decide +kernel,
      by decide +kernel,
      by decide +kernel,
      by decide +kernel,
      by decide +kernel,
      by decide +kernel,
      by decide +kernel,
      by decide +kernel,
      by decide +kernel,
      by decide +kernel,
      by exact goes (by decide +kernel)⟩

theorem witness_PartitionCommands :
    (Served s3w 1 128 (s3w.cmd 1) ∧
      Entry.qspec (s3w.cmd 1).entry = 0 ∧
      s3w.seam 0 = false ∧
      Entry.spec (s3w.cmd 1).entry 40 1 = 0 ∧
      (s3w.cmd 1).table = none ∧
      s3w.isHere (Entry.object (s3w.cmd 1).entry) = true ∧
      Addr.off (Entry.object (s3w.cmd 1).entry) % 2 ^ 30 = 0 ∧
      Entry.length (s3w.cmd 1).entry % 2 ^ 30 = 0 ∧
      0 < Entry.length (s3w.cmd 1).entry ∧
      Addr.off (Entry.object (s3w.cmd 1).entry) / 2 ^ 30 + Entry.length (s3w.cmd 1).entry / 2 ^ 30 ≤ s3w.fld Fld.poolLogicalGib ∧
      (mergeRange { dev := Addr.dev (Entry.object (s3w.cmd 1).entry), start := Addr.off (Entry.object (s3w.cmd 1).entry) / 2 ^ 30, len := Entry.length (s3w.cmd 1).entry / 2 ^ 30 : PRange } (s3w.partitions.get (Entry.spec (s3w.cmd 1).entry 42 1))).length ≤ s3w.fld Fld.poolRangesFree + (s3w.partitions.get (Entry.spec (s3w.cmd 1).entry 42 1)).length ∧
      (∀ (i : Nat), i < Entry.length (s3w.cmd 1).entry / 2 ^ 30 → s3w.owners.get (Addr.off (Entry.object (s3w.cmd 1).entry) / 2 ^ 30 + i) = none ∨ s3w.owners.get (Addr.off (Entry.object (s3w.cmd 1).entry) / 2 ^ 30 + i) = some { dev := s3w.dev, fn := Entry.spec (s3w.cmd 1).entry 42 1 : Who })) ∧
    (Served s3x 1 128 (s3x.cmd 1) ∧
      Entry.qspec (s3x.cmd 1).entry = 0 ∧
      s3x.seam 0 = false ∧
      Entry.spec (s3x.cmd 1).entry 40 1 = 0 ∧
      (s3x.cmd 1).table = none ∧
      s3x.isHere (Entry.object (s3x.cmd 1).entry) = true ∧
      Addr.off (Entry.object (s3x.cmd 1).entry) % 2 ^ 30 = 0 ∧
      Entry.length (s3x.cmd 1).entry % 2 ^ 30 = 0 ∧
      0 < Entry.length (s3x.cmd 1).entry ∧
      Addr.off (Entry.object (s3x.cmd 1).entry) / 2 ^ 30 + Entry.length (s3x.cmd 1).entry / 2 ^ 30 ≤ s3x.fld Fld.poolLogicalGib ∧
      (mergeRange { dev := Addr.dev (Entry.object (s3x.cmd 1).entry), start := Addr.off (Entry.object (s3x.cmd 1).entry) / 2 ^ 30, len := Entry.length (s3x.cmd 1).entry / 2 ^ 30 : PRange } (s3x.partitions.get (Entry.spec (s3x.cmd 1).entry 42 1))).length ≤ s3x.fld Fld.poolRangesFree + (s3x.partitions.get (Entry.spec (s3x.cmd 1).entry 42 1)).length ∧
      (∃ i w, i < Entry.length (s3x.cmd 1).entry / 2 ^ 30 ∧ s3x.owners.get (Addr.off (Entry.object (s3x.cmd 1).entry) / 2 ^ 30 + i) = some w ∧ w ≠ { dev := s3x.dev, fn := Entry.spec (s3x.cmd 1).entry 42 1 : Who })) ∧
    (Served s3y 1 128 (s3y.cmd 1) ∧
      Entry.qspec (s3y.cmd 1).entry = 0 ∧
      s3y.seam 0 = false ∧
      Entry.spec (s3y.cmd 1).entry 40 1 = 1 ∧
      (s3y.cmd 1).table = none ∧
      (s3y.cmd 1).stage ≠ Stage.running ∧
      s3y.isHere (Entry.object (s3y.cmd 1).entry) = true ∧
      Addr.off (Entry.object (s3y.cmd 1).entry) % 2 ^ 30 = 0 ∧
      Entry.length (s3y.cmd 1).entry % 2 ^ 30 = 0 ∧
      0 < Entry.length (s3y.cmd 1).entry ∧
      s3y.holdsGranules (Entry.spec (s3y.cmd 1).entry 42 1) (Addr.dev (Entry.object (s3y.cmd 1).entry)) (Addr.off (Entry.object (s3y.cmd 1).entry) / 2 ^ 30) (Entry.length (s3y.cmd 1).entry / 2 ^ 30) = true ∧
      s3y.rangeInUse (s3y.cmd 1) s3y.holdId (Addr.off (Entry.object (s3y.cmd 1).entry) / 2 ^ 30 * 2 ^ 30) (Entry.length (s3y.cmd 1).entry / 2 ^ 30 * 2 ^ 30) = false ∧
      s3y.extentsMeeting (Addr.off (Entry.object (s3y.cmd 1).entry) / 2 ^ 30) (Entry.length (s3y.cmd 1).entry / 2 ^ 30) = []) ∧
    (Served s3z 1 128 (s3z.cmd 1) ∧
      Entry.qspec (s3z.cmd 1).entry = 0 ∧
      s3z.seam 0 = false ∧
      Entry.spec (s3z.cmd 1).entry 40 1 = 2 ∧
      (s3z.cmd 1).table = none ∧
      (s3z.cmd 1).stage ≠ Stage.running ∧
      s3z.isHere (Entry.object (s3z.cmd 1).entry) = true ∧
      Addr.off (Entry.object (s3z.cmd 1).entry) = 0 ∧
      Entry.length (s3z.cmd 1).entry = 0 ∧
      s3z.partitions.get (Entry.spec (s3z.cmd 1).entry 42 1) = [{ dev := 553, start := 2, len := 2 : PRange }] ∧
      { dev := 553, start := 2, len := 2 : PRange }.dev = Addr.dev (Entry.object (s3z.cmd 1).entry) ∧
      0 < { dev := 553, start := 2, len := 2 : PRange }.len ∧
      s3z.rangeInUse (s3z.cmd 1) s3z.holdId ({ dev := 553, start := 2, len := 2 : PRange }.start * 2 ^ 30) ({ dev := 553, start := 2, len := 2 : PRange }.len * 2 ^ 30) = false ∧
      s3z.extentsMeeting { dev := 553, start := 2, len := 2 : PRange }.start { dev := 553, start := 2, len := 2 : PRange }.len = []) := by
  refine ⟨?_, ?_, ?_, ?_⟩
  · unfold Served; decide +kernel
  · exact ⟨by unfold Served; decide +kernel,
      by decide +kernel,
      by decide +kernel,
      by decide +kernel,
      by decide +kernel,
      by decide +kernel,
      by decide +kernel,
      by decide +kernel,
      by decide +kernel,
      by decide +kernel,
      by decide +kernel,
      by exact otherAt (f := fun i => s3x.owners.get (Addr.off (Entry.object (s3x.cmd 1).entry) / 2 ^ 30 + i)) 1 (by decide +kernel)⟩
  · unfold Served; decide +kernel
  · unfold Served; decide +kernel

theorem witness_MapUpkeep :
    ((∀ (e : Nat × Option Who), e ∈ s3A.owners → e.snd = none) ∧
      1 ≤ 1 ∧
      1 ≤ 262144 ∧
      1 ≤ usableSectors s3A.dramGib 1 (s3A.fld Fld.libStageDramGib)) ∧
    ((∃ e, e ∈ s3B.owners ∧ e.snd ≠ none)) ∧
    (s3C.mapLog = [{ page := 2048, entry := { base := 5, count := 3, codec := 1, mapped := true : PageEntry }, seq := 1 }, { page := 2049, entry := { base := 9, count := 3, codec := 1, mapped := true : PageEntry }, seq := 2 }] ∧
      s3C.grouped = false) ∧
    (List.find? (fun r => decide (r.base = 40)) s3D.oldRuns = some { base := 40, count := 3, seq := 4 : OldRun } ∧
      s3D.runPinned 40 = false ∧
      s3D.alloc.get 40 ≠ 0) ∧
    (s3E.seam 1 = true) := by
  refine ⟨?_, ?_, ?_, ?_, ?_⟩
  · decide +kernel
  · decide +kernel
  · decide +kernel
  · decide +kernel
  · decide +kernel

theorem witness_StreamOpensAndCloses :
    (Served s4a 1 48 (s4a.cmd 1) ∧
      sopenFields (s4a.cmd 1).entry = none ∧
      s4a.isHere (Entry.object (s4a.cmd 1).entry) = true ∧
      (s4a.cmd 1).stage ≠ Stage.running ∧
      s4a.stripeList (s4a.cmd 1) s4a.holdId = ([553], true) ∧
      stripeOk (if Entry.length (s4a.cmd 1).entry = 0 then 2 else Entry.length (s4a.cmd 1).entry) [553] = true ∧
      (∀ (d : Nat), d ∈ [553] → s4a.mine d = true) ∧
      s4a.leaseRoom (s4a.cmd 1).caller = true ∧
      s4a.freeStreamIdx = some 1 ∧
      (∃ x, x ∈ s4a.owners ∧ x.snd = some (s4a.cmd 1).caller) ∧
      (bit (Entry.spec (s4a.cmd 1).entry 50 2) 15 = true → s4a.keyHeld (s4a.cmd 1).caller (Entry.specBits (s4a.cmd 1).entry 50 0 10) = true)) ∧
    (Served s4b 1 52 (s4b.cmd 1) ∧
      s4b.isHere (Entry.object (s4b.cmd 1).entry) = true ∧
      (s4b.cmd 1).refuse = none ∧
      (s4b.streams.get (Addr.stream (Entry.object (s4b.cmd 1).entry))).waiting = [] ∧
      s4b.objBusy (ObjRef.stream s4b.dev (Addr.stream (Entry.object (s4b.cmd 1).entry)) (Addr.gen (Entry.object (s4b.cmd 1).entry))) 1 = false ∧
      (∀ (d : Nat), d ∈ (s4b.streams.get (Addr.stream (Entry.object (s4b.cmd 1).entry))).stripe → s4b.mine d = true)) ∧
    ((sSeq.streams.get 2).state = StreamState.orphaned ∧
      sSeq.objBusy (ObjRef.stream sSeq.dev 2 (sSeq.streams.get 2).gen) 0 = false ∧
      (∀ (d : Nat), d ∈ (sSeq.streams.get 2).stripe → sSeq.mine d = true)) := by
  refine ⟨?_, ?_, ?_⟩
  · unfold Served; decide +kernel
  · unfold Served; decide +kernel
  · decide +kernel

theorem witness_AppendTakesTokensInOrder :
    (Served s4c 1 49 (s4c.cmd 1) ∧
      (s4c.cmd 1).part = none ∧
      s4c.isHere (Entry.object (s4c.cmd 1).entry) = true ∧
      rangeRules (s4c.cmd 1).entry = none ∧
      (s4c.cmd 1).refuse = none ∧
      s4c.abandoned (s4c.cmd 1) = false) ∧
    (Served s4d 1 49 (s4d.cmd 1) ∧
      (s4d.cmd 1).part = none ∧
      s4d.isHere (Entry.object (s4d.cmd 1).entry) = true ∧
      rangeRules (s4d.cmd 1).entry = none ∧
      (s4d.cmd 1).refuse = some Status.notOwner) ∧
    ((s4f.cmd 1).live = true ∧
      Entry.op (s4f.cmd 1).entry = 49 ∧
      (s4f.cmd 1).stage = Stage.running ∧
      (s4f.cmd 1).part = none ∧
      (s4f.streams.get (Addr.stream (Entry.object (s4f.cmd 1).entry))).waiting.head? = some 1 ∧
      (s4f.streams.get (Addr.stream (Entry.object (s4f.cmd 1).entry))).ordered = false ∧
      s4f.abandoned (s4f.cmd 1) = false ∧
      (bit (Entry.spec (s4f.cmd 1).entry 40 1) 0 = true ∧ Addr.token (Entry.object (s4f.cmd 1).entry) ≠ (s4f.streams.get (Addr.stream (Entry.object (s4f.cmd 1).entry))).last)) ∧
    ((s4e.cmd 1).live = true ∧
      Entry.op (s4e.cmd 1).entry = 49 ∧
      (s4e.cmd 1).stage = Stage.running ∧
      (s4e.cmd 1).part = none ∧
      (s4e.streams.get (Addr.stream (Entry.object (s4e.cmd 1).entry))).waiting.head? = some 1 ∧
      (s4e.streams.get (Addr.stream (Entry.object (s4e.cmd 1).entry))).ordered = false ∧
      s4e.abandoned (s4e.cmd 1) = false ∧
      (bit (Entry.spec (s4e.cmd 1).entry 40 1) 0 = false ∨ Addr.token (Entry.object (s4e.cmd 1).entry) = (s4e.streams.get (Addr.stream (Entry.object (s4e.cmd 1).entry))).last)) ∧
    ((s4h.cmd 1).live = true ∧
      Entry.op (s4h.cmd 1).entry = 49 ∧
      (s4h.cmd 1).stage = Stage.running ∧
      (s4h.streams.get (Addr.stream (Entry.object (s4h.cmd 1).entry))).waiting.head? = some 1 ∧
      (s4h.streams.get (Addr.stream (Entry.object (s4h.cmd 1).entry))).ordered = true ∧
      s4h.partsDone 1 = true ∧
      0 < (s4h.streams.get (Addr.stream (Entry.object (s4h.cmd 1).entry))).rsize ∧
      prefixOf (s4h.partsOf 1) = (128, List.replicate 128 3#8, none) ∧
      128 = Entry.length (s4h.cmd 1).entry ∧
      128 % (s4h.streams.get (Addr.stream (Entry.object (s4h.cmd 1).entry))).rsize = 0) := by
  refine ⟨?_, ?_, ?_, ?_, ?_⟩
  · unfold Served; decide +kernel
  · unfold Served; decide +kernel
  · decide +kernel
  · decide +kernel
  · decide +kernel

theorem witness_StreamReadsAndTrims :
    (Served s4i 1 50 (s4i.cmd 1) ∧
      (s4i.cmd 1).part = none ∧
      (s4i.cmd 1).origin = none ∧
      s4i.isHere (Entry.object (s4i.cmd 1).entry) = true ∧
      rangeRules (s4i.cmd 1).entry = none ∧
      (s4i.cmd 1).refuse = none ∧
      s4i.abandoned (s4i.cmd 1) = false ∧
      (s4i.cmd 1).stage = Stage.running ∧
      s4i.partsDone 1 = true ∧
      prefixOf (s4i.partsOf 1) = (Entry.length (s4i.cmd 1).entry, List.replicate 128 3#8, none) ∧
      partRecs (s4i.partsOf 1) = []) ∧
    (Served s4k 1 51 (s4k.cmd 1) ∧
      s4k.isHere (Entry.object (s4k.cmd 1).entry) = true ∧
      (s4k.cmd 1).refuse = some Status.badField) ∧
    (Served s4j 1 51 (s4j.cmd 1) ∧
      s4j.isHere (Entry.object (s4j.cmd 1).entry) = true ∧
      (s4j.cmd 1).refuse = none ∧
      (∀ (d : Nat), d ∈ (s4j.streams.get (Addr.stream (Entry.object (s4j.cmd 1).entry))).stripe → s4j.mine d = true)) ∧
    ((s4l.streams.get 0).state ≠ StreamState.free ∧
      (s4l.streams.get 0).gen = 5 ∧
      4096 * (1 + 1) ≤ (s4l.streams.get 0).first ∧
      s4l.chunkRead s4l.holdId 0 1 = false) := by
  refine ⟨?_, ?_, ?_, ?_⟩
  · unfold Served; decide +kernel
  · unfold Served; decide +kernel
  · unfold Served; decide +kernel
  · decide +kernel

theorem witness_LibraryRead :
    (Claims.LibraryWork s5a 1 32 (s5a.cmd 1) ∧
      Entry.dlMode (s5a.cmd 1).entry ≠ 1 ∧
      s5a.partsOf 1 = [] ∧
      Addr.libOff (Entry.object (s5a.cmd 1).entry) % 65536 + Entry.length (s5a.cmd 1).entry ≤ 65536 ∧
      s5a.mine ((s5a.volumes.get (Addr.vol (Entry.object (s5a.cmd 1).entry))).place (Addr.libOff (Entry.object (s5a.cmd 1).entry) / 65536)).fst = true ∧
      s5a.lateNow (s5a.cmd 1) = false ∧
      (s5a.staged.get (stagedKey (Addr.vol (Entry.object (s5a.cmd 1).entry)) (Addr.libOff (Entry.object (s5a.cmd 1).entry) / 65536) 1)).present = true ∧
      (∀ (i : Nat), i < 1024 → s5a.poisoned (s5a.urnSlot (s5a.staged.get (stagedKey (Addr.vol (Entry.object (s5a.cmd 1).entry)) (Addr.libOff (Entry.object (s5a.cmd 1).entry) / 65536) 1)).slot + 64 * i) = false)) ∧
    (Claims.LibraryWork s5b 1 32 (s5b.cmd 1) ∧
      Entry.dlMode (s5b.cmd 1).entry ≠ 1 ∧
      s5b.partsOf 1 = [] ∧
      Addr.libOff (Entry.object (s5b.cmd 1).entry) % 65536 + Entry.length (s5b.cmd 1).entry ≤ 65536 ∧
      s5b.mine ((s5b.volumes.get (Addr.vol (Entry.object (s5b.cmd 1).entry))).place (Addr.libOff (Entry.object (s5b.cmd 1).entry) / 65536)).fst = true ∧
      s5b.lateNow (s5b.cmd 1) = false ∧
      (s5b.staged.get (stagedKey (Addr.vol (Entry.object (s5b.cmd 1).entry)) (Addr.libOff (Entry.object (s5b.cmd 1).entry) / 65536) 1)).present = false ∧
      (s5b.staged.get (stagedKey (Addr.vol (Entry.object (s5b.cmd 1).entry)) (Addr.libOff (Entry.object (s5b.cmd 1).entry) / 65536) 0)).present = false ∧
      (s5b.unitRecs.get (unitKeyOf (Addr.vol (Entry.object (s5b.cmd 1).entry)) (Addr.libOff (Entry.object (s5b.cmd 1).entry) / 65536))).present = false) := by
  refine ⟨?_, ?_⟩
  · unfold Claims.LibraryWork Served; decide +kernel
  · unfold Claims.LibraryWork Served; decide +kernel

theorem witness_LibraryStagesAndLoads :
    (Claims.LibraryWork s5c 1 33 (s5c.cmd 1) ∧
      s5c.partsOf 1 = [] ∧
      (s5c.cmd 1).sq < 2 ^ 20 ∧
      Addr.libOff (Entry.object (s5c.cmd 1).entry) % 65536 + Entry.length (s5c.cmd 1).entry ≤ 65536 ∧
      Entry.spec (s5c.cmd 1).entry 40 1 ≤ 1 ∧
      s5c.mine ((s5c.volumes.get (Addr.vol (Entry.object (s5c.cmd 1).entry))).place (Addr.libOff (Entry.object (s5c.cmd 1).entry) / 65536)).fst = true ∧
      s5c.lateNow (s5c.cmd 1) = false ∧
      (s5c.staged.get (stagedKey (Addr.vol (Entry.object (s5c.cmd 1).entry)) (Addr.libOff (Entry.object (s5c.cmd 1).entry) / 65536) (Entry.spec (s5c.cmd 1).entry 40 1))).present = true) ∧
    (Claims.LibraryWork s5d 1 33 (s5d.cmd 1) ∧
      s5d.partsOf 1 = [] ∧
      (s5d.cmd 1).sq < 2 ^ 20 ∧
      Addr.libOff (Entry.object (s5d.cmd 1).entry) % 65536 + Entry.length (s5d.cmd 1).entry ≤ 65536 ∧
      Entry.spec (s5d.cmd 1).entry 40 1 ≤ 1 ∧
      s5d.mine ((s5d.volumes.get (Addr.vol (Entry.object (s5d.cmd 1).entry))).place (Addr.libOff (Entry.object (s5d.cmd 1).entry) / 65536)).fst = true ∧
      s5d.lateNow (s5d.cmd 1) = false ∧
      (s5d.staged.get (stagedKey (Addr.vol (Entry.object (s5d.cmd 1).entry)) (Addr.libOff (Entry.object (s5d.cmd 1).entry) / 65536) (Entry.spec (s5d.cmd 1).entry 40 1))).present = false ∧
      s5d.fld (tierFill (Entry.spec (s5d.cmd 1).entry 40 1)) < s5d.tierRoom (Entry.spec (s5d.cmd 1).entry 40 1) ∧
      (s5d.unitRecs.get (unitKeyOf (Addr.vol (Entry.object (s5d.cmd 1).entry)) (Addr.libOff (Entry.object (s5d.cmd 1).entry) / 65536))).present = false) ∧
    (Claims.LibraryWork s5e 1 33 (s5e.cmd 1) ∧
      s5e.partsOf 1 = [] ∧
      (s5e.cmd 1).sq < 2 ^ 20 ∧
      Addr.libOff (Entry.object (s5e.cmd 1).entry) % 65536 + Entry.length (s5e.cmd 1).entry ≤ 65536 ∧
      Entry.spec (s5e.cmd 1).entry 40 1 ≤ 1 ∧
      s5e.mine ((s5e.volumes.get (Addr.vol (Entry.object (s5e.cmd 1).entry))).place (Addr.libOff (Entry.object (s5e.cmd 1).entry) / 65536)).fst = true ∧
      s5e.lateNow (s5e.cmd 1) = false ∧
      (s5e.staged.get (stagedKey (Addr.vol (Entry.object (s5e.cmd 1).entry)) (Addr.libOff (Entry.object (s5e.cmd 1).entry) / 65536) (Entry.spec (s5e.cmd 1).entry 40 1))).present = false ∧
      s5e.tierRoom (Entry.spec (s5e.cmd 1).entry 40 1) ≤ s5e.fld (tierFill (Entry.spec (s5e.cmd 1).entry 40 1)) ∧
      s5e.victim (Entry.spec (s5e.cmd 1).entry 40 1) = none ∧
      Entry.dlMode (s5e.cmd 1).entry ≠ 3) ∧
    (Claims.LibraryWork s5g 1 33 (s5g.cmd 1) ∧
      s5g.partsOf 1 = [] ∧
      (s5g.cmd 1).sq < 2 ^ 20 ∧
      Addr.libOff (Entry.object (s5g.cmd 1).entry) % 65536 + Entry.length (s5g.cmd 1).entry ≤ 65536 ∧
      Entry.spec (s5g.cmd 1).entry 40 1 ≤ 1 ∧
      s5g.mine ((s5g.volumes.get (Addr.vol (Entry.object (s5g.cmd 1).entry))).place (Addr.libOff (Entry.object (s5g.cmd 1).entry) / 65536)).fst = true ∧
      s5g.lateNow (s5g.cmd 1) = false ∧
      (s5g.staged.get (stagedKey (Addr.vol (Entry.object (s5g.cmd 1).entry)) (Addr.libOff (Entry.object (s5g.cmd 1).entry) / 65536) (Entry.spec (s5g.cmd 1).entry 40 1))).present = false ∧
      s5g.tierRoom (Entry.spec (s5g.cmd 1).entry 40 1) ≤ s5g.fld (tierFill (Entry.spec (s5g.cmd 1).entry 40 1)) ∧
      s5g.victim (Entry.spec (s5g.cmd 1).entry 40 1) = none ∧
      Entry.dlMode (s5g.cmd 1).entry = 3) ∧
    ((s5f.cmd 1).live = true ∧
      Entry.op (s5f.cmd 1).entry = 33 ∧
      (s5f.cmd 1).stage ≠ Stage.done ∧
      (s5f.cmd 1).part = none ∧
      (s5f.cmd 1).waitSince = some 3000000 ∧
      3000000 + s5f.fld Fld.libStageWaitUs ≤ s5f.us ∧
      s5f.partsOf 1 = []) ∧
    ((s5h.staged.get (stagedKey 7 3 1)).present = true ∧
      (s5h.staged.get (stagedKey 7 3 1)).since + 1000 * s5h.fld Fld.libStageHoldMs ≤ s5h.us) ∧
    (Claims.LibraryWork s5i 1 34 (s5i.cmd 1) ∧
      Entry.spec (s5i.cmd 1).entry 41 1 ≤ 8 ∧
      (s5i.cmd 1).stage ≠ Stage.running ∧
      (Addr.libOff (Entry.object (s5i.cmd 1).entry) ≠ (s5i.volumes.get (Addr.vol (Entry.object (s5i.cmd 1).entry))).length ∨ (s5i.volumes.get (Addr.vol (Entry.object (s5i.cmd 1).entry))).sealed = true) ∧
      (∀ (e : Nat × Cmd), e ∈ s5i.cmds → ¬(e.snd.live = true ∧ e.snd.order < (s5i.cmd 1).order ∧ Entry.op e.snd.entry = 34 ∧ e.snd.stage ≠ Stage.done ∧ e.snd.objs.contains (ObjRef.volume (Addr.vol (Entry.object (s5i.cmd 1).entry))) = true))) ∧
    (Claims.LibraryWork s5j 1 34 (s5j.cmd 1) ∧
      Entry.spec (s5j.cmd 1).entry 41 1 ≤ 8 ∧
      (s5j.cmd 1).stage = Stage.running ∧
      s5j.partsDone 1 = true ∧
      s5j.asksOf 1 = [] ∧
      (s5j.cmd 1).moved = 0 ∧
      prefixOf (s5j.partsOf 1) = (Entry.length (s5j.cmd 1).entry, [], none) ∧
      s5j.otherDevs (s5j.volumes.get (Addr.vol (Entry.object (s5j.cmd 1).entry))) = []) := by
  refine ⟨?_, ?_, ?_, ?_, ?_, ?_, ?_, ?_⟩
  · unfold Claims.LibraryWork Served; decide +kernel
  · unfold Claims.LibraryWork Served; decide +kernel
  · unfold Claims.LibraryWork Served; decide +kernel
  · unfold Claims.LibraryWork Served; decide +kernel
  · decide +kernel
  · decide +kernel
  · unfold Claims.LibraryWork Served; decide +kernel
  · unfold Claims.LibraryWork Served; decide +kernel

theorem witness_VolumeCommands :
    (Served s5k 1 134 (s5k.cmd 1) ∧
      Entry.qspec (s5k.cmd 1).entry = 0 ∧
      s5k.seam 0 = false ∧
      (s5k.cmd 1).table = none ∧
      volFields (s5k.cmd 1).entry = none ∧
      Entry.spec (s5k.cmd 1).entry 40 1 = 0 ∧
      (s5k.cmd 1).stage ≠ Stage.running ∧
      Entry.length (s5k.cmd 1).entry = 0 ∧
      (s5k.volumes.get (Addr.vol (Entry.object (s5k.cmd 1).entry))).present = false ∧
      shadowOf (s5k.cmd 1).entry = none ∧
      (∀ (ch : Nat), ch < 32 → s5k.flag Fld.libChStateAbsent ch = false) ∧
      s5k.fld Fld.libVolumesCount < 16384) ∧
    (Served s5l 1 134 (s5l.cmd 1) ∧
      Entry.qspec (s5l.cmd 1).entry = 0 ∧
      s5l.seam 0 = false ∧
      (s5l.cmd 1).table = none ∧
      volFields (s5l.cmd 1).entry = none ∧
      (∀ (d : Nat), d ∈ (s5l.volumes.get (Addr.vol (Entry.object (s5l.cmd 1).entry))).stripe → s5l.mine d = true) ∧
      (s5l.volumes.get (Addr.vol (Entry.object (s5l.cmd 1).entry))).present = true ∧
      (s5l.volumes.get (Addr.vol (Entry.object (s5l.cmd 1).entry))).deleting = false ∧
      Entry.spec (s5l.cmd 1).entry 40 1 = 1 ∧
      (s5l.cmd 1).stage ≠ Stage.running ∧
      (∀ (e : Nat × Volume), e ∈ s5l.volumes → e.snd.shadow ≠ some (Addr.vol (Entry.object (s5l.cmd 1).entry)))) ∧
    (Served s5m 1 134 (s5m.cmd 1) ∧
      Entry.qspec (s5m.cmd 1).entry = 0 ∧
      s5m.seam 0 = false ∧
      (s5m.cmd 1).table = none ∧
      volFields (s5m.cmd 1).entry = none ∧
      (∀ (d : Nat), d ∈ (s5m.volumes.get (Addr.vol (Entry.object (s5m.cmd 1).entry))).stripe → s5m.mine d = true) ∧
      (s5m.volumes.get (Addr.vol (Entry.object (s5m.cmd 1).entry))).present = true ∧
      (s5m.volumes.get (Addr.vol (Entry.object (s5m.cmd 1).entry))).deleting = false ∧
      Entry.spec (s5m.cmd 1).entry 40 1 = 2 ∧
      (s5m.cmd 1).stage ≠ Stage.running ∧
      (s5m.volumes.get (Addr.vol (Entry.object (s5m.cmd 1).entry))).readers.length < 64) ∧
    (Served s5n 1 134 (s5n.cmd 1) ∧
      Entry.qspec (s5n.cmd 1).entry = 0 ∧
      s5n.seam 0 = false ∧
      (s5n.cmd 1).table = none ∧
      volFields (s5n.cmd 1).entry = none ∧
      (∀ (d : Nat), d ∈ (s5n.volumes.get (Addr.vol (Entry.object (s5n.cmd 1).entry))).stripe → s5n.mine d = true) ∧
      (s5n.volumes.get (Addr.vol (Entry.object (s5n.cmd 1).entry))).present = true ∧
      (s5n.volumes.get (Addr.vol (Entry.object (s5n.cmd 1).entry))).deleting = false ∧
      Entry.spec (s5n.cmd 1).entry 40 1 = 3 ∧
      (s5n.cmd 1).stage ≠ Stage.running) ∧
    (Served s5o 1 134 (s5o.cmd 1) ∧
      Entry.qspec (s5o.cmd 1).entry = 0 ∧
      s5o.seam 0 = false ∧
      (s5o.cmd 1).table = none ∧
      volFields (s5o.cmd 1).entry = none ∧
      (∀ (d : Nat), d ∈ (s5o.volumes.get (Addr.vol (Entry.object (s5o.cmd 1).entry))).stripe → s5o.mine d = true) ∧
      (s5o.volumes.get (Addr.vol (Entry.object (s5o.cmd 1).entry))).present = true ∧
      (s5o.volumes.get (Addr.vol (Entry.object (s5o.cmd 1).entry))).deleting = false ∧
      Entry.spec (s5o.cmd 1).entry 40 1 = 4 ∧
      (s5o.cmd 1).stage ≠ Stage.running) ∧
    (Served s5p 1 134 (s5p.cmd 1) ∧
      Entry.qspec (s5p.cmd 1).entry = 0 ∧
      s5p.seam 0 = false ∧
      (s5p.cmd 1).table = none ∧
      volFields (s5p.cmd 1).entry = none ∧
      Entry.spec (s5p.cmd 1).entry 40 1 = 1 ∧
      (s5p.cmd 1).stage = Stage.running ∧
      s5p.asksOf 1 = [] ∧
      s5p.objBusy (ObjRef.volume (Addr.vol (Entry.object (s5p.cmd 1).entry))) 1 = false) := by
  refine ⟨?_, ?_, ?_, ?_, ?_, ?_⟩
  · unfold Served; decide +kernel
  · unfold Served; decide +kernel
  · unfold Served; decide +kernel
  · unfold Served; decide +kernel
  · unfold Served; decide +kernel
  · unfold Served; decide +kernel

theorem witness_FlashReadsAndRebuilds :
    (base.flag Fld.twbCtrlGo = false) ∧
    (base.flag Fld.twbCtrlGo = false) ∧
    (base.flag Fld.twbCtrlGo = false ∧
      0 ≤ base.fld Fld.libCtrlRefreshBits) ∧
    (base.flag Fld.twbCtrlGo = false) ∧
    (7 < 8 ∧
      3 < 4) ∧
    (7 < 8 ∧
      3 < 4 ∧
      base.lunFails.get (lunKey 31 7 3) + 1 ≤ base.fld Fld.libCtrlDieFailBlocks) ∧
    (7 < 8 ∧
      3 < 4 ∧
      s5r.fld Fld.libCtrlDieFailBlocks < s5r.lunFails.get (lunKey 31 7 3) + 1) ∧
    (7 < 8 ∧
      3 < 4) ∧
    ((s5s.unitRecs.get (unitKeyOf 7 1)).present = true ∧
      (s5s.unitRecs.get (unitKeyOf 7 1)).frame = 3 ∧
      s5s.frameLost ((s5s.volumes.get 7).place 1).snd 3 = true ∧
      s5s.unitState 7 ((s5s.volumes.get 7).place 1).snd ≠ 0 ∧
      s5s.recoverState 2 (flashStripe ((s5s.volumes.get 7).place 1).snd 3) = Recover.possible ∧
      s5s.unitOfFrame ((s5s.volumes.get 7).place 1).snd 3 = some (7, 1) ∧
      s5s.freeFrame ((s5s.volumes.get 7).place 1).snd s5s.chFrames = some ((s5s.freeFrame 8 64).getD 0) ∧
      0 < s5s.fld Fld.libFlashReserve) ∧
    ((s5t.unitRecs.get (unitKeyOf 7 1)).present = true ∧
      (s5t.unitRecs.get (unitKeyOf 7 1)).frame = 3 ∧
      s5t.frameLost ((s5t.volumes.get 7).place 1).snd 3 = true ∧
      s5t.unitState 7 ((s5t.volumes.get 7).place 1).snd ≠ 0 ∧
      s5t.recoverState 2 (flashStripe ((s5t.volumes.get 7).place 1).snd 3) = Recover.possible ∧
      s5t.unitOfFrame ((s5t.volumes.get 7).place 1).snd 3 = some (7, 1) ∧
      s5t.freeFrame ((s5t.volumes.get 7).place 1).snd s5t.chFrames = some ((s5s.freeFrame 8 64).getD 0) ∧
      s5t.fld Fld.libFlashReserve = 0) := by
  refine ⟨?_, ?_, ?_, ?_, ?_, ?_, ?_, ?_, ?_, ?_⟩
  · decide +kernel
  · decide +kernel
  · decide +kernel
  · decide +kernel
  · decide +kernel
  · decide +kernel
  · decide +kernel
  · decide +kernel
  · decide +kernel
  · decide +kernel

theorem witness_StagingSizes :
    ((∀ (e : Nat × Option Who), e ∈ sLib.owners → e.snd = none) ∧
      16 ≤ 16 ∧
      16 ≤ 4096 ∧
      1 ≤ usableSectors sLib.dramGib (sLib.fld Fld.poolLogicalGib) 16) ∧
    ((15 < 16 ∨ 4096 < 15 ∨ ∃ e, e ∈ sLib.owners ∧ e.snd ≠ none)) ∧
    (base.fld Fld.libStageFillUrn = 0 ∧
      0 ≤ 256 ∧
      base.layoutFits 0 (base.fld Fld.prsScratchMib) = true) ∧
    ((sLib.fld Fld.libStageFillUrn ≠ 0 ∨ 256 < 0)) := by
  refine ⟨?_, ?_, ?_, ?_⟩
  · decide +kernel
  · decide +kernel
  · decide +kernel
  · decide +kernel

/-- The log of s6b is full, so a write finds no room. -/
theorem full_s6b (n : Nat) : s6b.pageRoom n = 0 := by
  have h1 : s6b.seam 1 = false := by decide +kernel
  have h2 : s6b.mapLog.length = 16384 := List.length_replicate ..
  have h3 : s6b.flag Fld.drcInitDone = true := by decide +kernel
  have h4 : s6b.rebuildOn = false := by decide +kernel
  unfold State.pageRoom
  rw [h1, h2, h3, h4]
  simp

theorem witness_PressCommands_1 :
    (Claims.PressWork s6a 1 64 (s6a.cmd 1) fillCheck ∧
      (s6a.cmd 1).moved = 0 ∧
      (∃ t, s6a.writeRange s6a.poolSpace (s6a.pageRoom (pageCount (Addr.off (Entry.object (s6a.cmd 1).entry)) (Entry.length (s6a.cmd 1).entry))) (Addr.off (Entry.object (s6a.cmd 1).entry)) (List.map (fun i => (leBytes (Entry.spec (s6a.cmd 1).entry 56 1) (Entry.spec (s6a.cmd 1).entry 40 (Entry.spec (s6a.cmd 1).entry 56 1))).getD (i % Entry.spec (s6a.cmd 1).entry 56 1) 0#8) (List.range (Entry.length (s6a.cmd 1).entry))) = (t, 4096, none)) ∧
      4096 = Entry.length (s6a.cmd 1).entry) := by
  exact ⟨by unfold Claims.PressWork Claims.Here Served; decide +kernel,
    by decide +kernel,
    by exact pairs (by decide +kernel),
    by decide +kernel⟩

theorem witness_PressCommands_2 :
    (Claims.PressWork s6b 1 64 (s6b.cmd 1) fillCheck ∧
      (s6b.cmd 1).moved = 0 ∧
      (∃ t, s6b.writeRange s6b.poolSpace (s6b.pageRoom (pageCount (Addr.off (Entry.object (s6b.cmd 1).entry)) (Entry.length (s6b.cmd 1).entry))) (Addr.off (Entry.object (s6b.cmd 1).entry)) (List.map (fun i => (leBytes (Entry.spec (s6b.cmd 1).entry 56 1) (Entry.spec (s6b.cmd 1).entry 40 (Entry.spec (s6b.cmd 1).entry 56 1))).getD (i % Entry.spec (s6b.cmd 1).entry 56 1) 0#8) (List.range (Entry.length (s6b.cmd 1).entry))) = (t, 0, none)) ∧
      0 < Entry.length (s6b.cmd 1).entry ∧
      s6b.rebuildOn = false) := by
  exact ⟨by unfold Claims.PressWork Claims.Here Served; decide +kernel,
    by decide +kernel,
    by rw [full_s6b]; exact ⟨_, rfl⟩,
    by decide +kernel,
    by decide +kernel⟩

theorem witness_PressCommands_3 :
    (Claims.PressWork s6c 1 65 (s6c.cmd 1) copyCheck ∧
      (s6c.cmd 1).moved = 0 ∧
      Claims.Here s6c (Entry.spec (s6c.cmd 1).entry 40 8) ∧
      Addr.off (Entry.object (s6c.cmd 1).entry) % 4096 = 0 ∧
      Addr.off (Entry.spec (s6c.cmd 1).entry 40 8) % 4096 = 0 ∧
      Entry.length (s6c.cmd 1).entry % 4096 = 0 ∧
      s6c.pageRoom (Entry.length (s6c.cmd 1).entry / 4096) = 1 ∧
      Entry.length (s6c.cmd 1).entry = 4096 * 1 ∧
      (∃ t, s6c.copyPages (Addr.off (Entry.object (s6c.cmd 1).entry) / 4096) (Addr.off (Entry.spec (s6c.cmd 1).entry 40 8) / 4096) 1 = (t, 1, none))) := by
  exact ⟨by unfold Claims.PressWork Claims.Here Served; decide +kernel,
    by decide +kernel,
    by unfold Claims.Here; decide +kernel,
    by decide +kernel,
    by decide +kernel,
    by decide +kernel,
    by decide +kernel,
    by decide +kernel,
    by exact pairs (by decide +kernel)⟩

theorem witness_PressCommands_4 :
    (Claims.PressWork s6d 1 66 (s6d.cmd 1) cmpCheck ∧
      Claims.Here s6d (Entry.spec (s6d.cmd 1).entry 40 8) ∧
      Claims.Blank s6d (Addr.off (Entry.object (s6d.cmd 1).entry)) (Entry.length (s6d.cmd 1).entry) ∧
      Claims.Blank s6d (Addr.off (Entry.spec (s6d.cmd 1).entry 40 8)) (Entry.length (s6d.cmd 1).entry) ∧
      pressFmt (s6d.cmd 1).entry < 4 ∧
      Entry.spec (s6d.cmd 1).entry 51 1 = 0) := by
  exact ⟨by unfold Claims.PressWork Claims.Here Served; decide +kernel,
    by unfold Claims.Here; decide +kernel,
    by exact blank (by decide +kernel),
    by exact blank (by decide +kernel),
    by decide +kernel,
    by decide +kernel⟩

theorem witness_PressCommands_5 :
    (Claims.PressWork s6e 1 67 (s6e.cmd 1) reduceCheck ∧
      pressFmt (s6e.cmd 1).entry < 3 ∧
      Entry.spec (s6e.cmd 1).entry 51 1 = 0 ∧
      Claims.Blank s6e (Addr.off (Entry.object (s6e.cmd 1).entry)) (Entry.length (s6e.cmd 1).entry)) := by
  exact ⟨by unfold Claims.PressWork Claims.Here Served; decide +kernel,
    by decide +kernel,
    by decide +kernel,
    by exact blank (by decide +kernel)⟩

theorem witness_ScanRuns :
    (Claims.PressWork s6f 1 68 (s6f.cmd 1) scanCheck ∧
      (s6f.cmd 1).stage ≠ Stage.running ∧
      scanList (s6f.cmd 1).entry = false ∧
      scanQurn (s6f.cmd 1).entry = false ∧
      rangeCheck (scanStride (s6f.cmd 1).entry) (Entry.object (s6f.cmd 1).entry, Entry.length (s6f.cmd 1).entry) = none ∧
      s6f.poolChecks (s6f.cmd 1) [(Addr.off (Entry.object (s6f.cmd 1).entry), Entry.length (s6f.cmd 1).entry, false)] = none ∧
      s6f.partsOf 1 = [] ∧
      Entry.object (s6f.cmd 1).entry / 2 ^ 48 / 1024 = s6f.sys) ∧
    (Served s6g 1 68 (s6g.cmd 1) ∧
      (s6g.cmd 1).stage = Stage.running ∧
      (s6g.cmd 1).part = none ∧
      (s6g.cmd 1).origin = none ∧
      s6g.partsOf 1 = [List.headD s6g.parts (0, default)] ∧
      (List.headD s6g.parts (0, default)).snd.done = true ∧
      (List.headD s6g.parts (0, default)).snd.status = Status.ok ∧
      (∀ (f : Nat × Frag), f ∈ s6g.frags → f.snd.tag ≠ 1)) ∧
    ((s6h.frags.get 2).live = true ∧
      (s6h.frags.get 2).slice = none ∧
      fmtFloat (s6h.frags.get 2).fmt = false ∧
      s6h.freeSlice = some 1 ∧
      (∀ (g : Nat × Frag), g ∈ s6h.frags → g.snd.live = true → g.snd.slice = none → fmtFloat g.snd.fmt = false → (s6h.frags.get 2).order ≤ g.snd.order)) ∧
    ((s6i.frags.get 1).live = true ∧
      (s6i.frags.get 1).slice.isSome = true ∧
      fmtFloat (s6i.frags.get 1).fmt = false ∧
      s6i.anyPress = true ∧
      (s6i.frags.get 1).degrade = false ∧
      (s6i.frags.get 1).pass = 0 ∧
      (s6i.frags.get 1).segStart = 0 ∧
      (s6i.frags.get 1).kept = [] ∧
      0 < vectorsIn (s6i.frags.get 1).stride (s6i.frags.get 1).ranges ∧
      vectorsIn (s6i.frags.get 1).stride (s6i.frags.get 1).ranges < (s6i.frags.get 1).k ∧
      vectorsIn (s6i.frags.get 1).stride (s6i.frags.get 1).ranges ≤ s6i.segVectors (s6i.frags.get 1) ∧
      (s6i.cmd (s6i.frags.get 1).tag).live = true ∧
      (s6i.cmd (s6i.frags.get 1).tag).part.isSome = true ∧
      (∀ (e : Nat × PageEntry), e ∈ s6i.pinPages (s6i.frags.get 1) (s6i.segment (s6i.frags.get 1) 0) → e.snd.mapped = false ∧ e.snd.poison = false)) ∧
    (sScan.sliceHeld = false ∧
      sScan.layoutFits (sScan.fld Fld.libStageUrnMib) (max 16 (min 256 (bits (64 + 32 * 2 ^ 16) 0 9))) = true) := by
  refine ⟨?_, ?_, ?_, ?_, ?_⟩
  · unfold Claims.PressWork Claims.Here Served; decide +kernel
  · unfold Served; decide +kernel
  · decide +kernel
  · decide +kernel
  · decide +kernel

theorem witness_UpdatesMoveDomains :
    (Served s7e 1 80 (s7e.cmd 1) ∧
      (s7e.fn (s7e.cmd 1).fn).domain = some 2 ∧
      bits (Entry.object (s7e.cmd 1).entry) 48 16 = 0 ∧
      (s7e.dom 2).state ≠ DomState.off ∧
      (s7e.fld Fld.pourDomSrcDevid 2 ≠ s7e.dev ∨ s7e.fld Fld.pourDomSrcFunc 2 ≠ (s7e.cmd 1).fn)) ∧
    (Served s7b 1 80 (s7b.cmd 1) ∧
      (s7b.fn (s7b.cmd 1).fn).domain = some 2 ∧
      bits (Entry.object (s7b.cmd 1).entry) 48 16 = 0 ∧
      (s7b.dom 2).state ≠ DomState.off ∧
      s7b.fld Fld.pourDomSrcDevid 2 = s7b.dev ∧
      s7b.fld Fld.pourDomSrcFunc 2 = (s7b.cmd 1).fn ∧
      (∀ (b : Nat), (pourUpdate (s7b.cmd 1).entry).brim = some b → (pourUpdate (s7b.cmd 1).entry).tick ≤ b) ∧
      (s7b.dom 2).regress (pourUpdate (s7b.cmd 1).entry) = true) ∧
    (Served s7a 1 80 (s7a.cmd 1) ∧
      (s7a.fn (s7a.cmd 1).fn).domain = some 2 ∧
      bits (Entry.object (s7a.cmd 1).entry) 48 16 = 0 ∧
      (s7a.dom 2).state ≠ DomState.off ∧
      s7a.fld Fld.pourDomSrcDevid 2 = s7a.dev ∧
      s7a.fld Fld.pourDomSrcFunc 2 = (s7a.cmd 1).fn ∧
      (∀ (b : Nat), (pourUpdate (s7a.cmd 1).entry).brim = some b → (pourUpdate (s7a.cmd 1).entry).tick ≤ b) ∧
      (s7a.dom 2).regress (pourUpdate (s7a.cmd 1).entry) = false ∧
      (s7a.dom 2).synced = true) ∧
    (0 < 62 ∧
      2 < 64 ∧
      3 < 65536 ∧
      1 < 65536 ∧
      101 < 65536 ∧
      7 < 2 ^ 32 ∧
      300 < 65536 ∧
      0 < 65536 ∧
      (sPour.dom 2).rgen < 16 ∧
      (sPour.dom 2).state ≠ DomState.off ∧
      (sPour.dom 2).synced = true ∧
      0 = ((sPour.dom 2).seq + 1) % 65536 ∧
      (sPour.dom 2).regress { epoch := 3, layer := 1, tick := 101, rate := if true = true then some 7 else none, brim := if true = true then some 300 else none : Update } = false) ∧
    (0 < 62 ∧
      2 < 64 ∧
      3 < 65536 ∧
      1 < 65536 ∧
      101 < 65536 ∧
      7 < 2 ^ 32 ∧
      300 < 65536 ∧
      65535 < 65536 ∧
      (sPour.dom 2).rgen < 16 ∧
      (sPour.dom 2).state ≠ DomState.off ∧
      (sPour.dom 2).synced = true ∧
      65535 = (sPour.dom 2).seq) ∧
    (0 < 62 ∧
      (sPour.dom 2).state ≠ DomState.off ∧
      (sPour.dom 2).synced = true ∧
      sPour.flag Fld.twbCtrlGo = false) ∧
    ((s7f.dom 2).sync = some SyncFor.nothing) ∧
    ((s7g.dom 2).sync = some SyncFor.reset) := by
  refine ⟨?_, ?_, ?_, ?_, ?_, ?_, ?_, ?_⟩
  · unfold Served; decide +kernel
  · exact ⟨by unfold Served; decide +kernel,
      by decide +kernel,
      by decide +kernel,
      by decide +kernel,
      by decide +kernel,
      by decide +kernel,
      by exact brims (by decide +kernel),
      by decide +kernel⟩
  · exact ⟨by unfold Served; decide +kernel,
      by decide +kernel,
      by decide +kernel,
      by decide +kernel,
      by decide +kernel,
      by decide +kernel,
      by exact brims (by decide +kernel),
      by decide +kernel,
      by decide +kernel⟩
  · decide +kernel
  · decide +kernel
  · decide +kernel
  · decide +kernel
  · decide +kernel

theorem witness_DomainsLive :
    (2 < 64 ∧
      sPour.flag Fld.pourDomCtrlEnable 2 = false) ∧
    (2 < 64 ∧
      s7h.flag Fld.pourDomCtrlEnable 2 = true) ∧
    ((sPour.dom 2).state ≠ DomState.off ∧
      (sPour.dom 2).synced = true) ∧
    ((s7i.dom 2).state = DomState.live ∧
      (s7i.dom 2).frac < 2 ^ 32 ∧
      0 < (s7i.dom 2).rate * 65536 / s7i.cyclesPerMs ∧
      (s7i.dom 2).tick < (s7i.dom 2).brim) ∧
    ((s7j.dom 2).state = DomState.live ∧
      (s7j.dom 2).frac < 2 ^ 32 ∧
      0 < (s7j.dom 2).rate * 65536 / s7j.cyclesPerMs ∧
      (s7j.dom 2).brim ≤ (s7j.dom 2).tick) ∧
    ((sPour.dom 2).state = DomState.live ∧
      (sPour.dom 2).heard + sPour.fld Fld.pourDomSilenceLimit 2 ≤ sPour.us) := by
  refine ⟨?_, ?_, ?_, ?_, ?_, ?_⟩
  · decide +kernel
  · decide +kernel
  · decide +kernel
  · decide +kernel
  · decide +kernel
  · decide +kernel

theorem witness_TriggersFire :
    (Served s7m 1 81 (s7m.cmd 1) ∧
      s7m.refuseTrig (trigOf (s7m.cmd 1).entry (s7m.cmd 1).fn (s7m.fmCmd (s7m.cmd 1))) (bits (Entry.object (s7m.cmd 1).entry) 48 16) = some Status.fmOnly) ∧
    (Served s7l 1 81 (s7l.cmd 1) ∧
      s7l.refuseTrig (trigOf (s7l.cmd 1).entry (s7l.cmd 1).fn (s7l.fmCmd (s7l.cmd 1))) (bits (Entry.object (s7l.cmd 1).entry) 48 16) = none ∧
      0 < 1024 ∧
      (s7l.trigs.get 0).valid = false ∧
      (∀ (j : Nat), j < 0 → (s7l.trigs.get j).valid = true)) ∧
    (Served s7n 1 82 (s7n.cmd 1) ∧
      (s7n.fn (s7n.cmd 1).fn).domain ≠ none ∧
      s7n.fmCmd (s7n.cmd 1) = false ∧
      Entry.spec (s7n.cmd 1).entry 40 2 < 1024 ∧
      (s7n.trigs.get (Entry.spec (s7n.cmd 1).entry 40 2)).valid = true ∧
      (s7n.trigs.get (Entry.spec (s7n.cmd 1).entry 40 2)).fm = false ∧
      (s7n.trigs.get (Entry.spec (s7n.cmd 1).entry 40 2)).owner = (s7n.cmd 1).fn) ∧
    (Served s7o 1 82 (s7o.cmd 1) ∧
      (s7o.fn (s7o.cmd 1).fn).domain ≠ none ∧
      s7o.fmCmd (s7o.cmd 1) = false ∧
      Entry.spec (s7o.cmd 1).entry 40 2 < 1024 ∧
      (s7o.trigs.get (Entry.spec (s7o.cmd 1).entry 40 2)).valid = true ∧
      (s7o.trigs.get (Entry.spec (s7o.cmd 1).entry 40 2)).fm = false ∧
      (s7o.trigs.get (Entry.spec (s7o.cmd 1).entry 40 2)).owner ≠ (s7o.cmd 1).fn) ∧
    (s7p.batch = [] ∧
      s7p.dueNext = [{ entry := 4, epoch := 3, layer := 1, tick := 101 : Due }] ∧
      (s7p.trigs.get { entry := 4, epoch := 3, layer := 1, tick := 101 : Due }.entry).valid = true ∧
      (s7p.trigs.get { entry := 4, epoch := 3, layer := 1, tick := 101 : Due }.entry).fm = false ∧
      (s7p.trigs.get { entry := 4, epoch := 3, layer := 1, tick := 101 : Due }.entry).action = 6 ∧
      (s7p.trigs.get { entry := 4, epoch := 3, layer := 1, tick := 101 : Due }.entry).eachLayer = false ∧
      s7p.admittedNow (s7p.trigs.get { entry := 4, epoch := 3, layer := 1, tick := 101 : Due }.entry).owner = true ∧
      (s7p.fn (s7p.trigs.get { entry := 4, epoch := 3, layer := 1, tick := 101 : Due }.entry).owner).resetState = 0 ∧
      (s7p.fn (s7p.trigs.get { entry := 4, epoch := 3, layer := 1, tick := 101 : Due }.entry).owner).domain = some (s7p.trigs.get { entry := 4, epoch := 3, layer := 1, tick := 101 : Due }.entry).domain ∧
      s7p.flag Fld.twbCtrlGo = false) ∧
    (s7q.batch = [] ∧
      s7q.dueNext = [{ entry := 4, epoch := 3, layer := 1, tick := 101 : Due }] ∧
      (s7q.trigs.get { entry := 4, epoch := 3, layer := 1, tick := 101 : Due }.entry).valid = true ∧
      (s7q.trigs.get { entry := 4, epoch := 3, layer := 1, tick := 101 : Due }.entry).fm = false ∧
      (s7q.trigs.get { entry := 4, epoch := 3, layer := 1, tick := 101 : Due }.entry).action = 6 ∧
      (s7q.trigs.get { entry := 4, epoch := 3, layer := 1, tick := 101 : Due }.entry).eachLayer = false ∧
      s7q.admittedNow (s7q.trigs.get { entry := 4, epoch := 3, layer := 1, tick := 101 : Due }.entry).owner = false) := by
  refine ⟨?_, ?_, ?_, ?_, ?_, ?_⟩
  · unfold Served; decide +kernel
  · unfold Served; decide +kernel
  · unfold Served; decide +kernel
  · unfold Served; decide +kernel
  · decide +kernel
  · decide +kernel

theorem witness_TraceStartsAndEnds :
    (s7r.flag Fld.twbCtrlGo = false ∧
      s7r.fld Fld.twbSizeSize ≠ 0) ∧
    (s7r.flag Fld.twbCtrlGo = false ∧
      s7r.fld Fld.twbSizeSize ≠ 0) ∧
    (s7s.tracing 2 = true) := by
  refine ⟨?_, ?_, ?_⟩
  · decide +kernel
  · decide +kernel
  · decide +kernel

theorem witness_ChannelsStartAndStop :
    (Served s8a 1 96 (s8a.cmd 1) ∧
      Entry.specBits (s8a.cmd 1).entry 40 0 5 < 31 ∧
      (s8a.cmd 1).fn < 256 ∧
      s8a.fmCmd (s8a.cmd 1) = false ∧
      (s8a.chansOf (s8a.cmd 1).fn).length < s8a.dmaQuota (s8a.cmd 1).fn ∧
      s8a.freeOn (Entry.specBits (s8a.cmd 1).entry 40 0 5) = some 8) ∧
    (Served s8b 1 97 (s8b.cmd 1) ∧
      s8b.chanOf (s8b.cmd 1).fn (Entry.object (s8b.cmd 1).entry) (s8b.fmCmd (s8b.cmd 1)) = Except.ok 9 ∧
      s8b.chState 9 = 1) ∧
    (Claims.Start s8c 1 9 0 (s8c.cmd 1) ∧
      s8c.chState 9 = 1) ∧
    (Claims.Start s8d 1 9 1 (s8d.cmd 1) ∧
      s8d.chState 9 = 1) ∧
    (Claims.Start s8e 1 9 2 (s8e.cmd 1) ∧
      s8e.chState 9 = 6) ∧
    (Served s8f 1 99 (s8f.cmd 1) ∧
      (s8f.cmd 1).stage ≠ Stage.running ∧
      s8f.chanOf (s8f.cmd 1).fn (Entry.object (s8f.cmd 1).entry) (s8f.fmCmd (s8f.cmd 1)) = Except.ok 9 ∧
      s8f.chState 9 = 2 ∧
      (s8f.chan 9).tag = none) ∧
    (s8g.unitIn 4 1 = true ∧
      s8g.engHolder 1 = none ∧
      engOf 9 = 1 ∧
      s8g.chState 9 = 3 ∧
      (∀ (n : Nat), n < 8 → s8g.chState (8 * 1 + n) = 3 → 8 * 1 + n = 9) ∧
      (s8g.chan 9).resumed = false) := by
  refine ⟨?_, ?_, ?_, ?_, ?_, ?_, ?_⟩
  · unfold Served; decide +kernel
  · exact ⟨by unfold Served; decide +kernel,
      by exact answers (by decide +kernel),
      by decide +kernel⟩
  · unfold Claims.Start Served
    repeat' apply And.intro
    all_goals first | decide +kernel | exact answers (by decide +kernel) | exact refuses (by decide +kernel)
  · unfold Claims.Start Served
    repeat' apply And.intro
    all_goals first | decide +kernel | exact answers (by decide +kernel) | exact refuses (by decide +kernel)
  · unfold Claims.Start Served
    repeat' apply And.intro
    all_goals first | decide +kernel | exact answers (by decide +kernel) | exact refuses (by decide +kernel)
  · exact ⟨by unfold Served; decide +kernel,
      by decide +kernel,
      by exact answers (by decide +kernel),
      by decide +kernel,
      by decide +kernel⟩
  · decide +kernel

theorem witness_ProgramsRun :
    (s8h.chState 9 = 4 ∧
      s8h.chFld Fld.dmaChStateMode 9 = 0 ∧
      (s8h.chan 9).ended = false ∧
      (s8h.chan 9).retryAt = none ∧
      (s8h.chan 9).word = some (s8h.chFld Fld.dmaChPcPc 9 / 64 * 64, leBytes 64 (16384 + 24576 * 2 ^ 64 + 64 * 2 ^ 128 + (2 + 8) * 2 ^ 160 + here (4 * 2 ^ 21 + 96) * 2 ^ 192)) ∧
      leNat (List.take 32 (List.drop (s8h.chFld Fld.dmaChPcPc 9 % 64) (leBytes 64 (16384 + 24576 * 2 ^ 64 + 64 * 2 ^ 128 + (2 + 8) * 2 ^ 160 + here (4 * 2 ^ 21 + 96) * 2 ^ 192)))) = 16384 + 24576 * 2 ^ 64 + 64 * 2 ^ 128 + (2 + 8) * 2 ^ 160 + here (4 * 2 ^ 21 + 96) * 2 ^ 192 ∧
      insn (16384 + 24576 * 2 ^ 64 + 64 * 2 ^ 128 + (2 + 8) * 2 ^ 160 + here (4 * 2 ^ 21 + 96) * 2 ^ 192) 23 0 8 = 0 ∧
      insn (16384 + 24576 * 2 ^ 64 + 64 * 2 ^ 128 + (2 + 8) * 2 ^ 160 + here (4 * 2 ^ 21 + 96) * 2 ^ 192) 24 0 64 % 32 = 0 ∧
      Claims.HostCopy s8h 9 (descXfer (16384 + 24576 * 2 ^ 64 + 64 * 2 ^ 128 + (2 + 8) * 2 ^ 160 + here (4 * 2 ^ 21 + 96) * 2 ^ 192))) ∧
    (Claims.Insn s8j 9 1 (1 + 8 * 2 ^ 8 + 64 * 2 ^ 96) ∧
      insn (1 + 8 * 2 ^ 8 + 64 * 2 ^ 96) 1 7 1 = 0 ∧
      Claims.HostCopy s8j 9 (s8j.moveXfer 9 (1 + 8 * 2 ^ 8 + 64 * 2 ^ 96))) ∧
    (Claims.Insn s8k 9 1 (1 + 128 * 2 ^ 8 + 3 * 2 ^ 16 + 2 * 2 ^ 24 + 36864 * 2 ^ 64) ∧
      insn (1 + 128 * 2 ^ 8 + 3 * 2 ^ 16 + 2 * 2 ^ 24 + 36864 * 2 ^ 64) 1 7 1 = 1 ∧
      insn (1 + 128 * 2 ^ 8 + 3 * 2 ^ 16 + 2 * 2 ^ 24 + 36864 * 2 ^ 64) 2 0 4 < 8 ∧
      insn (1 + 128 * 2 ^ 8 + 3 * 2 ^ 16 + 2 * 2 ^ 24 + 36864 * 2 ^ 64) 3 0 2 ≠ 0 ∧
      (s8k.chan 9).bases.length = 8 ∧
      (s8k.chan 9).spaces.length = 8) ∧
    (Claims.Insn s8l 9 2 (2 + 1 * 2 ^ 8 + 65535 * 2 ^ 16 + 2 * 2 ^ 32) ∧
      (s8l.chan 9).first + 16 * insn (2 + 1 * 2 ^ 8 + 65535 * 2 ^ 16 + 2 * 2 ^ 32) 4 0 12 ≤ s8l.chFld Fld.dmaChPcPc 9 ∧
      s8l.chFld (loopFld (insn (2 + 1 * 2 ^ 8 + 65535 * 2 ^ 16 + 2 * 2 ^ 32) 1 0 2)) 9 + 1 ≤ insn (2 + 1 * 2 ^ 8 + 65535 * 2 ^ 16 + 2 * 2 ^ 32) 2 0 16) ∧
    (Claims.Insn s8m 9 2 (2 + 0 * 2 ^ 8 + 0 * 2 ^ 16 + 1 * 2 ^ 32) ∧
      (s8m.chan 9).first + 16 * insn (2 + 0 * 2 ^ 8 + 0 * 2 ^ 16 + 1 * 2 ^ 32) 4 0 12 ≤ s8m.chFld Fld.dmaChPcPc 9 ∧
      insn (2 + 0 * 2 ^ 8 + 0 * 2 ^ 16 + 1 * 2 ^ 32) 2 0 16 < s8m.chFld (loopFld (insn (2 + 0 * 2 ^ 8 + 0 * 2 ^ 16 + 1 * 2 ^ 32) 1 0 2)) 9 + 1) ∧
    (Claims.Insn s8n 9 4 (4 + 0 * 2 ^ 8 + 36 * 2 ^ 16 + 65535 * 2 ^ 32) ∧
      insn (4 + 0 * 2 ^ 8 + 36 * 2 ^ 16 + 65535 * 2 ^ 32) 1 0 2 = 0 ∧
      insn (4 + 0 * 2 ^ 8 + 36 * 2 ^ 16 + 65535 * 2 ^ 32) 2 0 10 / 4 = 9) ∧
    (Claims.Insn s8o 9 0 0) ∧
    (s8p.chState 9 = 4 ∧
      (s8p.chan 9).ended = true ∧
      (s8p.chan 9).tag = some 1 ∧
      (s8p.cmd 1).live = true ∧
      (s8p.cmd 1).stage ≠ Stage.done) := by
  refine ⟨?_, ?_, ?_, ?_, ?_, ?_, ?_, ?_⟩
  · unfold Claims.HostCopy
    repeat' apply And.intro
    all_goals first | decide +kernel | exact answers (by decide +kernel) | exact refuses (by decide +kernel)
  · exact ⟨by exact ⟨by decide +kernel, by decide +kernel, by decide +kernel, by decide +kernel, held (by decide +kernel), by decide +kernel, by decide +kernel⟩,
      by decide +kernel,
      by unfold Claims.HostCopy; decide +kernel⟩
  · exact ⟨by exact ⟨by decide +kernel, by decide +kernel, by decide +kernel, by decide +kernel, held (by decide +kernel), by decide +kernel, by decide +kernel⟩,
      by decide +kernel,
      by decide +kernel,
      by decide +kernel,
      by decide +kernel,
      by decide +kernel⟩
  · exact ⟨by exact ⟨by decide +kernel, by decide +kernel, by decide +kernel, by decide +kernel, held (by decide +kernel), by decide +kernel, by decide +kernel⟩,
      by decide +kernel,
      by decide +kernel⟩
  · exact ⟨by exact ⟨by decide +kernel, by decide +kernel, by decide +kernel, by decide +kernel, held (by decide +kernel), by decide +kernel, by decide +kernel⟩,
      by decide +kernel,
      by decide +kernel⟩
  · exact ⟨by exact ⟨by decide +kernel, by decide +kernel, by decide +kernel, by decide +kernel, held (by decide +kernel), by decide +kernel, by decide +kernel⟩,
      by decide +kernel,
      by decide +kernel⟩
  · exact ⟨by decide +kernel, by decide +kernel, by decide +kernel, by decide +kernel, held (by decide +kernel), by decide +kernel, by decide +kernel⟩
  · decide +kernel

theorem witness_WaitsEnd :
    (Claims.Insn s8s 9 3 (3 + 4 * 2 ^ 8 + 41 * 2 ^ 16 + 5 * 2 ^ 32) ∧
      insn (3 + 4 * 2 ^ 8 + 41 * 2 ^ 16 + 5 * 2 ^ 32) 1 0 2 = 0 ∧
      s8s.sameOwner 9 (insn (3 + 4 * 2 ^ 8 + 41 * 2 ^ 16 + 5 * 2 ^ 32) 2 0 10 / 4) = true ∧
      insn (3 + 4 * 2 ^ 8 + 41 * 2 ^ 16 + 5 * 2 ^ 32) 4 0 16 ≤ s8s.signal (insn (3 + 4 * 2 ^ 8 + 41 * 2 ^ 16 + 5 * 2 ^ 32) 2 0 10)) ∧
    (Claims.Insn s8t 9 3 (3 + 0 * 2 ^ 8 + 41 * 2 ^ 16 + 6 * 2 ^ 32) ∧
      insn (3 + 0 * 2 ^ 8 + 41 * 2 ^ 16 + 6 * 2 ^ 32) 1 0 2 = 0 ∧
      s8t.sameOwner 9 (insn (3 + 0 * 2 ^ 8 + 41 * 2 ^ 16 + 6 * 2 ^ 32) 2 0 10 / 4) = true ∧
      s8t.signal (insn (3 + 0 * 2 ^ 8 + 41 * 2 ^ 16 + 6 * 2 ^ 32) 2 0 10) < insn (3 + 0 * 2 ^ 8 + 41 * 2 ^ 16 + 6 * 2 ^ 32) 4 0 16 ∧
      insn (3 + 0 * 2 ^ 8 + 41 * 2 ^ 16 + 6 * 2 ^ 32) 2 0 10 / 4 ≠ 9 ∧
      s8t.chState (insn (3 + 0 * 2 ^ 8 + 41 * 2 ^ 16 + 6 * 2 ^ 32) 2 0 10 / 4) ≠ 3) ∧
    (Claims.Insn s8r 9 3 (3 + 0 * 2 ^ 8 + 37 * 2 ^ 16 + 65535 * 2 ^ 32) ∧
      insn (3 + 0 * 2 ^ 8 + 37 * 2 ^ 16 + 65535 * 2 ^ 32) 1 0 2 = 0 ∧
      s8r.sameOwner 9 (insn (3 + 0 * 2 ^ 8 + 37 * 2 ^ 16 + 65535 * 2 ^ 32) 2 0 10 / 4) = true ∧
      s8r.signal (insn (3 + 0 * 2 ^ 8 + 37 * 2 ^ 16 + 65535 * 2 ^ 32) 2 0 10) < insn (3 + 0 * 2 ^ 8 + 37 * 2 ^ 16 + 65535 * 2 ^ 32) 4 0 16 ∧
      insn (3 + 0 * 2 ^ 8 + 37 * 2 ^ 16 + 65535 * 2 ^ 32) 2 0 10 / 4 = 9 ∧
      (s8r.chan 9).sub = none ∧
      (s8r.chan 9).tag = none) ∧
    (s8u.waitInsn 9 = some (3 + (2 + 0 * 8) * 2 ^ 8 + 0 * 2 ^ 32 + 58720256 * 2 ^ 64) ∧
      insn (3 + (2 + 0 * 8) * 2 ^ 8 + 0 * 2 ^ 32 + 58720256 * 2 ^ 64) 1 0 2 = 2 ∧
      (∃ t, s8u.urnGet 9 (insn (3 + (2 + 0 * 8) * 2 ^ 8 + 0 * 2 ^ 32 + 58720256 * 2 ^ 64) 8 0 30) 4 = (t, Except.ok [0#8, 0#8, 0#8, 0#8])) ∧
      flagHolds (insn (3 + (2 + 0 * 8) * 2 ^ 8 + 0 * 2 ^ 32 + 58720256 * 2 ^ 64) 1 3 2) (leNat [0#8, 0#8, 0#8, 0#8]) (insn (3 + (2 + 0 * 8) * 2 ^ 8 + 0 * 2 ^ 32 + 58720256 * 2 ^ 64) 4 0 32) = true) ∧
    (s8v.waitInsn 9 = some (3 + 1 * 2 ^ 8 + (3 * 2 ^ 32 + 2 ^ 16 + 100) * 2 ^ 64) ∧
      insn (3 + 1 * 2 ^ 8 + (3 * 2 ^ 32 + 2 ^ 16 + 100) * 2 ^ 64) 1 0 2 = 1 ∧
      s8v.chDomain 9 = some 2 ∧
      (s8v.dom 2).state = DomState.live ∧
      insn (3 + 1 * 2 ^ 8 + (3 * 2 ^ 32 + 2 ^ 16 + 100) * 2 ^ 64) 8 0 48 ≤ (s8v.dom 2).pos) ∧
    ((s8x.chan 9).waiting = some ((s8x.chan 9).waiting.getD default) ∧
      s8x.chState 9 = 5 ∧
      s8x.waitOver 9 ((s8x.chan 9).waiting.getD default) = true ∧
      (s8x.chan 9).sub = none ∧
      (s8x.chan 9).tag = some 1 ∧
      (s8x.cmd 1).live = true ∧
      (s8x.cmd 1).stage ≠ Stage.done) ∧
    ((s8y.chan 9).retryAt = some 5000000 ∧
      s8y.chState 9 = 4 ∧
      5000000 ≤ s8y.us) := by
  refine ⟨?_, ?_, ?_, ?_, ?_, ?_, ?_⟩
  · exact ⟨by exact ⟨by decide +kernel, by decide +kernel, by decide +kernel, by decide +kernel, held (by decide +kernel), by decide +kernel, by decide +kernel⟩,
      by decide +kernel,
      by decide +kernel,
      by decide +kernel⟩
  · exact ⟨by exact ⟨by decide +kernel, by decide +kernel, by decide +kernel, by decide +kernel, held (by decide +kernel), by decide +kernel, by decide +kernel⟩,
      by decide +kernel,
      by decide +kernel,
      by decide +kernel,
      by decide +kernel,
      by decide +kernel⟩
  · exact ⟨by exact ⟨by decide +kernel, by decide +kernel, by decide +kernel, by decide +kernel, held (by decide +kernel), by decide +kernel, by decide +kernel⟩,
      by decide +kernel,
      by decide +kernel,
      by decide +kernel,
      by decide +kernel,
      by decide +kernel,
      by decide +kernel⟩
  · exact ⟨by decide +kernel,
      by decide +kernel,
      by exact paired (by decide +kernel),
      by decide +kernel⟩
  · decide +kernel
  · decide +kernel
  · decide +kernel

theorem witness_DramKeepsItself :
    (sDr.dramAwake 3 = true ∧
      sDr.hasRank 3 1 = true ∧
      sDr.flag Fld.drcRefMode 3 = false ∧
      sDr.flag Fld.drcRtStatPanic 3 = false ∧
      sDr.flag Fld.drcRefWindow 3 = false ∧
      sDr.debt 3 1 + 4 < 4 * ↑(max 1 (min 4 (sDr.fld Fld.drcRefSoft 3))) ∧
      -128 ≤ sDr.debt 3 1) ∧
    (s9b.dramAwake 3 = true ∧
      s9b.hasRank 3 9 = true ∧
      s9b.flag Fld.drcRefMode 3 = false ∧
      s9b.flag Fld.drcRtStatPanic 3 = false ∧
      s9b.flag Fld.drcRefWindow 3 = false ∧
      4 * ↑(max 1 (min 4 (s9b.fld Fld.drcRefSoft 3))) ≤ s9b.debt 3 9 + 4 ∧
      s9b.debt 3 9 < 4 * ↑(max 1 (min 4 (s9b.fld Fld.drcRefSoft 3)))) ∧
    (sDr.dramAwake 3 = true ∧
      sDr.hasRank 3 1 = true ∧
      sDr.debt 3 1 ≤ 0 ∧
      0 < sDr.refLimit 3) ∧
    (s9b.dramAwake 3 = true ∧
      s9b.hasRank 3 9 = true ∧
      0 < s9b.debt 3 9 ∧
      s9b.debt 3 9 < 4 * ↑(s9b.refThreshold 3) ∧
      s9b.refLimit 3 = 4) ∧
    (0 < 512) ∧
    (3 < 16) ∧
    (3 < 16) ∧
    (s9k.dramAwake 0 = true ∧
      (s9k.burstAt (0 / 64 * 64)).chan = 0 ∧
      s9k.initialised (0 / 64 * 64) = true ∧
      0 / 64 * 64 < 2 ^ s9k.capBits ∧
      1 ≤ 1 ∧
      1 ≤ 10) ∧
    (s9k.dramAwake 0 = true ∧
      (s9k.burstAt (0 / 64 * 64)).chan = 0 ∧
      s9k.initialised (0 / 64 * 64) = true ∧
      0 / 64 * 64 < 2 ^ s9k.capBits ∧
      11 ≤ 11) ∧
    (3 < 16 ∧
      sDr.unitState 0 3 ≠ 0 ∧
      sDr.unitState 6 0 ≠ 0 ∧
      (sDr.svc.get (unitKey 0 3)).waiting = none) ∧
    (0 < 5 ∧
      sDr.hashOk 0 = true) ∧
    (0 < 5 ∧
      sDr.hashOk 1 = false) ∧
    (0 < s9e.dramGib ∧
      s9e.dramGib < 2 ^ 14 ∧
      s9e.fld Fld.drcInitDoneGib ≤ s9e.dramGib ∧
      s9e.flag Fld.drcInitDone = false) := by
  refine ⟨?_, ?_, ?_, ?_, ?_, ?_, ?_, ?_, ?_, ?_, ?_, ?_, ?_⟩
  · decide +kernel
  · decide +kernel
  · decide +kernel
  · decide +kernel
  · decide +kernel
  · decide +kernel
  · decide +kernel
  · decide +kernel
  · decide +kernel
  · decide +kernel
  · decide +kernel
  · decide +kernel
  · decide +kernel

theorem witness_BlendsAccountForWork :
    (s9f.flag Fld.glbClkLock = false) ∧
    (sBl.flag Fld.glbClkLock = true) ∧
    (s9g.winLen ≤ s9g.winUs) ∧
    (3 < 64 ∧
      sBl.stagedOk = true) ∧
    (0 < 64 ∧
      s9h.fld Fld.bldStageLimit0Mbps < s9h.fld Fld.bldStageGuar0Mbps) ∧
    (63 < 64 ∧
      3 < 4 ∧
      s9i.linkUsable 63 = false ∧
      (s9i.link 63).waiting = [(s9i.link 63).waiting.headD default] ∧
      ((s9i.link 63).waiting.headD default).typ ≠ 3 ∧
      ((s9i.link 63).waiting.headD default).vc = 3 ∧
      ((s9i.link 63).waiting.headD default).tier = 2) := by
  refine ⟨?_, ?_, ?_, ?_, ?_, ?_⟩
  · decide +kernel
  · decide +kernel
  · decide +kernel
  · decide +kernel
  · decide +kernel
  · decide +kernel

theorem witness_AdmissionAndKeys :
    (Claims.Priv s10g 1 129 (s10g.cmd 1) ∧
      (s10g.fn (Entry.spec (s10g.cmd 1).entry 42 1)).resetState ≠ 0 ∧
      Entry.spec (s10g.cmd 1).entry 40 1 = 0) ∧
    (Claims.Priv s10h 1 129 (s10h.cmd 1) ∧
      (s10h.fn (Entry.spec (s10h.cmd 1).entry 42 1)).resetState ≠ 0 ∧
      Entry.spec (s10h.cmd 1).entry 40 1 = 2) ∧
    (Claims.Priv s10a 1 129 (s10a.cmd 1) ∧
      (s10a.fn (Entry.spec (s10a.cmd 1).entry 42 1)).resetState = 0 ∧
      Entry.spec (s10a.cmd 1).entry 40 1 = 0) ∧
    (Claims.Priv s10c 1 129 (s10c.cmd 1) ∧
      (s10c.fn (Entry.spec (s10c.cmd 1).entry 42 1)).resetState = 0 ∧
      Entry.spec (s10c.cmd 1).entry 40 1 = 2) ∧
    (Claims.Priv s10e 1 129 (s10e.cmd 1) ∧
      (s10e.fn (Entry.spec (s10e.cmd 1).entry 42 1)).resetState = 0 ∧
      Entry.spec (s10e.cmd 1).entry 40 1 = 1 ∧
      s10e.admittedNow (Entry.spec (s10e.cmd 1).entry 42 1) = true) ∧
    (Claims.Priv s10i 1 130 (s10i.cmd 1) ∧
      (s10i.cmd 1).origin = none ∧
      (Entry.specBits (s10i.cmd 1).entry 45 0 1 = 1 ∨ (s10i.fn (Entry.spec (s10i.cmd 1).entry 44 1)).resetState = 0) ∧
      Entry.spec (s10i.cmd 1).entry 42 1 = 0 ∧
      Entry.length (s10i.cmd 1).entry = 72 ∧
      (s10i.keys.get (Entry.specBits (s10i.cmd 1).entry 40 0 10)).loaded = false) ∧
    (Claims.Priv s10j 1 130 (s10j.cmd 1) ∧
      (s10j.cmd 1).origin = none ∧
      (Entry.specBits (s10j.cmd 1).entry 45 0 1 = 1 ∨ (s10j.fn (Entry.spec (s10j.cmd 1).entry 44 1)).resetState = 0) ∧
      Entry.spec (s10j.cmd 1).entry 42 1 = 1 ∧
      Entry.length (s10j.cmd 1).entry = 0 ∧
      (s10j.keys.get (Entry.specBits (s10j.cmd 1).entry 40 0 10)).loaded = true ∧
      s10j.keyUsed (Entry.specBits (s10j.cmd 1).entry 40 0 10) = false) ∧
    (Claims.Priv s10k 1 130 (s10k.cmd 1) ∧
      (s10k.cmd 1).origin = none ∧
      (Entry.specBits (s10k.cmd 1).entry 45 0 1 = 1 ∨ (s10k.fn (Entry.spec (s10k.cmd 1).entry 44 1)).resetState = 0) ∧
      Entry.spec (s10k.cmd 1).entry 42 1 = 1 ∧
      Entry.length (s10k.cmd 1).entry = 0 ∧
      (s10k.keys.get (Entry.specBits (s10k.cmd 1).entry 40 0 10)).loaded = true ∧
      s10k.keyUsed (Entry.specBits (s10k.cmd 1).entry 40 0 10) = true) := by
  refine ⟨?_, ?_, ?_, ?_, ?_, ?_, ?_, ?_⟩
  · unfold Claims.Priv Served; decide +kernel
  · unfold Claims.Priv Served; decide +kernel
  · unfold Claims.Priv Served; decide +kernel
  · unfold Claims.Priv Served; decide +kernel
  · unfold Claims.Priv Served; decide +kernel
  · unfold Claims.Priv Served; decide +kernel
  · unfold Claims.Priv Served; decide +kernel
  · unfold Claims.Priv Served; decide +kernel

theorem witness_FunctionsResetAndMove :
    (s10l.hostMay 1 = true ∧
      ((s10l.fn 1).vf ≠ 0 ∧ (s10l.fn (s10l.pfOf 1)).resetState = 0 ∧ s10l.pfOf 1 ≠ 1 ∨ (s10l.fn 1).vf = 0 ∧ s10l.pfOf 1 = 1 ∧ s10l.vfsOf 1 = []) ∧
      s10l.isPriv 1 = false ∧
      (s10l.fn 1).removed = false ∧
      (∀ (e : Nat × Cmd), e ∈ s10l.cmds → e.snd.fn ≠ 1 ∨ e.snd.live = false) ∧
      s10l.chansOf 1 = [] ∧
      (∀ (e : Nat × Buf), e ∈ s10l.bufs → e.snd.owner ≠ 1 ∨ e.snd.named = false)) ∧
    ((s10m.fn 1).resetState ≠ 0 ∧
      (s10m.fn 1).cancels ≠ 0 ∧
      (s10m.fn 1).resetStart + 50000 ≤ s10m.us ∧
      (s10m.fn 1).vf ≠ 0 ∧
      s10m.pfOf 1 ≠ 1 ∧
      (s10m.fn (s10m.pfOf 1)).resetState = 0) ∧
    (base.pfAt 0 = some 0 ∧
      (base.fn 0).present = true ∧
      (base.fn 0).resetState = 0 ∧
      (base.fn 0).vf = 0 ∧
      base.vfsOf 0 = [] ∧
      base.isPriv 0 = false ∧
      (∀ (e : Nat × Cmd), e ∈ base.cmds → e.snd.fn ≠ 0 ∨ e.snd.live = false) ∧
      base.chansOf 0 = [] ∧
      (∀ (e : Nat × Buf), e ∈ base.bufs → e.snd.owner ≠ 0 ∨ e.snd.named = false)) ∧
    (base.pfAt 0 = some 0 ∧
      (base.fn 0).present = true ∧
      (base.fn 0).resetState = 0 ∧
      (base.fn 0).vf = 0 ∧
      base.vfsOf 0 = [] ∧
      base.isPriv 0 = false ∧
      (∀ (e : Nat × Cmd), e ∈ base.cmds → e.snd.fn ≠ 0 ∨ e.snd.live = false) ∧
      base.chansOf 0 = [] ∧
      (∀ (e : Nat × Buf), e ∈ base.bufs → e.snd.owner ≠ 0 ∨ e.snd.named = false)) ∧
    (base.hostMay 0 = true ∧
      base.isPf 0 = true ∧
      (base.fn 0).vfEnable = false ∧
      63 ≤ base.totalVfs (0 / 64)) ∧
    (base.hostMay 0 = true ∧
      base.isPf 0 = true ∧
      (base.fn 0).vfEnable = false ∧
      base.totalVfs (0 / 64) < 64) ∧
    (base.hostMay 0 = true ∧
      base.isPf 0 = true ∧
      (base.fn 0).vfEnable = false) ∧
    (s10n2.hostMay 0 = true ∧
      s10n2.isPf 0 = true ∧
      (s10n2.fn 0).vfEnable = true ∧
      s10n2.vfsOf 0 = []) ∧
    ((0 = 1 ∨ 0 = 2 ∨ 0 = 0 ∧ base.privFn ≠ none) ∧
      553 + 0 * 2 ^ 10 < 2 ^ 64 ∧
      base.privIdle = true) ∧
    ((0 = 1 ∨ 0 = 2 ∨ 0 = 0 ∧ s10o.privFn ≠ none) ∧
      553 + 0 * 2 ^ 10 < 2 ^ 64 ∧
      s10o.privIdle = false) ∧
    (s10p.fmNext = some 0 ∧
      s10p.privIdle = true) := by
  refine ⟨?_, ?_, ?_, ?_, ?_, ?_, ?_, ?_, ?_, ?_, ?_⟩
  · decide +kernel
  · decide +kernel
  · decide +kernel
  · decide +kernel
  · decide +kernel
  · decide +kernel
  · decide +kernel
  · decide +kernel
  · decide +kernel
  · decide +kernel
  · decide +kernel

theorem witness_UnitsStepThroughService :
    (Served s10q 1 133 (s10q.cmd 1) ∧
      Entry.qspec (s10q.cmd 1).entry = 0 ∧
      s10q.seam 3 = false ∧
      (s10q.cmd 1).stage ≠ Stage.running ∧
      (Entry.spec (s10q.cmd 1).entry 40 1 = 1 ∧ Entry.spec (s10q.cmd 1).entry 41 2 < 64 ∨ Entry.spec (s10q.cmd 1).entry 40 1 = 2 ∧ Entry.spec (s10q.cmd 1).entry 41 2 < 128) ∧
      (s10q.svc.get (unitKey (Entry.spec (s10q.cmd 1).entry 40 1) (Entry.spec (s10q.cmd 1).entry 41 2))).waiting = none ∧
      Entry.spec (s10q.cmd 1).entry 43 1 = 0) ∧
    (Served s10r 1 133 (s10r.cmd 1) ∧
      Entry.qspec (s10r.cmd 1).entry = 0 ∧
      s10r.seam 3 = false ∧
      (s10r.cmd 1).stage ≠ Stage.running ∧
      (Entry.spec (s10r.cmd 1).entry 40 1 = 1 ∧ Entry.spec (s10r.cmd 1).entry 41 2 < 64 ∨ Entry.spec (s10r.cmd 1).entry 40 1 = 2 ∧ Entry.spec (s10r.cmd 1).entry 41 2 < 128) ∧
      (s10r.svc.get (unitKey (Entry.spec (s10r.cmd 1).entry 40 1) (Entry.spec (s10r.cmd 1).entry 41 2))).waiting = none ∧
      Entry.spec (s10r.cmd 1).entry 43 1 = 1 ∧
      (s10r.svc.get (unitKey (Entry.spec (s10r.cmd 1).entry 40 1) (Entry.spec (s10r.cmd 1).entry 41 2))).state = 0) ∧
    (Served s10s 1 133 (s10s.cmd 1) ∧
      Entry.qspec (s10s.cmd 1).entry = 0 ∧
      s10s.seam 3 = false ∧
      (s10s.cmd 1).stage ≠ Stage.running ∧
      (Entry.spec (s10s.cmd 1).entry 40 1 = 1 ∧ Entry.spec (s10s.cmd 1).entry 41 2 < 64 ∨ Entry.spec (s10s.cmd 1).entry 40 1 = 2 ∧ Entry.spec (s10s.cmd 1).entry 41 2 < 128) ∧
      (s10s.svc.get (unitKey (Entry.spec (s10s.cmd 1).entry 40 1) (Entry.spec (s10s.cmd 1).entry 41 2))).waiting = none ∧
      Entry.spec (s10s.cmd 1).entry 43 1 = 1 ∧
      (s10s.svc.get (unitKey (Entry.spec (s10s.cmd 1).entry 40 1) (Entry.spec (s10s.cmd 1).entry 41 2))).state ≠ 0) ∧
    (Served s10t 1 133 (s10t.cmd 1) ∧
      Entry.qspec (s10t.cmd 1).entry = 0 ∧
      s10t.seam 3 = false ∧
      (s10t.cmd 1).stage ≠ Stage.running ∧
      (Entry.spec (s10t.cmd 1).entry 40 1 = 1 ∧ Entry.spec (s10t.cmd 1).entry 41 2 < 64 ∨ Entry.spec (s10t.cmd 1).entry 40 1 = 2 ∧ Entry.spec (s10t.cmd 1).entry 41 2 < 128) ∧
      (s10t.svc.get (unitKey (Entry.spec (s10t.cmd 1).entry 40 1) (Entry.spec (s10t.cmd 1).entry 41 2))).waiting = none ∧
      Entry.spec (s10t.cmd 1).entry 43 1 = 2 ∧
      (s10t.svc.get (unitKey (Entry.spec (s10t.cmd 1).entry 40 1) (Entry.spec (s10t.cmd 1).entry 41 2))).state = 1) ∧
    (Served s10w 1 133 (s10w.cmd 1) ∧
      Entry.qspec (s10w.cmd 1).entry = 0 ∧
      s10w.seam 3 = false ∧
      (s10w.cmd 1).stage ≠ Stage.running ∧
      (Entry.spec (s10w.cmd 1).entry 40 1 = 1 ∧ Entry.spec (s10w.cmd 1).entry 41 2 < 64 ∨ Entry.spec (s10w.cmd 1).entry 40 1 = 2 ∧ Entry.spec (s10w.cmd 1).entry 41 2 < 128) ∧
      (s10w.svc.get (unitKey (Entry.spec (s10w.cmd 1).entry 40 1) (Entry.spec (s10w.cmd 1).entry 41 2))).waiting = none ∧
      Entry.spec (s10w.cmd 1).entry 43 1 = 3 ∧
      (s10w.svc.get (unitKey (Entry.spec (s10w.cmd 1).entry 40 1) (Entry.spec (s10w.cmd 1).entry 41 2))).state = 2) ∧
    ((2 = 1 ∨ 2 = 2) ∧
      (s10v.svc.get (unitKey 2 127)).state = 1 ∧
      0 < 2 ^ 16 ∧
      (s10v.svc.get (unitKey 2 127)).waiting = none) ∧
    ((2 = 1 ∨ 2 = 2) ∧
      (s10x.svc.get (unitKey 2 127)).state = 1 ∧
      7 < 2 ^ 16 ∧
      (s10x.svc.get (unitKey 2 127)).waiting = some 1 ∧
      (s10x.cmd 1).live = true ∧
      7 ≠ 0) := by
  refine ⟨?_, ?_, ?_, ?_, ?_, ?_, ?_⟩
  · unfold Served; decide +kernel
  · unfold Served; decide +kernel
  · unfold Served; decide +kernel
  · unfold Served; decide +kernel
  · unfold Served; decide +kernel
  · decide +kernel
  · decide +kernel

theorem witness_LinksCarryFlits :
    (0 < 64 ∧
      sLk.tstate 0 = 5 ∧
      (List.replicate 240 65#8).length = 240 ∧
      flitHeadOk { seq := 4, ack := 5, nak := false, typ := 1, vc := 0, cvc := 0, ccount := 3 : FlitHead }.word = true ∧
      { seq := 4, ack := 5, nak := false, typ := 1, vc := 0, cvc := 0, ccount := 3 : FlitHead }.seq = (sLk.link 0).expected ∧
      (sLk.link 0).expected < 4096) ∧
    (sLk.tstate 0 = 5 ∧
      leNat (List.drop 248 (List.replicate 256 0#8)) ≠ crc64 (List.take 248 (List.replicate 256 0#8))) ∧
    (sLkR.tstate 0 = 5 ∧
      (sLkR.link 0).replay ≠ [] ∧
      max 5 (min 640 (sLkR.fld Fld.wlkCtrlReplay100ns)) ≤ (sLkR.us - (sLkR.link 0).timer) * 10 ∧
      (sLkR.link 0).fails + 1 ≤ max 1 (sLkR.fld Fld.wlkCtrlRetryLimit)) ∧
    (sLkR9.tstate 0 = 5 ∧
      (sLkR9.link 0).replay ≠ [] ∧
      max 5 (min 640 (sLkR9.fld Fld.wlkCtrlReplay100ns)) ≤ (sLkR9.us - (sLkR9.link 0).timer) * 10 ∧
      max 1 (sLkR9.fld Fld.wlkCtrlRetryLimit) < (sLkR9.link 0).fails + 1) ∧
    (0 < 64 ∧
      { dev := 553, sys := 1, kind := 63, len := 1 : MsgHead }.bytes ++ List.replicate 16 1#8 ≠ [] ∧
      (sLkT.link 0).rx3 = { dev := 553, sys := 1, kind := 63, len := 1 : MsgHead }.bytes ++ List.replicate 16 1#8 ++ [1#8, 2#8, 3#8, 4#8, 5#8] ∧
      [1#8, 2#8, 3#8, 4#8, 5#8].getD 4 0 ≠ 0) ∧
    (64 ≤ 64 ∧
      leNat (List.take 2 (slot16 (nameBytes 544 1 ++ leBytes 1 8 ++ leBytes 1 0 ++ leBytes 2 4095))) = ((sLk.link (leNat (List.take 1 (List.drop 3 (slot16 (nameBytes 544 1 ++ leBytes 1 8 ++ leBytes 1 0 ++ leBytes 2 4095)))) % 64)).partner.getD (sLk.partnerOf (leNat (List.take 1 (List.drop 3 (slot16 (nameBytes 544 1 ++ leBytes 1 8 ++ leBytes 1 0 ++ leBytes 2 4095)))) % 64))).fst + ((sLk.link (leNat (List.take 1 (List.drop 3 (slot16 (nameBytes 544 1 ++ leBytes 1 8 ++ leBytes 1 0 ++ leBytes 2 4095)))) % 64)).partner.getD (sLk.partnerOf (leNat (List.take 1 (List.drop 3 (slot16 (nameBytes 544 1 ++ leBytes 1 8 ++ leBytes 1 0 ++ leBytes 2 4095)))) % 64))).snd.fst * 1024 ∧
      leNat (List.take 1 (List.drop 2 (slot16 (nameBytes 544 1 ++ leBytes 1 8 ++ leBytes 1 0 ++ leBytes 2 4095)))) = ((sLk.link (leNat (List.take 1 (List.drop 3 (slot16 (nameBytes 544 1 ++ leBytes 1 8 ++ leBytes 1 0 ++ leBytes 2 4095)))) % 64)).partner.getD (sLk.partnerOf (leNat (List.take 1 (List.drop 3 (slot16 (nameBytes 544 1 ++ leBytes 1 8 ++ leBytes 1 0 ++ leBytes 2 4095)))) % 64))).snd.snd ∧
      (sLk.link (leNat (List.take 1 (List.drop 3 (slot16 (nameBytes 544 1 ++ leBytes 1 8 ++ leBytes 1 0 ++ leBytes 2 4095)))) % 64)).lostWait = none) ∧
    (64 ≤ 64 ∧
      leNat (List.take 2 (slot16 (nameBytes 544 1 ++ leBytes 1 8 ++ leBytes 1 0 ++ leBytes 2 4095))) = ((sLkL.link (leNat (List.take 1 (List.drop 3 (slot16 (nameBytes 544 1 ++ leBytes 1 8 ++ leBytes 1 0 ++ leBytes 2 4095)))) % 64)).partner.getD (sLkL.partnerOf (leNat (List.take 1 (List.drop 3 (slot16 (nameBytes 544 1 ++ leBytes 1 8 ++ leBytes 1 0 ++ leBytes 2 4095)))) % 64))).fst + ((sLkL.link (leNat (List.take 1 (List.drop 3 (slot16 (nameBytes 544 1 ++ leBytes 1 8 ++ leBytes 1 0 ++ leBytes 2 4095)))) % 64)).partner.getD (sLkL.partnerOf (leNat (List.take 1 (List.drop 3 (slot16 (nameBytes 544 1 ++ leBytes 1 8 ++ leBytes 1 0 ++ leBytes 2 4095)))) % 64))).snd.fst * 1024 ∧
      leNat (List.take 1 (List.drop 2 (slot16 (nameBytes 544 1 ++ leBytes 1 8 ++ leBytes 1 0 ++ leBytes 2 4095)))) = ((sLkL.link (leNat (List.take 1 (List.drop 3 (slot16 (nameBytes 544 1 ++ leBytes 1 8 ++ leBytes 1 0 ++ leBytes 2 4095)))) % 64)).partner.getD (sLkL.partnerOf (leNat (List.take 1 (List.drop 3 (slot16 (nameBytes 544 1 ++ leBytes 1 8 ++ leBytes 1 0 ++ leBytes 2 4095)))) % 64))).snd.snd ∧
      (sLkL.link (leNat (List.take 1 (List.drop 3 (slot16 (nameBytes 544 1 ++ leBytes 1 8 ++ leBytes 1 0 ++ leBytes 2 4095)))) % 64)).lostWait ≠ none ∧
      (sLkL.link (leNat (List.take 1 (List.drop 3 (slot16 (nameBytes 544 1 ++ leBytes 1 8 ++ leBytes 1 0 ++ leBytes 2 4095)))) % 64)).lost = [] ∧
      (sLkL.link (leNat (List.take 1 (List.drop 3 (slot16 (nameBytes 544 1 ++ leBytes 1 8 ++ leBytes 1 0 ++ leBytes 2 4095)))) % 64)).held = []) ∧
    ((sLkL.link 0).lostWait = some 4000000 ∧
      4000000 + 1000 ≤ sLkL.us ∧
      (sLkL.link 0).held = []) := by
  refine ⟨?_, ?_, ?_, ?_, ?_, ?_, ?_, ?_⟩
  · decide +kernel
  · decide +kernel
  · decide +kernel
  · decide +kernel
  · decide +kernel
  · decide +kernel
  · decide +kernel
  · decide +kernel

theorem witness_LinksTrain :
    ((sLk.tstate 0 = 5 ∨ sLk.tstate 0 = 6)) ∧
    ((sLk.tstate 0 = 5 ∨ sLk.tstate 0 = 6)) ∧
    ((sLk.tstate 0 = 5 ∨ sLk.tstate 0 = 6)) ∧
    (sT7.tstate 0 = 7 ∧
      sT7.us ≤ (sT7.link 0).since + 20) ∧
    (sT7b.tstate 0 = 7 ∧
      (sT7b.link 0).since + 20 < sT7b.us ∧
      sT7b.unitState 3 0 ≠ 0) ∧
    (sLk.tstate 0 ≠ 0 ∧
      sLk.unitState 3 0 ≠ 0) ∧
    (sLk.tstate 0 ≠ 0 ∧
      sLk.unitState 3 0 ≠ 0) ∧
    (sLk.tstate 0 ≠ 0 ∧
      sLk.unitState 3 0 ≠ 0 ∧
      sLk.tstate 0 = 5) ∧
    (sT5e.tstate 0 ≠ 0 ∧
      sT5e.unitState 3 0 ≠ 0 ∧
      sT5e.tstate 0 = 5 ∧
      (sT5e.link 0).degraded = some 1000000 ∧
      0 < sT5e.fld Fld.wlkCtrlReupS ∧
      1000000 + sT5e.fld Fld.wlkCtrlReupS * 1000000 ≤ sT5e.us) ∧
    (sT8.tstate 0 = 8) ∧
    (sT2.tstate 0 = 2 ∧
      sT2.us ≤ (sT2.link 0).since + 5000) ∧
    (sT2b.tstate 0 = 2 ∧
      (sT2b.link 0).since + 5000 < sT2b.us ∧
      sT2b.unitState 3 0 ≠ 0) ∧
    (sT1.tstate 0 = 1 ∧
      (sT1.link 0).since + 1000 ≤ sT1.us) ∧
    (sT1.tstate 0 = 1 ∧
      1 % 4 ≠ 0) ∧
    (sT4b.tstate 0 = 4 ∧
      (sT4b.link 0).since + 5000 ≤ sT4b.us ∧
      sT4b.unitState 3 0 ≠ 0) ∧
    (sT4.tstate 0 = 4 ∧
      (flitBytes { seq := 0, ack := 0, nak := false, typ := 4, vc := 0, cvc := 0, ccount := 0 : FlitHead } (leBytes 2 1 ++ nameBytes 545 1 ++ leBytes 1 8 ++ leBytes 1 3 ++ leBytes 1 1 ++ leBytes 1 0 ++ leBytes 2 8 ++ leBytes 2 8 ++ leBytes 2 32 ++ leBytes 2 8 ++ leBytes 2 4 ++ leBytes 2 6 ++ leBytes 2 19289 ++ leBytes 1 1)).length = 256 ∧
      leNat (List.drop 248 (flitBytes { seq := 0, ack := 0, nak := false, typ := 4, vc := 0, cvc := 0, ccount := 0 : FlitHead } (leBytes 2 1 ++ nameBytes 545 1 ++ leBytes 1 8 ++ leBytes 1 3 ++ leBytes 1 1 ++ leBytes 1 0 ++ leBytes 2 8 ++ leBytes 2 8 ++ leBytes 2 32 ++ leBytes 2 8 ++ leBytes 2 4 ++ leBytes 2 6 ++ leBytes 2 19289 ++ leBytes 1 1))) = crc64 (List.take 248 (flitBytes { seq := 0, ack := 0, nak := false, typ := 4, vc := 0, cvc := 0, ccount := 0 : FlitHead } (leBytes 2 1 ++ nameBytes 545 1 ++ leBytes 1 8 ++ leBytes 1 3 ++ leBytes 1 1 ++ leBytes 1 0 ++ leBytes 2 8 ++ leBytes 2 8 ++ leBytes 2 32 ++ leBytes 2 8 ++ leBytes 2 4 ++ leBytes 2 6 ++ leBytes 2 19289 ++ leBytes 1 1))) ∧
      (FlitHead.of (leNat (List.take 8 (flitBytes { seq := 0, ack := 0, nak := false, typ := 4, vc := 0, cvc := 0, ccount := 0 : FlitHead } (leBytes 2 1 ++ nameBytes 545 1 ++ leBytes 1 8 ++ leBytes 1 3 ++ leBytes 1 1 ++ leBytes 1 0 ++ leBytes 2 8 ++ leBytes 2 8 ++ leBytes 2 32 ++ leBytes 2 8 ++ leBytes 2 4 ++ leBytes 2 6 ++ leBytes 2 19289 ++ leBytes 1 1))))).typ = 4 ∧
      sT4.trainOk 0 (Train.of (List.drop 8 (flitBytes { seq := 0, ack := 0, nak := false, typ := 4, vc := 0, cvc := 0, ccount := 0 : FlitHead } (leBytes 2 1 ++ nameBytes 545 1 ++ leBytes 1 8 ++ leBytes 1 3 ++ leBytes 1 1 ++ leBytes 1 0 ++ leBytes 2 8 ++ leBytes 2 8 ++ leBytes 2 32 ++ leBytes 2 8 ++ leBytes 2 4 ++ leBytes 2 6 ++ leBytes 2 19289 ++ leBytes 1 1)))) = false) ∧
    (sT4.tstate 0 = 4 ∧
      (flitBytes { seq := 0, ack := 0, nak := false, typ := 4, vc := 0, cvc := 0, ccount := 0 : FlitHead } (leBytes 2 1 ++ nameBytes 544 1 ++ leBytes 1 8 ++ leBytes 1 3 ++ leBytes 1 1 ++ leBytes 1 0 ++ leBytes 2 8 ++ leBytes 2 8 ++ leBytes 2 32 ++ leBytes 2 8 ++ leBytes 2 4 ++ leBytes 2 6 ++ leBytes 2 19289 ++ leBytes 1 1)).length = 256 ∧
      leNat (List.drop 248 (flitBytes { seq := 0, ack := 0, nak := false, typ := 4, vc := 0, cvc := 0, ccount := 0 : FlitHead } (leBytes 2 1 ++ nameBytes 544 1 ++ leBytes 1 8 ++ leBytes 1 3 ++ leBytes 1 1 ++ leBytes 1 0 ++ leBytes 2 8 ++ leBytes 2 8 ++ leBytes 2 32 ++ leBytes 2 8 ++ leBytes 2 4 ++ leBytes 2 6 ++ leBytes 2 19289 ++ leBytes 1 1))) = crc64 (List.take 248 (flitBytes { seq := 0, ack := 0, nak := false, typ := 4, vc := 0, cvc := 0, ccount := 0 : FlitHead } (leBytes 2 1 ++ nameBytes 544 1 ++ leBytes 1 8 ++ leBytes 1 3 ++ leBytes 1 1 ++ leBytes 1 0 ++ leBytes 2 8 ++ leBytes 2 8 ++ leBytes 2 32 ++ leBytes 2 8 ++ leBytes 2 4 ++ leBytes 2 6 ++ leBytes 2 19289 ++ leBytes 1 1))) ∧
      (FlitHead.of (leNat (List.take 8 (flitBytes { seq := 0, ack := 0, nak := false, typ := 4, vc := 0, cvc := 0, ccount := 0 : FlitHead } (leBytes 2 1 ++ nameBytes 544 1 ++ leBytes 1 8 ++ leBytes 1 3 ++ leBytes 1 1 ++ leBytes 1 0 ++ leBytes 2 8 ++ leBytes 2 8 ++ leBytes 2 32 ++ leBytes 2 8 ++ leBytes 2 4 ++ leBytes 2 6 ++ leBytes 2 19289 ++ leBytes 1 1))))).typ = 4 ∧
      sT4.trainOk 0 (Train.of (List.drop 8 (flitBytes { seq := 0, ack := 0, nak := false, typ := 4, vc := 0, cvc := 0, ccount := 0 : FlitHead } (leBytes 2 1 ++ nameBytes 544 1 ++ leBytes 1 8 ++ leBytes 1 3 ++ leBytes 1 1 ++ leBytes 1 0 ++ leBytes 2 8 ++ leBytes 2 8 ++ leBytes 2 32 ++ leBytes 2 8 ++ leBytes 2 4 ++ leBytes 2 6 ++ leBytes 2 19289 ++ leBytes 1 1)))) = true ∧
      (Train.of (List.drop 8 (flitBytes { seq := 0, ack := 0, nak := false, typ := 4, vc := 0, cvc := 0, ccount := 0 : FlitHead } (leBytes 2 1 ++ nameBytes 544 1 ++ leBytes 1 8 ++ leBytes 1 3 ++ leBytes 1 1 ++ leBytes 1 0 ++ leBytes 2 8 ++ leBytes 2 8 ++ leBytes 2 32 ++ leBytes 2 8 ++ leBytes 2 4 ++ leBytes 2 6 ++ leBytes 2 19289 ++ leBytes 1 1)))).pack = true) ∧
    (sLk.tstate 0 = 5 ∧
      sLk.fld Fld.wlkStateLanes = 3) ∧
    (sL1.tstate 0 = 5 ∧
      sL1.fld Fld.wlkStateLanes = 2 ^ (0 % 2) ∧
      sL1.unitState 3 0 ≠ 0) ∧
    (divisionOk [bits (8 + 8 * 2 ^ 16 + 32 * 2 ^ 32 + 8 * 2 ^ 48) 0 10, bits (8 + 8 * 2 ^ 16 + 32 * 2 ^ 32 + 8 * 2 ^ 48) 16 10, bits (8 + 8 * 2 ^ 16 + 32 * 2 ^ 32 + 8 * 2 ^ 48) 32 10, bits (8 + 8 * 2 ^ 16 + 32 * 2 ^ 32 + 8 * 2 ^ 48) 48 10] = true) ∧
    (divisionOk [bits (7 + 8 * 2 ^ 16 + 32 * 2 ^ 32 + 8 * 2 ^ 48) 0 10, bits (7 + 8 * 2 ^ 16 + 32 * 2 ^ 32 + 8 * 2 ^ 48) 16 10, bits (7 + 8 * 2 ^ 16 + 32 * 2 ^ 32 + 8 * 2 ^ 48) 32 10, bits (7 + 8 * 2 ^ 16 + 32 * 2 ^ 32 + 8 * 2 ^ 48) 48 10] = false) := by
  refine ⟨?_, ?_, ?_, ?_, ?_, ?_, ?_, ?_, ?_, ?_, ?_, ?_, ?_, ?_, ?_, ?_, ?_, ?_, ?_, ?_, ?_⟩
  · decide +kernel
  · decide +kernel
  · decide +kernel
  · decide +kernel
  · decide +kernel
  · decide +kernel
  · decide +kernel
  · decide +kernel
  · decide +kernel
  · decide +kernel
  · decide +kernel
  · decide +kernel
  · decide +kernel
  · decide +kernel
  · decide +kernel
  · decide +kernel
  · decide +kernel
  · decide +kernel
  · decide +kernel
  · decide +kernel
  · decide +kernel

theorem witness_MessagesBringCommands :
    (sPool.msgHere 1 ({ dev := 553, sys := 1, orgDev := 544, orgSys := 1, kind := 1, tier := 1, len := 5, tag := 5 : MsgHead }.bytes ++ (leBytes 64 (ent 19 (here (4 * 2 ^ 21)) 0 4096 0 + 0) ++ zeroBytes 16)) = true) ∧
    (sPool.msgHere 2 ({ dev := 553, sys := 1, orgDev := 544, orgSys := 1, kind := 2, tier := 1, len := 7, tag := 5 : MsgHead }.bytes ++ (leBytes 64 (ent 19 (here (4 * 2 ^ 21)) 0 4096 0 + 0) ++ zeroBytes 16 ++ leBytes 8 (here (4 * 2 ^ 21)) ++ leBytes 8 4096 ++ leBytes 8 0 ++ zeroBytes 8)) = true) ∧
    (sMc.cmdFrom ((MsgHead.of ({ dev := 553, sys := 1, orgDev := 544, orgSys := 1, kind := 3, tier := 1, len := 1, tag := 5 : MsgHead }.bytes ++ List.replicate 16 7#8)).orgDev + 1024 * (MsgHead.of ({ dev := 553, sys := 1, orgDev := 544, orgSys := 1, kind := 3, tier := 1, len := 1, tag := 5 : MsgHead }.bytes ++ List.replicate 16 7#8)).orgSys) (MsgHead.of ({ dev := 553, sys := 1, orgDev := 544, orgSys := 1, kind := 3, tier := 1, len := 1, tag := 5 : MsgHead }.bytes ++ List.replicate 16 7#8)).tag = some (3, sMc.cmd 3) ∧
      sMc.msgHere 3 ({ dev := 553, sys := 1, orgDev := 544, orgSys := 1, kind := 3, tier := 1, len := 1, tag := 5 : MsgHead }.bytes ++ List.replicate 16 7#8) = true) ∧
    (sMc.cmdFrom ((MsgHead.of ({ dev := 553, sys := 1, orgDev := 544, orgSys := 1, kind := 48, tier := 1, len := 1, tag := 5 : MsgHead }.bytes ++ List.replicate 16 7#8)).orgDev + 1024 * (MsgHead.of ({ dev := 553, sys := 1, orgDev := 544, orgSys := 1, kind := 48, tier := 1, len := 1, tag := 5 : MsgHead }.bytes ++ List.replicate 16 7#8)).orgSys) (MsgHead.of ({ dev := 553, sys := 1, orgDev := 544, orgSys := 1, kind := 48, tier := 1, len := 1, tag := 5 : MsgHead }.bytes ++ List.replicate 16 7#8)).tag = some (3, sMc.cmd 3) ∧
      sMc.msgHere 48 ({ dev := 553, sys := 1, orgDev := 544, orgSys := 1, kind := 48, tier := 1, len := 1, tag := 5 : MsgHead }.bytes ++ List.replicate 16 7#8) = true ∧
      (MsgHead.of ({ dev := 553, sys := 1, orgDev := 544, orgSys := 1, kind := 48, tier := 1, len := 1, tag := 5 : MsgHead }.bytes ++ List.replicate 16 7#8)).devwork = false) ∧
    (sMn.cmdFrom ((MsgHead.of ({ dev := 553, sys := 1, orgDev := 544, orgSys := 1, kind := 3, tier := 1, len := 1, tag := 5 : MsgHead }.bytes ++ List.replicate 16 7#8)).orgDev + 1024 * (MsgHead.of ({ dev := 553, sys := 1, orgDev := 544, orgSys := 1, kind := 3, tier := 1, len := 1, tag := 5 : MsgHead }.bytes ++ List.replicate 16 7#8)).orgSys) (MsgHead.of ({ dev := 553, sys := 1, orgDev := 544, orgSys := 1, kind := 3, tier := 1, len := 1, tag := 5 : MsgHead }.bytes ++ List.replicate 16 7#8)).tag = none ∧
      sMn.msgHere 3 ({ dev := 553, sys := 1, orgDev := 544, orgSys := 1, kind := 3, tier := 1, len := 1, tag := 5 : MsgHead }.bytes ++ List.replicate 16 7#8) = true) ∧
    (sMn.cmdFrom ((MsgHead.of ({ dev := 553, sys := 1, orgDev := 544, orgSys := 1, kind := 48, tier := 1, len := 1, tag := 5 : MsgHead }.bytes ++ List.replicate 16 7#8)).orgDev + 1024 * (MsgHead.of ({ dev := 553, sys := 1, orgDev := 544, orgSys := 1, kind := 48, tier := 1, len := 1, tag := 5 : MsgHead }.bytes ++ List.replicate 16 7#8)).orgSys) (MsgHead.of ({ dev := 553, sys := 1, orgDev := 544, orgSys := 1, kind := 48, tier := 1, len := 1, tag := 5 : MsgHead }.bytes ++ List.replicate 16 7#8)).tag = none ∧
      sMn.msgHere 48 ({ dev := 553, sys := 1, orgDev := 544, orgSys := 1, kind := 48, tier := 1, len := 1, tag := 5 : MsgHead }.bytes ++ List.replicate 16 7#8) = true ∧
      (MsgHead.of ({ dev := 553, sys := 1, orgDev := 544, orgSys := 1, kind := 48, tier := 1, len := 1, tag := 5 : MsgHead }.bytes ++ List.replicate 16 7#8)).devwork = false) ∧
    (sMc.msgHere 48 ({ dev := 553, sys := 1, orgDev := 544, orgSys := 1, kind := 48, tier := 1, len := 2, tag := 5, devwork := true : MsgHead }.bytes ++ List.replicate 32 7#8) = true ∧
      (MsgHead.of ({ dev := 553, sys := 1, orgDev := 544, orgSys := 1, kind := 48, tier := 1, len := 2, tag := 5, devwork := true : MsgHead }.bytes ++ List.replicate 32 7#8)).devwork = true ∧
      bodyNat (msgBody ({ dev := 553, sys := 1, orgDev := 544, orgSys := 1, kind := 48, tier := 1, len := 2, tag := 5, devwork := true : MsgHead }.bytes ++ List.replicate 32 7#8)) 20 4 ≠ crc32c (List.take 20 (msgBody ({ dev := 553, sys := 1, orgDev := 544, orgSys := 1, kind := 48, tier := 1, len := 2, tag := 5, devwork := true : MsgHead }.bytes ++ List.replicate 32 7#8)))) := by
  refine ⟨?_, ?_, ?_, ?_, ?_, ?_, ?_⟩
  · decide +kernel
  · decide +kernel
  · decide +kernel
  · decide +kernel
  · decide +kernel
  · decide +kernel
  · decide +kernel

theorem witness_ResponsesFindTheirCommand :
    (sPw.partAt (MsgHead.of ({ dev := 553, sys := 1, orgDev := 544, orgSys := 1, kind := 16, tier := 1, len := 2, tag := 9 : MsgHead }.bytes ++ (leBytes 2 7 ++ leBytes 1 Status.ok.code ++ leBytes 1 0 ++ leBytes 4 0 ++ leBytes 8 64 ++ leBytes 8 5 ++ zeroBytes 8))).tag = some (9, sPw.parts.get 9) ∧
      sPw.msgHere 16 ({ dev := 553, sys := 1, orgDev := 544, orgSys := 1, kind := 16, tier := 1, len := 2, tag := 9 : MsgHead }.bytes ++ (leBytes 2 7 ++ leBytes 1 Status.ok.code ++ leBytes 1 0 ++ leBytes 4 0 ++ leBytes 8 64 ++ leBytes 8 5 ++ zeroBytes 8)) = true ∧
      (sPw.parts.get 9).whole = true ∧
      sPw.inEpoch (MsgHead.of ({ dev := 553, sys := 1, orgDev := 544, orgSys := 1, kind := 16, tier := 1, len := 2, tag := 9 : MsgHead }.bytes ++ (leBytes 2 7 ++ leBytes 1 Status.ok.code ++ leBytes 1 0 ++ leBytes 4 0 ++ leBytes 8 64 ++ leBytes 8 5 ++ zeroBytes 8))) (sPw.cmd (sPw.parts.get 9).cmd) = true ∧
      (sPw.cmd (sPw.parts.get 9).cmd).stage ≠ Stage.done) ∧
    (sPw.partAt (MsgHead.of ({ dev := 553, sys := 1, orgDev := 544, orgSys := 1, kind := 16, tier := 1, len := 2, tag := 9, epoch := 1 : MsgHead }.bytes ++ (leBytes 2 7 ++ leBytes 1 Status.ok.code ++ leBytes 1 0 ++ leBytes 4 0 ++ leBytes 8 64 ++ leBytes 8 5 ++ zeroBytes 8))).tag = some (9, sPw.parts.get 9) ∧
      sPw.msgHere 16 ({ dev := 553, sys := 1, orgDev := 544, orgSys := 1, kind := 16, tier := 1, len := 2, tag := 9, epoch := 1 : MsgHead }.bytes ++ (leBytes 2 7 ++ leBytes 1 Status.ok.code ++ leBytes 1 0 ++ leBytes 4 0 ++ leBytes 8 64 ++ leBytes 8 5 ++ zeroBytes 8)) = true ∧
      sPw.inEpoch (MsgHead.of ({ dev := 553, sys := 1, orgDev := 544, orgSys := 1, kind := 16, tier := 1, len := 2, tag := 9, epoch := 1 : MsgHead }.bytes ++ (leBytes 2 7 ++ leBytes 1 Status.ok.code ++ leBytes 1 0 ++ leBytes 4 0 ++ leBytes 8 64 ++ leBytes 8 5 ++ zeroBytes 8))) (sPw.cmd (sPw.parts.get 9).cmd) = false) ∧
    (sPp.partAt (MsgHead.of ({ dev := 553, sys := 1, orgDev := 544, orgSys := 1, kind := 17, tier := 1, len := 2, tag := 9 : MsgHead }.bytes ++ (leBytes 8 0 ++ leBytes 8 64 ++ List.replicate 16 3#8))).tag = some (9, sPp.parts.get 9) ∧
      sPp.msgHere 17 ({ dev := 553, sys := 1, orgDev := 544, orgSys := 1, kind := 17, tier := 1, len := 2, tag := 9 : MsgHead }.bytes ++ (leBytes 8 0 ++ leBytes 8 64 ++ List.replicate 16 3#8)) = true ∧
      (MsgHead.of ({ dev := 553, sys := 1, orgDev := 544, orgSys := 1, kind := 17, tier := 1, len := 2, tag := 9 : MsgHead }.bytes ++ (leBytes 8 0 ++ leBytes 8 64 ++ List.replicate 16 3#8))).devwork = false ∧
      (sPp.parts.get 9).whole = false ∧
      (sPp.parts.get 9).done = false ∧
      sPp.inEpoch (MsgHead.of ({ dev := 553, sys := 1, orgDev := 544, orgSys := 1, kind := 17, tier := 1, len := 2, tag := 9 : MsgHead }.bytes ++ (leBytes 8 0 ++ leBytes 8 64 ++ List.replicate 16 3#8))) (sPp.cmd (sPp.parts.get 9).cmd) = true ∧
      (sPp.cmd (sPp.parts.get 9).cmd).abort = false ∧
      Entry.op (sPp.cmd (sPp.parts.get 9).cmd).entry ≠ 68) ∧
    (sPp.partAt (MsgHead.of ({ dev := 553, sys := 1, orgDev := 544, orgSys := 1, kind := 17, tier := 1, len := 2, tag := 9, epoch := 1 : MsgHead }.bytes ++ (leBytes 8 0 ++ leBytes 8 64 ++ List.replicate 16 3#8))).tag = some (9, sPp.parts.get 9) ∧
      sPp.msgHere 17 ({ dev := 553, sys := 1, orgDev := 544, orgSys := 1, kind := 17, tier := 1, len := 2, tag := 9, epoch := 1 : MsgHead }.bytes ++ (leBytes 8 0 ++ leBytes 8 64 ++ List.replicate 16 3#8)) = true ∧
      (MsgHead.of ({ dev := 553, sys := 1, orgDev := 544, orgSys := 1, kind := 17, tier := 1, len := 2, tag := 9, epoch := 1 : MsgHead }.bytes ++ (leBytes 8 0 ++ leBytes 8 64 ++ List.replicate 16 3#8))).devwork = false ∧
      sPp.inEpoch (MsgHead.of ({ dev := 553, sys := 1, orgDev := 544, orgSys := 1, kind := 17, tier := 1, len := 2, tag := 9, epoch := 1 : MsgHead }.bytes ++ (leBytes 8 0 ++ leBytes 8 64 ++ List.replicate 16 3#8))) (sPp.cmd (sPp.parts.get 9).cmd) = false) ∧
    (sPp.partAt (MsgHead.of ({ dev := 553, sys := 1, orgDev := 544, orgSys := 1, kind := 18, tier := 1, len := 5, tag := 9 : MsgHead }.bytes ++ List.replicate 80 3#8)).tag = some (9, sPp.parts.get 9) ∧
      sPp.msgHere 18 ({ dev := 553, sys := 1, orgDev := 544, orgSys := 1, kind := 18, tier := 1, len := 5, tag := 9 : MsgHead }.bytes ++ List.replicate 80 3#8) = true ∧
      (sPp.parts.get 9).done = false ∧
      sPp.inEpoch (MsgHead.of ({ dev := 553, sys := 1, orgDev := 544, orgSys := 1, kind := 18, tier := 1, len := 5, tag := 9 : MsgHead }.bytes ++ List.replicate 80 3#8)) (sPp.cmd (sPp.parts.get 9).cmd) = true ∧
      (sPp.parts.get 9).whole = false) ∧
    (sPw.partAt (MsgHead.of ({ dev := 553, sys := 1, orgDev := 544, orgSys := 1, kind := 18, tier := 1, len := 5, tag := 9 : MsgHead }.bytes ++ List.replicate 80 3#8)).tag = some (9, sPw.parts.get 9) ∧
      sPw.msgHere 18 ({ dev := 553, sys := 1, orgDev := 544, orgSys := 1, kind := 18, tier := 1, len := 5, tag := 9 : MsgHead }.bytes ++ List.replicate 80 3#8) = true ∧
      (sPw.parts.get 9).done = false ∧
      sPw.inEpoch (MsgHead.of ({ dev := 553, sys := 1, orgDev := 544, orgSys := 1, kind := 18, tier := 1, len := 5, tag := 9 : MsgHead }.bytes ++ List.replicate 80 3#8)) (sPw.cmd (sPw.parts.get 9).cmd) = true ∧
      (sPw.parts.get 9).whole = true ∧
      (sPw.cmd (sPw.parts.get 9).cmd).origin = none) ∧
    (sPw.partAt (MsgHead.of ({ dev := 553, sys := 1, orgDev := 544, orgSys := 1, kind := 16, tier := 1, len := 2, tag := 10 : MsgHead }.bytes ++ (leBytes 2 7 ++ leBytes 1 Status.ok.code ++ leBytes 1 0 ++ leBytes 4 0 ++ leBytes 8 64 ++ leBytes 8 5 ++ zeroBytes 8))).tag = none ∧
      sPw.msgHere 16 ({ dev := 553, sys := 1, orgDev := 544, orgSys := 1, kind := 16, tier := 1, len := 2, tag := 10 : MsgHead }.bytes ++ (leBytes 2 7 ++ leBytes 1 Status.ok.code ++ leBytes 1 0 ++ leBytes 4 0 ++ leBytes 8 64 ++ leBytes 8 5 ++ zeroBytes 8)) = true) ∧
    (sPp.partAt (MsgHead.of ({ dev := 553, sys := 1, orgDev := 544, orgSys := 1, kind := 17, tier := 1, len := 2, tag := 10 : MsgHead }.bytes ++ (leBytes 8 0 ++ leBytes 8 64 ++ List.replicate 16 3#8))).tag = none ∧
      sPp.msgHere 17 ({ dev := 553, sys := 1, orgDev := 544, orgSys := 1, kind := 17, tier := 1, len := 2, tag := 10 : MsgHead }.bytes ++ (leBytes 8 0 ++ leBytes 8 64 ++ List.replicate 16 3#8)) = true ∧
      (MsgHead.of ({ dev := 553, sys := 1, orgDev := 544, orgSys := 1, kind := 17, tier := 1, len := 2, tag := 10 : MsgHead }.bytes ++ (leBytes 8 0 ++ leBytes 8 64 ++ List.replicate 16 3#8))).devwork = false) ∧
    (sPp.partAt (MsgHead.of ({ dev := 553, sys := 1, orgDev := 544, orgSys := 1, kind := 18, tier := 1, len := 5, tag := 10 : MsgHead }.bytes ++ List.replicate 80 3#8)).tag = none ∧
      sPp.msgHere 18 ({ dev := 553, sys := 1, orgDev := 544, orgSys := 1, kind := 18, tier := 1, len := 5, tag := 10 : MsgHead }.bytes ++ List.replicate 80 3#8) = true) ∧
    (List.find? (fun e => e.snd.live && decide (partTag e.fst = (MsgHead.of ({ dev := 553, sys := 1, orgDev := 544, orgSys := 1, kind := 17, tier := 1, len := 1, tag := 9, devwork := true : MsgHead }.bytes ++ (leBytes 8 0 ++ leBytes 8 64))).tag)) sDl.deltas = some (9, sDl.deltas.get 9) ∧
      sDl.msgHere 17 ({ dev := 553, sys := 1, orgDev := 544, orgSys := 1, kind := 17, tier := 1, len := 1, tag := 9, devwork := true : MsgHead }.bytes ++ (leBytes 8 0 ++ leBytes 8 64)) = true ∧
      (MsgHead.of ({ dev := 553, sys := 1, orgDev := 544, orgSys := 1, kind := 17, tier := 1, len := 1, tag := 9, devwork := true : MsgHead }.bytes ++ (leBytes 8 0 ++ leBytes 8 64))).devwork = true ∧
      bodyNat (msgBody ({ dev := 553, sys := 1, orgDev := 544, orgSys := 1, kind := 17, tier := 1, len := 1, tag := 9, devwork := true : MsgHead }.bytes ++ (leBytes 8 0 ++ leBytes 8 64))) 0 1 ≠ Status.badFormat.code) := by
  refine ⟨?_, ?_, ?_, ?_, ?_, ?_, ?_, ?_, ?_, ?_⟩
  · decide +kernel
  · decide +kernel
  · decide +kernel
  · decide +kernel
  · decide +kernel
  · decide +kernel
  · decide +kernel
  · decide +kernel
  · decide +kernel
  · decide +kernel

theorem witness_NoticesAreAnswered :
    (SMap.sel (fun x c => c.cancelled (bodyNat (slot16 (leBytes 2 1568 ++ leBytes 1 2 ++ leBytes 1 0 ++ leBytes 2 5)) 0 2, bodyNat (slot16 (leBytes 2 1568 ++ leBytes 1 2 ++ leBytes 1 0 ++ leBytes 2 5)) 2 1, bodyNat (slot16 (leBytes 2 1568 ++ leBytes 1 2 ++ leBytes 1 0 ++ leBytes 2 5)) 3 1, bodyNat (slot16 (leBytes 2 1568 ++ leBytes 1 2 ++ leBytes 1 0 ++ leBytes 2 5)) 4 2) && decide (c.stage ≠ Stage.done)) sPool.cmds = []) ∧
    (SMap.sel (fun x c => c.cancelled (bodyNat (slot16 (leBytes 2 1568 ++ leBytes 1 2 ++ leBytes 1 0 ++ leBytes 2 5)) 0 2, bodyNat (slot16 (leBytes 2 1568 ++ leBytes 1 2 ++ leBytes 1 0 ++ leBytes 2 5)) 2 1, bodyNat (slot16 (leBytes 2 1568 ++ leBytes 1 2 ++ leBytes 1 0 ++ leBytes 2 5)) 3 1, bodyNat (slot16 (leBytes 2 1568 ++ leBytes 1 2 ++ leBytes 1 0 ++ leBytes 2 5)) 4 2) && decide (c.stage ≠ Stage.done)) sCn.cmds = [3] ∧
      sCn.abortable 3 = true ∧
      sCn.chanFor 3 = none ∧
      sCn.partsOf 3 = [] ∧
      (¬Entry.op (sCn.cmd 3).entry ∈ [32, 34, 49, 50, 68])) ∧
    (bodyNat (slot16 (leBytes 2 1577 ++ leBytes 1 0 ++ leBytes 1 0 ++ leBytes 2 9)) 0 2 = sPc.dev + 1024 * sPc.sys ∧
      bodyNat (slot16 (leBytes 2 1577 ++ leBytes 1 0 ++ leBytes 1 0 ++ leBytes 2 9)) 4 2 ≠ 65535 ∧
      sPc.partAt (bodyNat (slot16 (leBytes 2 1577 ++ leBytes 1 0 ++ leBytes 1 0 ++ leBytes 2 9)) 4 2) = some (9, sPc.parts.get 9) ∧
      (sPc.parts.get 9).done = false ∧
      (sPc.parts.get 9).cancelled = true ∧
      (sPc.cmd (sPc.parts.get 9).cmd).abort = false ∧
      Entry.op (sPc.cmd (sPc.parts.get 9).cmd).entry ≠ 68) ∧
    (List.filter (fun r => decide (bodyNat (slot16 (leBytes 2 1568 ++ leBytes 1 2 ++ leBytes 1 0 ++ leBytes 2 5)) 0 8 = 0) || decide (r.addr = bodyNat (slot16 (leBytes 2 1568 ++ leBytes 1 2 ++ leBytes 1 0 ++ leBytes 2 5)) 0 8)) (sPool.leasesHeld (sPool.whoNamed (bodyNat (slot16 (leBytes 2 1568 ++ leBytes 1 2 ++ leBytes 1 0 ++ leBytes 2 5)) 8 2) (bodyNat (slot16 (leBytes 2 1568 ++ leBytes 1 2 ++ leBytes 1 0 ++ leBytes 2 5)) 10 1))) = []) ∧
    (sAk.askAt (bodyNat (slot16 (zeroBytes 12 ++ leBytes 2 9 ++ leBytes 2 4)) 12 2) = some (9, sAk.asks.get 9) ∧
      (sAk.asks.get 9).code = 256) ∧
    (sAt.askAt (bodyNat (slot16 (leBytes 2 1568 ++ leBytes 1 Status.noSpace.code ++ leBytes 1 0 ++ leBytes 2 9)) 4 2) = some (9, sAt.asks.get 9) ∧
      (sAt.asks.get 9).code ≠ 256 ∧
      (sAt.asks.get 9).dev = bodyNat (slot16 (leBytes 2 1568 ++ leBytes 1 Status.noSpace.code ++ leBytes 1 0 ++ leBytes 2 9)) 0 2 % 1024) ∧
    ((bodyNat (leBytes 64 (ent 134 (2 ^ 63 + 5 * 2 ^ 40) 0 0 0) ++ zeroBytes 16 ++ leBytes 8 2 ++ leBytes 8 70000) 80 1 = 2 ∨ bodyNat (leBytes 64 (ent 134 (2 ^ 63 + 5 * 2 ^ 40) 0 0 0) ++ zeroBytes 16 ++ leBytes 8 2 ++ leBytes 8 70000) 80 1 = 3)) := by
  refine ⟨?_, ?_, ?_, ?_, ?_, ?_, ?_⟩
  · decide +kernel
  · decide +kernel
  · decide +kernel
  · decide +kernel
  · decide +kernel
  · decide +kernel
  · decide +kernel

theorem witness_MessagesArePassedOn :
    (16 ≤ ({ dev := 553, sys := 1, orgDev := 545, orgSys := 1, kind := 46, len := 1, tag := 5 : MsgHead }.bytes ++ List.replicate (16 * 1) 7#8).length ∧
      ({ dev := 553, sys := 1, orgDev := 545, orgSys := 1, kind := 46, len := 1, tag := 5 : MsgHead }.bytes ++ List.replicate (16 * 1) 7#8).length = 16 + 16 * (MsgHead.of ({ dev := 553, sys := 1, orgDev := 545, orgSys := 1, kind := 46, len := 1, tag := 5 : MsgHead }.bytes ++ List.replicate (16 * 1) 7#8)).len ∧
      sRt.forMe (selfMessage ({ dev := 553, sys := 1, orgDev := 545, orgSys := 1, kind := 46, len := 1, tag := 5 : MsgHead }.bytes ++ List.replicate (16 * 1) 7#8)) (MsgHead.of ({ dev := 553, sys := 1, orgDev := 545, orgSys := 1, kind := 46, len := 1, tag := 5 : MsgHead }.bytes ++ List.replicate (16 * 1) 7#8)).sys (MsgHead.of ({ dev := 553, sys := 1, orgDev := 545, orgSys := 1, kind := 46, len := 1, tag := 5 : MsgHead }.bytes ++ List.replicate (16 * 1) 7#8)).dev = true ∧
      knownMessage (MsgHead.of ({ dev := 553, sys := 1, orgDev := 545, orgSys := 1, kind := 46, len := 1, tag := 5 : MsgHead }.bytes ++ List.replicate (16 * 1) 7#8)).kind = false ∧
      kindVc (MsgHead.of ({ dev := 553, sys := 1, orgDev := 545, orgSys := 1, kind := 46, len := 1, tag := 5 : MsgHead }.bytes ++ List.replicate (16 * 1) 7#8)).kind ≠ 0) ∧
    (16 ≤ ({ dev := 553, sys := 1, orgDev := 545, orgSys := 1, kind := 14, len := 1, tag := 5 : MsgHead }.bytes ++ List.replicate (16 * 1) 7#8).length ∧
      ({ dev := 553, sys := 1, orgDev := 545, orgSys := 1, kind := 14, len := 1, tag := 5 : MsgHead }.bytes ++ List.replicate (16 * 1) 7#8).length = 16 + 16 * (MsgHead.of ({ dev := 553, sys := 1, orgDev := 545, orgSys := 1, kind := 14, len := 1, tag := 5 : MsgHead }.bytes ++ List.replicate (16 * 1) 7#8)).len ∧
      sRt.forMe (selfMessage ({ dev := 553, sys := 1, orgDev := 545, orgSys := 1, kind := 14, len := 1, tag := 5 : MsgHead }.bytes ++ List.replicate (16 * 1) 7#8)) (MsgHead.of ({ dev := 553, sys := 1, orgDev := 545, orgSys := 1, kind := 14, len := 1, tag := 5 : MsgHead }.bytes ++ List.replicate (16 * 1) 7#8)).sys (MsgHead.of ({ dev := 553, sys := 1, orgDev := 545, orgSys := 1, kind := 14, len := 1, tag := 5 : MsgHead }.bytes ++ List.replicate (16 * 1) 7#8)).dev = true ∧
      knownMessage (MsgHead.of ({ dev := 553, sys := 1, orgDev := 545, orgSys := 1, kind := 14, len := 1, tag := 5 : MsgHead }.bytes ++ List.replicate (16 * 1) 7#8)).kind = false ∧
      kindVc (MsgHead.of ({ dev := 553, sys := 1, orgDev := 545, orgSys := 1, kind := 14, len := 1, tag := 5 : MsgHead }.bytes ++ List.replicate (16 * 1) 7#8)).kind = 0) ∧
    (16 ≤ ({ dev := 544, sys := 1, orgDev := 545, orgSys := 1, kind := 18, len := 1, tag := 5 : MsgHead }.bytes ++ List.replicate (16 * 1) 7#8).length ∧
      ({ dev := 544, sys := 1, orgDev := 545, orgSys := 1, kind := 18, len := 1, tag := 5 : MsgHead }.bytes ++ List.replicate (16 * 1) 7#8).length = 16 + 16 * (MsgHead.of ({ dev := 544, sys := 1, orgDev := 545, orgSys := 1, kind := 18, len := 1, tag := 5 : MsgHead }.bytes ++ List.replicate (16 * 1) 7#8)).len ∧
      sRt.forMe (selfMessage ({ dev := 544, sys := 1, orgDev := 545, orgSys := 1, kind := 18, len := 1, tag := 5 : MsgHead }.bytes ++ List.replicate (16 * 1) 7#8)) (MsgHead.of ({ dev := 544, sys := 1, orgDev := 545, orgSys := 1, kind := 18, len := 1, tag := 5 : MsgHead }.bytes ++ List.replicate (16 * 1) 7#8)).sys (MsgHead.of ({ dev := 544, sys := 1, orgDev := 545, orgSys := 1, kind := 18, len := 1, tag := 5 : MsgHead }.bytes ++ List.replicate (16 * 1) 7#8)).dev = false ∧
      sRt.arrivalDrop 63 (MsgHead.of ({ dev := 544, sys := 1, orgDev := 545, orgSys := 1, kind := 18, len := 1, tag := 5 : MsgHead }.bytes ++ List.replicate (16 * 1) 7#8)).sys ≠ none) ∧
    (16 ≤ ({ dev := 544, sys := 1, orgDev := 545, orgSys := 1, kind := 18, len := 1, tag := 5 : MsgHead }.bytes ++ List.replicate (16 * 1) 7#8).length ∧
      ({ dev := 544, sys := 1, orgDev := 545, orgSys := 1, kind := 18, len := 1, tag := 5 : MsgHead }.bytes ++ List.replicate (16 * 1) 7#8).length = 16 + 16 * (MsgHead.of ({ dev := 544, sys := 1, orgDev := 545, orgSys := 1, kind := 18, len := 1, tag := 5 : MsgHead }.bytes ++ List.replicate (16 * 1) 7#8)).len ∧
      sRt.forMe (selfMessage ({ dev := 544, sys := 1, orgDev := 545, orgSys := 1, kind := 18, len := 1, tag := 5 : MsgHead }.bytes ++ List.replicate (16 * 1) 7#8)) (MsgHead.of ({ dev := 544, sys := 1, orgDev := 545, orgSys := 1, kind := 18, len := 1, tag := 5 : MsgHead }.bytes ++ List.replicate (16 * 1) 7#8)).sys (MsgHead.of ({ dev := 544, sys := 1, orgDev := 545, orgSys := 1, kind := 18, len := 1, tag := 5 : MsgHead }.bytes ++ List.replicate (16 * 1) 7#8)).dev = false ∧
      sRt.arrivalDrop 1 (MsgHead.of ({ dev := 544, sys := 1, orgDev := 545, orgSys := 1, kind := 18, len := 1, tag := 5 : MsgHead }.bytes ++ List.replicate (16 * 1) 7#8)).sys = none ∧
      sRt.devTakes (sRt.aliasOf (MsgHead.of ({ dev := 544, sys := 1, orgDev := 545, orgSys := 1, kind := 18, len := 1, tag := 5 : MsgHead }.bytes ++ List.replicate (16 * 1) 7#8)).dev) = true ∧
      sRt.linkMode 1 ≠ 1 ∧
      sRt.pinOf (MsgHead.of ({ dev := 544, sys := 1, orgDev := 545, orgSys := 1, kind := 18, len := 1, tag := 5 : MsgHead }.bytes ++ List.replicate (16 * 1) 7#8)) (kindVc (MsgHead.of ({ dev := 544, sys := 1, orgDev := 545, orgSys := 1, kind := 18, len := 1, tag := 5 : MsgHead }.bytes ++ List.replicate (16 * 1) 7#8)).kind) = none ∧
      sRt.pins.length < 16384 ∧
      sRt.choose false (MsgHead.of ({ dev := 544, sys := 1, orgDev := 545, orgSys := 1, kind := 18, len := 1, tag := 5 : MsgHead }.bytes ++ List.replicate (16 * 1) 7#8)).orgDev (MsgHead.of ({ dev := 544, sys := 1, orgDev := 545, orgSys := 1, kind := 18, len := 1, tag := 5 : MsgHead }.bytes ++ List.replicate (16 * 1) 7#8)).sys (MsgHead.of ({ dev := 544, sys := 1, orgDev := 545, orgSys := 1, kind := 18, len := 1, tag := 5 : MsgHead }.bytes ++ List.replicate (16 * 1) 7#8)).dev (MsgHead.of ({ dev := 544, sys := 1, orgDev := 545, orgSys := 1, kind := 18, len := 1, tag := 5 : MsgHead }.bytes ++ List.replicate (16 * 1) 7#8)).detour (selfMessage ({ dev := 544, sys := 1, orgDev := 545, orgSys := 1, kind := 18, len := 1, tag := 5 : MsgHead }.bytes ++ List.replicate (16 * 1) 7#8)) = some { link := 0, hops := 0, detour := false : Choice } ∧
      { link := 0, hops := 0, detour := false : Choice }.link < 62 ∧
      sRt.flag Fld.twbCtrlGo = false) ∧
    (bodyNat (envelope 1 544 1 545 2 false false (slot16 (leBytes 2 1568 ++ leBytes 1 2 ++ leBytes 1 0 ++ leBytes 2 5))) 0 1 = 1 ∧
      sRt.forMe (selfEnvelope (envelope 1 544 1 545 2 false false (slot16 (leBytes 2 1568 ++ leBytes 1 2 ++ leBytes 1 0 ++ leBytes 2 5)))) (envHead (envelope 1 544 1 545 2 false false (slot16 (leBytes 2 1568 ++ leBytes 1 2 ++ leBytes 1 0 ++ leBytes 2 5)))).sys (envHead (envelope 1 544 1 545 2 false false (slot16 (leBytes 2 1568 ++ leBytes 1 2 ++ leBytes 1 0 ++ leBytes 2 5)))).dev = false ∧
      sRt.arrivalDrop 63 (envHead (envelope 1 544 1 545 2 false false (slot16 (leBytes 2 1568 ++ leBytes 1 2 ++ leBytes 1 0 ++ leBytes 2 5)))).sys ≠ none) ∧
    (bodyNat (envelope 1 544 1 545 2 false false (slot16 (leBytes 2 1568 ++ leBytes 1 2 ++ leBytes 1 0 ++ leBytes 2 5))) 0 1 = 1 ∧
      sRt.forMe (selfEnvelope (envelope 1 544 1 545 2 false false (slot16 (leBytes 2 1568 ++ leBytes 1 2 ++ leBytes 1 0 ++ leBytes 2 5)))) (envHead (envelope 1 544 1 545 2 false false (slot16 (leBytes 2 1568 ++ leBytes 1 2 ++ leBytes 1 0 ++ leBytes 2 5)))).sys (envHead (envelope 1 544 1 545 2 false false (slot16 (leBytes 2 1568 ++ leBytes 1 2 ++ leBytes 1 0 ++ leBytes 2 5)))).dev = false ∧
      sRt.arrivalDrop 1 (envHead (envelope 1 544 1 545 2 false false (slot16 (leBytes 2 1568 ++ leBytes 1 2 ++ leBytes 1 0 ++ leBytes 2 5)))).sys = none ∧
      sRt.linkMode 1 ≠ 1 ∧
      sRt.choose false (envHead (envelope 1 544 1 545 2 false false (slot16 (leBytes 2 1568 ++ leBytes 1 2 ++ leBytes 1 0 ++ leBytes 2 5)))).orgDev (envHead (envelope 1 544 1 545 2 false false (slot16 (leBytes 2 1568 ++ leBytes 1 2 ++ leBytes 1 0 ++ leBytes 2 5)))).sys (envHead (envelope 1 544 1 545 2 false false (slot16 (leBytes 2 1568 ++ leBytes 1 2 ++ leBytes 1 0 ++ leBytes 2 5)))).dev (envHead (envelope 1 544 1 545 2 false false (slot16 (leBytes 2 1568 ++ leBytes 1 2 ++ leBytes 1 0 ++ leBytes 2 5)))).detour (selfEnvelope (envelope 1 544 1 545 2 false false (slot16 (leBytes 2 1568 ++ leBytes 1 2 ++ leBytes 1 0 ++ leBytes 2 5)))) = some { link := 0, hops := 0, detour := false : Choice } ∧
      { link := 0, hops := 0, detour := false : Choice }.link < 62 ∧
      sRt.flag Fld.twbCtrlGo = false) ∧
    (bodyNat (envelope 1 553 1 545 2 false false (slot16 (leBytes 2 1568 ++ leBytes 1 2 ++ leBytes 1 0 ++ leBytes 2 5))) 0 1 = 1 ∧
      sRt.forMe (selfEnvelope (envelope 1 553 1 545 2 false false (slot16 (leBytes 2 1568 ++ leBytes 1 2 ++ leBytes 1 0 ++ leBytes 2 5)))) (envHead (envelope 1 553 1 545 2 false false (slot16 (leBytes 2 1568 ++ leBytes 1 2 ++ leBytes 1 0 ++ leBytes 2 5)))).sys (envHead (envelope 1 553 1 545 2 false false (slot16 (leBytes 2 1568 ++ leBytes 1 2 ++ leBytes 1 0 ++ leBytes 2 5)))).dev = true ∧
      bit (bodyNat (envelope 1 553 1 545 2 false false (slot16 (leBytes 2 1568 ++ leBytes 1 2 ++ leBytes 1 0 ++ leBytes 2 5))) 1 1) 1 = false) := by
  refine ⟨?_, ?_, ?_, ?_, ?_, ?_, ?_⟩
  · decide +kernel
  · decide +kernel
  · decide +kernel
  · decide +kernel
  · decide +kernel
  · decide +kernel
  · decide +kernel

theorem witness_LinkStatesStepsAndNaps :
    (bodyNat (leBytes 1 2 ++ leBytes 1 2 ++ nameBytes 544 1 ++ leBytes 2 0 ++ leBytes 16 4660 ++ leBytes 1 3 ++ zeroBytes 9) 0 1 = 2 ∧
      (62 = 62 ∨ 62 = 63)) ∧
    (bodyNat (leBytes 1 2 ++ leBytes 1 2 ++ nameBytes 544 1 ++ leBytes 2 0 ++ leBytes 16 4660 ++ leBytes 1 3 ++ zeroBytes 9) 0 1 = 2 ∧
      0 ≠ 62 ∧
      0 ≠ 63 ∧
      bodyNat (leBytes 1 2 ++ leBytes 1 2 ++ nameBytes 544 1 ++ leBytes 2 0 ++ leBytes 16 4660 ++ leBytes 1 3 ++ zeroBytes 9) 2 2 / 1024 = sLs.sys ∧
      bodyNat (leBytes 1 2 ++ leBytes 1 2 ++ nameBytes 544 1 ++ leBytes 2 0 ++ leBytes 16 4660 ++ leBytes 1 3 ++ zeroBytes 9) 2 2 % 1024 ≠ sLs.dev ∧
      ((sLs.lsTable.get (bodyNat (leBytes 1 2 ++ leBytes 1 2 ++ nameBytes 544 1 ++ leBytes 2 0 ++ leBytes 16 4660 ++ leBytes 1 3 ++ zeroBytes 9) 2 2 % 1024)).heard = none ∨ bodyNat (leBytes 1 2 ++ leBytes 1 2 ++ nameBytes 544 1 ++ leBytes 2 0 ++ leBytes 16 4660 ++ leBytes 1 3 ++ zeroBytes 9) 1 1 ≠ (sLs.lsTable.get (bodyNat (leBytes 1 2 ++ leBytes 1 2 ++ nameBytes 544 1 ++ leBytes 2 0 ++ leBytes 16 4660 ++ leBytes 1 3 ++ zeroBytes 9) 2 2 % 1024)).count ∨ 1 ≤ (bodyNat (leBytes 1 2 ++ leBytes 1 2 ++ nameBytes 544 1 ++ leBytes 2 0 ++ leBytes 16 4660 ++ leBytes 1 3 ++ zeroBytes 9) 4 2 + 65536 - (sLs.lsTable.get (bodyNat (leBytes 1 2 ++ leBytes 1 2 ++ nameBytes 544 1 ++ leBytes 2 0 ++ leBytes 16 4660 ++ leBytes 1 3 ++ zeroBytes 9) 2 2 % 1024)).seq) % 65536 ∧ (bodyNat (leBytes 1 2 ++ leBytes 1 2 ++ nameBytes 544 1 ++ leBytes 2 0 ++ leBytes 16 4660 ++ leBytes 1 3 ++ zeroBytes 9) 4 2 + 65536 - (sLs.lsTable.get (bodyNat (leBytes 1 2 ++ leBytes 1 2 ++ nameBytes 544 1 ++ leBytes 2 0 ++ leBytes 16 4660 ++ leBytes 1 3 ++ zeroBytes 9) 2 2 % 1024)).seq) % 65536 ≤ 32767)) ∧
    (bodyNat (leBytes 1 2 ++ leBytes 1 2 ++ nameBytes 544 1 ++ leBytes 2 65535 ++ leBytes 16 4660 ++ leBytes 1 3 ++ zeroBytes 9) 0 1 = 2 ∧
      0 ≠ 62 ∧
      0 ≠ 63 ∧
      bodyNat (leBytes 1 2 ++ leBytes 1 2 ++ nameBytes 544 1 ++ leBytes 2 65535 ++ leBytes 16 4660 ++ leBytes 1 3 ++ zeroBytes 9) 2 2 / 1024 = sLs.sys ∧
      bodyNat (leBytes 1 2 ++ leBytes 1 2 ++ nameBytes 544 1 ++ leBytes 2 65535 ++ leBytes 16 4660 ++ leBytes 1 3 ++ zeroBytes 9) 2 2 % 1024 ≠ sLs.dev ∧
      (sLs.lsTable.get (bodyNat (leBytes 1 2 ++ leBytes 1 2 ++ nameBytes 544 1 ++ leBytes 2 65535 ++ leBytes 16 4660 ++ leBytes 1 3 ++ zeroBytes 9) 2 2 % 1024)).heard ≠ none ∧
      bodyNat (leBytes 1 2 ++ leBytes 1 2 ++ nameBytes 544 1 ++ leBytes 2 65535 ++ leBytes 16 4660 ++ leBytes 1 3 ++ zeroBytes 9) 1 1 = (sLs.lsTable.get (bodyNat (leBytes 1 2 ++ leBytes 1 2 ++ nameBytes 544 1 ++ leBytes 2 65535 ++ leBytes 16 4660 ++ leBytes 1 3 ++ zeroBytes 9) 2 2 % 1024)).count ∧
      (¬(1 ≤ (bodyNat (leBytes 1 2 ++ leBytes 1 2 ++ nameBytes 544 1 ++ leBytes 2 65535 ++ leBytes 16 4660 ++ leBytes 1 3 ++ zeroBytes 9) 4 2 + 65536 - (sLs.lsTable.get (bodyNat (leBytes 1 2 ++ leBytes 1 2 ++ nameBytes 544 1 ++ leBytes 2 65535 ++ leBytes 16 4660 ++ leBytes 1 3 ++ zeroBytes 9) 2 2 % 1024)).seq) % 65536 ∧ (bodyNat (leBytes 1 2 ++ leBytes 1 2 ++ nameBytes 544 1 ++ leBytes 2 65535 ++ leBytes 16 4660 ++ leBytes 1 3 ++ zeroBytes 9) 4 2 + 65536 - (sLs.lsTable.get (bodyNat (leBytes 1 2 ++ leBytes 1 2 ++ nameBytes 544 1 ++ leBytes 2 65535 ++ leBytes 16 4660 ++ leBytes 1 3 ++ zeroBytes 9) 2 2 % 1024)).seq) % 65536 ≤ 32767))) ∧
    (sLr.pwrgood = true ∧
      sLr.halted = false ∧
      sLr.flag Fld.glbClkLock = true ∧
      sLr.starting = none ∧
      8 ≤ sLr.fld Fld.pwrStartStep ∧
      sLr.lsSent + 1000 * max 10 (min 10000 (sLr.fld Fld.wlkRtCtrlRefreshMs)) ≤ sLr.us) ∧
    ((sLr.lsTable.get 544).heard = some 1 ∧
      (sLr.lsTable.get 544).stale = false ∧
      1 + 3000 * max 10 (min 10000 (sLr.fld Fld.wlkRtCtrlRefreshMs)) ≤ sLr.us) ∧
    (544 ≠ State.reset.dev) ∧
    (544 ≠ State.reset.dev) ∧
    (bodyNat (leBytes 1 3 ++ leBytes 1 1 ++ nameBytes 553 1 ++ leBytes 2 1577 ++ leBytes 1 64 ++ leBytes 1 5 ++ leBytes 2 3 ++ zeroBytes 2 ++ leBytes 2 77 ++ zeroBytes 2) 0 1 = 3 ∧
      bodyNat (leBytes 1 3 ++ leBytes 1 1 ++ nameBytes 553 1 ++ leBytes 2 1577 ++ leBytes 1 64 ++ leBytes 1 5 ++ leBytes 2 3 ++ zeroBytes 2 ++ leBytes 2 77 ++ zeroBytes 2) 2 2 = sLk.dev + 1024 * sLk.sys) ∧
    (bodyNat (leBytes 1 4 ++ leBytes 1 0 ++ nameBytes 544 1 ++ nameBytes 553 1 ++ leBytes 1 0 ++ leBytes 1 5 ++ leBytes 2 3 ++ leBytes 1 2 ++ zeroBytes 1 ++ leBytes 2 9 ++ leBytes 2 7) 0 1 = 4 ∧
      bodyNat (leBytes 1 4 ++ leBytes 1 0 ++ nameBytes 544 1 ++ nameBytes 553 1 ++ leBytes 1 0 ++ leBytes 1 5 ++ leBytes 2 3 ++ leBytes 1 2 ++ zeroBytes 1 ++ leBytes 2 9 ++ leBytes 2 7) 4 2 = sSt.dev + 1024 * sSt.sys ∧
      sSt.partAt (bodyNat (leBytes 1 4 ++ leBytes 1 0 ++ nameBytes 544 1 ++ nameBytes 553 1 ++ leBytes 1 0 ++ leBytes 1 5 ++ leBytes 2 3 ++ leBytes 1 2 ++ zeroBytes 1 ++ leBytes 2 9 ++ leBytes 2 7) 12 2) = some (9, sSt.parts.get 9) ∧
      (sSt.parts.get 9).whole = true ∧
      (sSt.parts.get 9).dev = bodyNat (leBytes 1 4 ++ leBytes 1 0 ++ nameBytes 544 1 ++ nameBytes 553 1 ++ leBytes 1 0 ++ leBytes 1 5 ++ leBytes 2 3 ++ leBytes 1 2 ++ zeroBytes 1 ++ leBytes 2 9 ++ leBytes 2 7) 2 2 % 1024 ∧
      (sSt.cmd (sSt.parts.get 9).cmd).live = true ∧
      (sSt.cmd (sSt.parts.get 9).cmd).stage ≠ Stage.done ∧
      Entry.op (sSt.cmd (sSt.parts.get 9).cmd).entry = 133) ∧
    (sNp.napReady 0 = true ∧
      (sNp.link 0).napAsked = none) ∧
    (sNp.tstate 0 = 5 ∧
      ((sNp.link 0).napAsked = none ∨ sNp.fld Fld.wlkStatePartnerDev + 1024 * sNp.fld Fld.wlkStatePartnerSys ≤ sNp.dev + 1024 * sNp.sys) ∧
      sNp.napReady 0 = true) ∧
    (sNx.tstate 0 = 5 ∧
      ((sNx.link 0).napAsked = none ∨ sNx.fld Fld.wlkStatePartnerDev + 1024 * sNx.fld Fld.wlkStatePartnerSys ≤ sNx.dev + 1024 * sNx.sys) ∧
      sNx.napReady 0 = false) ∧
    ((sNa.link 0).napAsked ≠ none ∧
      sNa.tstate 0 = 5) ∧
    ((sNa.link 0).napAsked ≠ none ∧
      (leBytes 4 1 ++ leBytes 4 300 ++ zeroBytes 8).length = 16) := by
  refine ⟨?_, ?_, ?_, ?_, ?_, ?_, ?_, ?_, ?_, ?_, ?_, ?_, ?_, ?_⟩
  · decide +kernel
  · decide +kernel
  · decide +kernel
  · decide +kernel
  · decide +kernel
  · decide +kernel
  · decide +kernel
  · decide +kernel
  · decide +kernel
  · decide +kernel
  · decide +kernel
  · decide +kernel
  · decide +kernel
  · decide +kernel

theorem witness_NapCapFollowsWakes :
    (sNn.tstate 0 = 6 ∧
      (sNn.link 0).napUntil ≤ sNn.us) ∧
    (sNn.tstate 0 = 6 ∧
      (sNn.link 0).napUntil + 2 ≤ sNn.us) := by
  refine ⟨?_, ?_⟩
  · decide +kernel
  · decide +kernel

theorem witness_GroupsFormAndChange :
    (sGs.fld Fld.protStateState ≠ 0) ∧
    (sGr.fld Fld.protStateState = 0 ∧
      sGr.groupOpen = true ∧
      2 % 8 ≠ 0 ∧
      ((sGr.fmInput 0 8 (2 % 8 + 2 ^ 16)).setFld Fld.protGroupWidth (2 % 8)).sizeParity.groupRefused = true) ∧
    (sGr.fld Fld.protStateState = 0 ∧
      sGr.groupOpen = true ∧
      1 % 8 ≠ 0 ∧
      ((sGr.fmInput 0 8 (1 % 8 + 2 ^ 16)).setFld Fld.protGroupWidth (1 % 8)).sizeParity.groupRefused = false ∧
      (∃ p, p < ((sGr.fmInput 0 8 (1 % 8 + 2 ^ 16)).setFld Fld.protGroupWidth (1 % 8)).sizeParity.gn ∧ ((sGr.fmInput 0 8 (1 % 8 + 2 ^ 16)).setFld Fld.protGroupWidth (1 % 8)).sizeParity.memberId p ≠ ((sGr.fmInput 0 8 (1 % 8 + 2 ^ 16)).setFld Fld.protGroupWidth (1 % 8)).sizeParity.dev ∧ ((sGr.fmInput 0 8 (1 % 8 + 2 ^ 16)).setFld Fld.protGroupWidth (1 % 8)).sizeParity.joins.get (((sGr.fmInput 0 8 (1 % 8 + 2 ^ 16)).setFld Fld.protGroupWidth (1 % 8)).sizeParity.memberId p) ≠ some ((sGr.fmInput 0 8 (1 % 8 + 2 ^ 16)).setFld Fld.protGroupWidth (1 % 8)).sizeParity.sizeCheck)) ∧
    (sGrJ.fld Fld.protStateState = 0 ∧
      sGrJ.groupOpen = true ∧
      1 % 8 ≠ 0 ∧
      ((sGrJ.fmInput 0 8 (1 % 8 + 2 ^ 16)).setFld Fld.protGroupWidth (1 % 8)).sizeParity.groupRefused = false ∧
      (∀ (p : Nat), p < ((sGrJ.fmInput 0 8 (1 % 8 + 2 ^ 16)).setFld Fld.protGroupWidth (1 % 8)).sizeParity.gn → ((sGrJ.fmInput 0 8 (1 % 8 + 2 ^ 16)).setFld Fld.protGroupWidth (1 % 8)).sizeParity.memberId p ≠ ((sGrJ.fmInput 0 8 (1 % 8 + 2 ^ 16)).setFld Fld.protGroupWidth (1 % 8)).sizeParity.dev → ((sGrJ.fmInput 0 8 (1 % 8 + 2 ^ 16)).setFld Fld.protGroupWidth (1 % 8)).sizeParity.joins.get (((sGrJ.fmInput 0 8 (1 % 8 + 2 ^ 16)).setFld Fld.protGroupWidth (1 % 8)).sizeParity.memberId p) = some ((sGrJ.fmInput 0 8 (1 % 8 + 2 ^ 16)).setFld Fld.protGroupWidth (1 % 8)).sizeParity.sizeCheck)) ∧
    (slotSub (slot16 (leBytes 1 1 ++ leBytes 1 0 ++ nameBytes 585 1 ++ nameBytes 585 1 ++ zeroBytes 2 ++ leBytes 4 sGr1.sizeCheck)) = 1 ∧
      sGr1.fld Fld.protStateState = 0 ∧
      sGr1.joining = false) ∧
    (slotSub (slot16 (leBytes 1 1 ++ leBytes 1 0 ++ nameBytes 585 1 ++ nameBytes 585 1 ++ zeroBytes 2 ++ leBytes 4 sGr1.sizeCheck)) = 1 ∧
      sGj.fld Fld.protStateState = 0 ∧
      sGj.joining = true ∧
      (∀ (p : Nat), p < sGj.gn → sGj.memberId p ≠ sGj.dev → (sGj.joins.put (slotSubject (slot16 (leBytes 1 1 ++ leBytes 1 0 ++ nameBytes 585 1 ++ nameBytes 585 1 ++ zeroBytes 2 ++ leBytes 4 sGr1.sizeCheck))) (some (bodyNat (slot16 (leBytes 1 1 ++ leBytes 1 0 ++ nameBytes 585 1 ++ nameBytes 585 1 ++ zeroBytes 2 ++ leBytes 4 sGr1.sizeCheck)) 8 4))).get (sGj.memberId p) = some sGj.sizeCheck)) ∧
    (sGs.fld Fld.protStateState = 1 ∧
      sGs.flag Fld.protEvacBusy = false ∧
      (∀ (p : Nat), p < sGs.gn → sGs.memberState p = 0)) ∧
    (sGw.posOf (slotSubject (recoverySlot 2 0 41 553 1 0 0 0)) = some 0 ∧
      slotSub (recoverySlot 2 0 41 553 1 0 0 0) = 2 ∧
      sGw.memberState 0 ≠ 2) ∧
    (sGa.posOf (slotSubject (recoverySlot 3 0 41 585 1 0 0 0)) = some 0 ∧
      slotSub (recoverySlot 3 0 41 585 1 0 0 0) = 3 ∧
      (sGa.memberState 0 = 1 ∨ sGa.memberState 0 = 2) ∧
      slotOther (recoverySlot 3 0 41 585 1 0 0 0) ≠ sGa.dev ∧
      (¬(2 ≤ sGa.fld Fld.protSpareState ∧ sGa.fld Fld.protSpareFor = slotSubject (recoverySlot 3 0 41 585 1 0 0 0)))) ∧
    (sSp9.posOf (slotSubject (recoverySlot 3 0 41 560 1 0 0 0)) = some 0 ∧
      slotSub (recoverySlot 3 0 41 560 1 0 0 0) = 3 ∧
      (sSp9.memberState 0 = 1 ∨ sSp9.memberState 0 = 2) ∧
      slotOther (recoverySlot 3 0 41 560 1 0 0 0) = sSp9.dev ∧
      slotSubject (recoverySlot 3 0 41 560 1 0 0 0) ≠ sSp9.dev ∧
      sSp9.fld Fld.protSpareState = 1) ∧
    (sGw.posOf (slotSubject (recoverySlot 4 0 41 41 1 0 0 0)) = some 0 ∧
      slotSub (recoverySlot 4 0 41 41 1 0 0 0) = 4) ∧
    (sGc.coordinates = true ∧
      0 < sGc.gn ∧
      sGc.memberState 0 = 1 ∧
      sGc.absentAt.get 0 + 1000 * max 100 (min 600000 (sGc.fld Fld.protCtrlFailMs)) ≤ sGc.us) ∧
    (sGw.grouped = true ∧
      sGw.flag Fld.protEvacBusy = false ∧
      sGw.memberState sGw.myPos ≠ 1 ∧
      sGw.memberState sGw.myPos ≠ 2 ∧
      sGw.rebuildDue = false) ∧
    (sEvC.flag Fld.protEvacBusy = true ∧
      (∃ e, e ∈ sEvC.cmds ∧ e.snd.live = true)) ∧
    (sEv.flag Fld.protEvacBusy = true ∧
      (∀ (e : Nat × Cmd), e ∈ sEv.cmds → e.snd.live = false) ∧
      sEv.fld Fld.protSpareState < 2) ∧
    (Claims.Priv sDs2 1 131 (sDs2.cmd 1) ∧
      Entry.spec (sDs2.cmd 1).entry 40 1 = 0 ∧
      (List.any sDs2.owners fun e => e.snd.isSome) = true) ∧
    (Claims.Priv sDs 1 131 (sDs.cmd 1) ∧
      Entry.spec (sDs.cmd 1).entry 40 1 = 0 ∧
      sDs.owners = [] ∧
      sDs.unitRecs = [] ∧
      sDs.volumes = [] ∧
      sDs.fld Fld.protSpareState = 0) ∧
    (Claims.Priv sWd 1 131 (sWd.cmd 1) ∧
      Entry.spec (sWd.cmd 1).entry 40 1 = 1 ∧
      sWd.fld Fld.protSpareState ≠ 1) ∧
    (Claims.Priv sWd2 1 131 (sWd2.cmd 1) ∧
      Entry.spec (sWd2.cmd 1).entry 40 1 = 1 ∧
      sWd2.fld Fld.protSpareState = 1) := by
  refine ⟨?_, ?_, ?_, ?_, ?_, ?_, ?_, ?_, ?_, ?_, ?_, ?_, ?_, ?_, ?_, ?_, ?_, ?_, ?_⟩
  · decide +kernel
  · decide +kernel
  · decide +kernel
  · decide +kernel
  · decide +kernel
  · decide +kernel
  · decide +kernel
  · decide +kernel
  · decide +kernel
  · decide +kernel
  · decide +kernel
  · decide +kernel
  · decide +kernel
  · decide +kernel
  · decide +kernel
  · unfold Claims.Priv Served; decide +kernel
  · unfold Claims.Priv Served; decide +kernel
  · unfold Claims.Priv Served; decide +kernel
  · unfold Claims.Priv Served; decide +kernel

theorem witness_FramesAreRebuilt :
    (List.filter (fun e => e.snd.live && decide (e.snd.stripe = 4) && decide (e.snd.sent + 1000 * max 1 (min 4095 (sDel.fld Fld.protCtrlDeltaMs)) ≤ sDel.us)) sDel.deltas = [(9, sDel.deltas.get 9)] ∧
      List.length sDel.dirty < 1048576) ∧
    (sRd.rebuildOn = true ∧
      sRd.resync = [] ∧
      sRd.fld Fld.protRebuildArea = 1 ∧
      sRd.areaStripes 1 ≤ sRd.fld Fld.protRebuildStripe) ∧
    (sRb.rebuildDue = true ∧
      sRb.itemInHand.snd < sRb.areaStripes sRb.itemInHand.fst ∧
      sRb.rebuilding = false) ∧
    (sRb2.rebuildDue = true ∧
      sRb2.itemInHand.snd < sRb2.areaStripes sRb2.itemInHand.fst ∧
      sRb2.rebuilding = true ∧
      (∃ p, p ∈ sRb2.survivors ∧ sRb2.hasSource sRb2.itemInHand.fst sRb2.itemInHand.snd (sRb2.roleOf p sRb2.itemInHand.fst sRb2.itemInHand.snd) = false)) ∧
    (sRb1.rebuildDue = true ∧
      sRb1.itemInHand.snd < sRb1.areaStripes sRb1.itemInHand.fst ∧
      sRb1.rebuilding = true ∧
      (∀ (p : Nat), p ∈ sRb1.survivors → sRb1.hasSource sRb1.itemInHand.fst sRb1.itemInHand.snd (sRb1.roleOf p sRb1.itemInHand.fst sRb1.itemInHand.snd) = true) ∧
      sRb1.heldDeltas = [] ∧
      sRb1.solve sRb1.itemInHand.fst sRb1.itemInHand.snd = some ((sRb1.solve 0 7).getD []) ∧
      sRb1.itemInHand.fst = 0) ∧
    (sRb4.rebuildDue = true ∧
      sRb4.itemInHand.snd < sRb4.areaStripes sRb4.itemInHand.fst ∧
      sRb4.rebuilding = true ∧
      (∀ (p : Nat), p ∈ sRb4.survivors → sRb4.hasSource sRb4.itemInHand.fst sRb4.itemInHand.snd (sRb4.roleOf p sRb4.itemInHand.fst sRb4.itemInHand.snd) = true) ∧
      sRb4.heldDeltas = [] ∧
      sRb4.solve sRb4.itemInHand.fst sRb4.itemInHand.snd = none) ∧
    (slotSub (recoverySlot 5 0 41 600 1 0 0 7) = 5 ∧
      sLo.grouped = true) ∧
    (slotSub (recoverySlot 6 0 41 600 1 0 0 7) = 6 ∧
      sLo.grouped = true ∧
      sLo.heldDeltas = []) ∧
    (slotSub (recoverySlot 11 0 41 600 1 0 0 7) = 11 ∧
      sLo.posOf (slotSubject (recoverySlot 11 0 41 600 1 0 0 7)) = some 0) ∧
    (slotSub (recoverySlot 10 0 41 600 1 0 0 7) = 10) ∧
    (slotSub (recoverySlot 7 0 41 600 1 2 0 69) = 7 ∧
      sFr2.grouped = true ∧
      sFr2.holdsData 2 (slotStripe (recoverySlot 7 0 41 600 1 2 0 69)) = true ∧
      (sFr2.frames.get (frameKey (slotStripe (recoverySlot 7 0 41 600 1 2 0 69) % 32) (slotStripe (recoverySlot 7 0 41 600 1 2 0 69) / 32))).used = true) ∧
    (slotSub (recoverySlot 7 0 41 600 1 2 0 70) = 7 ∧
      sFr2.grouped = true ∧
      sFr2.holdsData 2 (slotStripe (recoverySlot 7 0 41 600 1 2 0 70)) = true ∧
      (sFr2.frames.get (frameKey (slotStripe (recoverySlot 7 0 41 600 1 2 0 70) % 32) (slotStripe (recoverySlot 7 0 41 600 1 2 0 70) / 32))).used = false) ∧
    (slotSub (recoverySlot 8 0 41 600 1 2 3 101) = 8 ∧
      sFr.grouped = true ∧
      slotArea (recoverySlot 8 0 41 600 1 2 3 101) = 2 ∧
      16 ≤ sFr.roleOf sFr.myPos 2 (slotStripe (recoverySlot 8 0 41 600 1 2 3 101)) ∧
      ((sFr.flashStripes.get (slotStripe (recoverySlot 8 0 41 600 1 2 3 101))).here ||| ((sFr.flashStripes.get (slotStripe (recoverySlot 8 0 41 600 1 2 3 101))).dead ||| 2 ^ (slotIndex (recoverySlot 8 0 41 600 1 2 3 101) % 16))) &&& sFr.allIndices ≠ sFr.allIndices) ∧
    (slotSub (recoverySlot 9 0 41 600 1 2 0 69) = 9 ∧
      sFr2.grouped = true) ∧
    (sFt.grouped = true ∧
      sFt.roleOf sFt.myPos 2 96 = 16 ∧
      (sFt.flashStripes.get 96).opened = true ∧
      (sFt.flashStripes.get 96).closed = false ∧
      ((sFt.flashStripes.get 96).here ||| (sFt.flashStripes.get 96).dead) &&& sFt.allIndices ≠ sFt.allIndices ∧
      (sFt.flashStripes.get 96).since + 1000 * max 10 (min 65535 (sFt.fld Fld.protCtrlCloseMs)) ≤ sFt.us ∧
      sFt.flag Fld.twbCtrlGo = false) := by
  refine ⟨?_, ?_, ?_, ?_, ?_, ?_, ?_, ?_, ?_, ?_, ?_, ?_, ?_, ?_, ?_⟩
  · decide +kernel
  · decide +kernel
  · decide +kernel
  · decide +kernel
  · exact ⟨by decide +kernel,
      by decide +kernel,
      by decide +kernel,
      by decide +kernel,
      by decide +kernel,
      by rw [show sRb1.itemInHand = (0, 7) by decide +kernel]; exact present (by decide +kernel),
      by decide +kernel⟩
  · decide +kernel
  · decide +kernel
  · decide +kernel
  · decide +kernel
  · decide +kernel
  · decide +kernel
  · decide +kernel
  · decide +kernel
  · decide +kernel
  · decide +kernel

theorem witness_BusTargetServesTransfers :
    (Claims.BusHere base 0 ∧
      (base.busPair 0).fillAt = none ∧
      base.fld Fld.pwrStateState ≠ 1) ∧
    (Claims.BusHere sB2 0 ∧
      (sB2.busPair 0).role = BusRole.write ∧
      (sB2.busPair 0).pointed = false) ∧
    (Claims.BusHere sB3 0 ∧
      (sB3.busPair 0).role = BusRole.read ∧
      (sB3.busPair 0).snapAt ≠ some ((sB3.busPair 0).pointer - (sB3.busPair 0).pointer % 8) ∧
      (sB3.busPair 0).pointer < 65536) ∧
    (Claims.BusHere sB83 0 ∧
      (sB83.busPair 0).role = BusRole.write ∧
      (sB83.busPair 0).pointed = true ∧
      (sB83.busPair 0).fillAt = none ∧
      (sB83.busPair 0).pointer % 8 < 7 ∧
      sB83.busTakes (sB83.busPair 0).pointer = true) ∧
    (Claims.BusHere sB80 0 ∧
      (sB80.busPair 0).role = BusRole.write ∧
      (sB80.busPair 0).pointed = true ∧
      (sB80.busPair 0).fillAt = none ∧
      (sB80.busPair 0).pointer % 8 < 7 ∧
      sB80.busTakes (sB80.busPair 0).pointer = false) ∧
    (Claims.BusHere sB3 0 ∧
      (sB3.busPair 0).role = BusRole.read) ∧
    (Claims.BusHere sB5 0 ∧
      (sB5.busPair 0).role = BusRole.alert) ∧
    (Claims.BusHere base 0 ∧
      (base.busPair 0).fillAt = none ∧
      base.sleepHeld = false) ∧
    (Claims.BusHere base 0 ∧
      (base.busPair 0).fillAt = none ∧
      base.xfer = none ∧
      (base.busPair 0).waits = 0) ∧
    (Claims.BusHere sB6 0 ∧
      (sB6.busPair 0).fillAt = none ∧
      sB6.xfer = none ∧
      3 ≤ (sB6.busPair 0).waits) ∧
    (sBw.fld Fld.pwrStateState = 2 ∧
      sBw.pwrgood = true ∧
      0 < 2 ∧
      (sBw.busPair 0).state ≠ BusState.dead ∧
      176 % 256 / 2 = sBw.busAddr ∧
      sBw.flag Fld.twbCtrlGo = false) := by
  refine ⟨?_, ?_, ?_, ?_, ?_, ?_, ?_, ?_, ?_, ?_, ?_⟩
  · unfold Claims.BusHere; decide +kernel
  · unfold Claims.BusHere; decide +kernel
  · unfold Claims.BusHere; decide +kernel
  · unfold Claims.BusHere; decide +kernel
  · unfold Claims.BusHere; decide +kernel
  · unfold Claims.BusHere; decide +kernel
  · unfold Claims.BusHere; decide +kernel
  · unfold Claims.BusHere; decide +kernel
  · unfold Claims.BusHere; decide +kernel
  · unfold Claims.BusHere; decide +kernel
  · decide +kernel

theorem witness_BusCallsAndTransfers :
    (sBa.mayCall = true ∧
      sBa.pairIdle 0 = true ∧
      sBa.flag Fld.twbCtrlGo = false) ∧
    (sBb.attn.last = some 1000 ∧
      sBb.mayCall = true ∧
      1000 + sBb.attn.interval ≤ sBb.us ∧
      sBb.flag Fld.twbCtrlGo = false) ∧
    (sBp.flag Fld.pwrMbCtrlPollEn = true ∧
      sBp.pairIdle 0 = true ∧
      sBp.calling = false ∧
      sBp.fld Fld.pwrStateState ≠ 2 ∧
      sBp.flag Fld.twbCtrlGo = false) ∧
    (sBa.flag Fld.glbClkLock = true) ∧
    (base.coreUp = true ∧
      base.hostMay 64 = true ∧
      base.isPriv 64 = true) ∧
    (base.coreUp = true ∧
      base.hostMay 0 = true ∧
      base.isPriv 0 = false) ∧
    (base.busUp = true ∧
      base.xfer = none ∧
      base.flag Fld.twbCtrlGo = false ∧
      ((base.wr Reg.pwrMbXcmd 0 0 (setBits (2 ^ 31 + 32) 31 1 0)).setFld Fld.pwrMbXstatDoneBytes 0).xferPair (((base.wr Reg.pwrMbXcmd 0 0 (setBits (2 ^ 31 + 32) 31 1 0)).setFld Fld.pwrMbXstatDoneBytes 0).fld Fld.pwrMbXcmdPair) = some 0) ∧
    (sBd2.busUp = true ∧
      sBd2.xfer = none ∧
      sBd2.flag Fld.twbCtrlGo = false ∧
      ((sBd2.wr Reg.pwrMbXcmd 0 0 (setBits (2 ^ 31 + 32) 31 1 0)).setFld Fld.pwrMbXstatDoneBytes 0).xferPair (((sBd2.wr Reg.pwrMbXcmd 0 0 (setBits (2 ^ 31 + 32) 31 1 0)).setFld Fld.pwrMbXstatDoneBytes 0).fld Fld.pwrMbXcmdPair) = none) ∧
    (sBx.xfer = some { pair := 0 : BusXfer } ∧
      sBx.flag Fld.twbCtrlGo = false ∧
      2 ∈ [2, 3, 4, 7] ∧
      0 < 2 ^ Fld.pwrMbXstatDoneBytes.width) ∧
    (sBx.xfer = some { pair := 0 : BusXfer } ∧
      sBx.flag Fld.twbCtrlGo = false ∧
      { pair := 0 : BusXfer }.retries < sBx.fld Fld.pwrMbCtrlArbRetry) ∧
    (sBx2.xfer = some { pair := 1, retries := 2 : BusXfer } ∧
      sBx2.flag Fld.twbCtrlGo = false ∧
      sBx2.fld Fld.pwrMbCtrlArbRetry ≤ { pair := 1, retries := 2 : BusXfer }.retries) ∧
    (Claims.BusHere sBa 0) ∧
    (Claims.BusHere sBa 0 ∧
      (sBa.busPair 0).tries < 2) ∧
    (Claims.BusHere sBt 0 ∧
      2 ≤ (sBt.busPair 0).tries ∧
      sBt.xfer = none) ∧
    (sBd.busUp = true ∧
      0 < 2 ∧
      sBd.pairDead 0 = true) := by
  refine ⟨?_, ?_, ?_, ?_, ?_, ?_, ?_, ?_, ?_, ?_, ?_, ?_, ?_, ?_, ?_⟩
  · decide +kernel
  · decide +kernel
  · decide +kernel
  · decide +kernel
  · decide +kernel
  · decide +kernel
  · decide +kernel
  · decide +kernel
  · decide +kernel
  · decide +kernel
  · decide +kernel
  · unfold Claims.BusHere; decide +kernel
  · unfold Claims.BusHere; decide +kernel
  · unfold Claims.BusHere; decide +kernel
  · decide +kernel

theorem witness_PowerStatesAndRails :
    (sQl.coreUp = true ∧
      sQl.fld Fld.pwrStateState ≤ 1 ∧
      sQl.sleepHeld = false ∧
      sQl.lockedOut 1 = true) ∧
    (sQl.coreUp = true ∧
      sQl.fld Fld.pwrStateState ≤ 1 ∧
      sQl.sleepHeld = false ∧
      sQl.lockedOut 1 = true) ∧
    (sQl.coreUp = true ∧
      sQl.fld Fld.pwrStateState ≤ 1 ∧
      sQl.sleepHeld = false ∧
      sQl.lockedOut 1 = true) ∧
    (sQ.coreUp = true ∧
      sQ.fld Fld.pwrStateState ≤ 1 ∧
      sQ.sleepHeld = false ∧
      sQ.lockedOut 0 = false ∧
      sQ.mayDoze = true) ∧
    (sQ.coreUp = true ∧
      sQ.fld Fld.pwrStateState ≤ 1 ∧
      sQ.sleepHeld = false ∧
      sQ.lockedOut 0 = false ∧
      sQ.mayDoze = true ∧
      sQ.busTalks = false) ∧
    (sQb.coreUp = true ∧
      sQb.fld Fld.pwrStateState ≤ 1 ∧
      sQb.sleepHeld = false ∧
      sQb.lockedOut 0 = false ∧
      sQb.mayDoze = true ∧
      sQb.busTalks = true) ∧
    (base.coreUp = true ∧
      base.fld Fld.pwrStateState ≤ 1 ∧
      base.sleepHeld = false ∧
      base.lockedOut 0 = false ∧
      base.mayDoze = false) ∧
    (base.coreUp = true ∧
      base.fld Fld.pwrStateState ≤ 1 ∧
      base.sleepHeld = false ∧
      base.lockedOut 0 = false ∧
      base.mayDoze = false) ∧
    (base.coreUp = true ∧
      base.fld Fld.pwrStateState ≤ 1 ∧
      base.sleepHeld = false ∧
      base.lockedOut 0 = false) ∧
    (sQd.fld Fld.pwrStateState = 1 ∧
      sQd.sleepHeld = false) ∧
    (base.fld Fld.pwrStateState ≠ 1) ∧
    (sQs.fld Fld.pwrStateState = 2 ∧
      sQs.waking = true) ∧
    ((sQs.fld Fld.pwrStateState = 2 ∨ sQs.sleepHeld = true)) ∧
    (base.fld Fld.pwrStateState ≠ 2 ∧
      base.sleepHeld = false) ∧
    (sV.standby = false) ∧
    (sVs.standby = true ∧
      sVs.halted = false ∧
      sVs.pwrgood = false ∧
      127 % 128 = 127) ∧
    (sVs.standby = true ∧
      sVs.halted = false ∧
      sVs.pwrgood = false ∧
      126 % 128 ≠ 127) ∧
    (base.pwrgood = true ∧
      base.halted = false) ∧
    (base.pwrgood = true) ∧
    (base.coreUp = true ∧
      base.fld Fld.pwrStateState ≠ 2) := by
  refine ⟨?_, ?_, ?_, ?_, ?_, ?_, ?_, ?_, ?_, ?_, ?_, ?_, ?_, ?_, ?_, ?_, ?_, ?_, ?_, ?_⟩
  · decide +kernel
  · decide +kernel
  · decide +kernel
  · decide +kernel
  · decide +kernel
  · decide +kernel
  · decide +kernel
  · decide +kernel
  · decide +kernel
  · decide +kernel
  · decide +kernel
  · decide +kernel
  · decide +kernel
  · decide +kernel
  · decide +kernel
  · decide +kernel
  · decide +kernel
  · decide +kernel
  · decide +kernel
  · decide +kernel

theorem witness_StartsAndFirmware :
    (sCs.starting = some { step := 3, cold := true : Starting } ∧
      sCs.spiHiz = false ∧
      sCs.halted = false ∧
      fact [1, 16, 2, 5600, 0, 0, 0, 64, 0, 0, 0, 15] 9 = 0 ∧
      sCs.trial = none ∧
      sCs.slotOk sCs.bootSlot = true ∧
      populationOk [1, 16, 2, 5600, 0, 0, 0, 64, 0, 0, 0, 15] = true ∧
      fact [1, 16, 2, 5600, 0, 0, 0, 64, 0, 0, 0, 15] 5 = 0) ∧
    (sCs.starting = some { step := 3, cold := true : Starting } ∧
      sCs.spiHiz = false ∧
      sCs.halted = false ∧
      fact [1, 16, 2, 5600, 0, 0, 0, 64, 0, 3, 0, 15] 9 ≠ 0) ∧
    (sCs2.starting = some { step := 3, cold := true : Starting } ∧
      sCs2.spiHiz = false ∧
      sCs2.halted = false ∧
      fact [1, 16, 2, 5600, 0, 0, 0, 64, 0, 0, 0, 15] 9 = 0 ∧
      sCs2.trial = none ∧
      sCs2.slotOk 0 = false ∧
      sCs2.slotOk 1 = false ∧
      sCs2.bootSlot < 2) ∧
    (sCs.starting = some { step := 3, cold := true : Starting } ∧
      sCs.spiHiz = false ∧
      sCs.halted = false ∧
      fact [3, 16, 2, 5600, 0, 0, 0, 64, 0, 0, 0, 15] 9 = 0 ∧
      sCs.trial = none ∧
      sCs.slotOk sCs.bootSlot = true ∧
      populationOk [3, 16, 2, 5600, 0, 0, 0, 64, 0, 0, 0, 15] = false) ∧
    (sCs.starting = some { step := 3, cold := true : Starting } ∧
      sCs.spiHiz = false ∧
      sCs.halted = false) ∧
    (sC2.starting = some { step := 2, cold := true : Starting }) ∧
    (sTr.starting = some { step := 5, cold := false : Starting } ∧
      5 ≤ 5 ∧
      5 ≤ 7 ∧
      sTr.trial = some 1 ∧
      sTr.slotOk 1 = true ∧
      sTr.fld Fld.pwrFwStatAttempts < 2) ∧
    (sTr2.starting = some { step := 5, cold := false : Starting } ∧
      5 ≤ 5 ∧
      5 ≤ 7 ∧
      sTr2.trial = some 1 ∧
      sTr2.slotOk 1 = true ∧
      sTr2.fld Fld.pwrFwStatAttempts = 2) ∧
    (0 ≠ 213) ∧
    (sDv.coreUp = true ∧
      sDv.flag Fld.pwrStartFail = false ∧
      sDv.trial = none ∧
      sDv.staging = none ∧
      sDv.slotOk sDv.bootSlot = true ∧
      (∀ (e : Nat × Cmd), e ∈ sDv.cmds → e.snd.step = false)) ∧
    (sDvl.coreUp = true ∧
      sDvl.lockedOut 1 = true) ∧
    (sDv.coreUp = true ∧
      sDv.privCmds = []) ∧
    (sDv.coreUp = true ∧
      sDv.privCmds = [] ∧
      sDv.lockedOut 0 = false) ∧
    (sCf.spiHiz = false ∧
      sCf.coreUp = true ∧
      sCf.config = some (sCf.config.getD { seq := 0, fm := 0, system := 0, order := 0, hash := [], starts := 0 : NorConfig }) ∧
      sCf.configNow (sCf.config.getD { seq := 0, fm := 0, system := 0, order := 0, hash := [], starts := 0 : NorConfig }).seq = sCf.config.getD { seq := 0, fm := 0, system := 0, order := 0, hash := [], starts := 0 : NorConfig }) ∧
    (sCf2.spiHiz = false ∧
      sCf2.coreUp = true ∧
      sCf2.config = some (sCf2.config.getD { seq := 0, fm := 0, system := 0, order := 0, hash := [], starts := 0 : NorConfig }) ∧
      sCf2.configNow (sCf2.config.getD { seq := 0, fm := 0, system := 0, order := 0, hash := [], starts := 0 : NorConfig }).seq ≠ sCf2.config.getD { seq := 0, fm := 0, system := 0, order := 0, hash := [], starts := 0 : NorConfig }) ∧
    (sDv.spiHiz = false ∧
      sDv.coreUp = true ∧
      sDv.config = none) ∧
    (sFw.coreUp = true ∧
      sFw.spiHiz = false ∧
      sFw.fld Fld.pwrFwStatStatus ≠ 1 ∧
      sFw.privFn ≠ none) ∧
    (sFw1.coreUp = true ∧
      sFw1.spiHiz = false ∧
      sFw1.fld Fld.pwrFwStatStatus = 1) ∧
    (sFw1.coreUp = true ∧
      sFw1.spiHiz = false ∧
      sFw1.staging = some (sFw1.staging.getD { slot := 0, result := 0, image := { } }) ∧
      (sFw1.staging.getD { slot := 0, result := 0, image := { } }).result < 8) ∧
    (sFw.coreUp = true ∧
      sFw.spiHiz = false ∧
      sFw.slotOk (sFw.fld Fld.pwrFwCtrlSlot) = true ∧
      Option.map (fun x => x.slot) sFw.staging ≠ some (sFw.fld Fld.pwrFwCtrlSlot)) ∧
    (sFwN.coreUp = true ∧
      sFwN.spiHiz = false ∧
      sFwN.slotOk (sFwN.fld Fld.pwrFwCtrlSlot) = false) ∧
    (sFw.coreUp = true ∧
      sFw.spiHiz = false) := by
  refine ⟨?_, ?_, ?_, ?_, ?_, ?_, ?_, ?_, ?_, ?_, ?_, ?_, ?_, ?_, ?_, ?_, ?_, ?_, ?_, ?_, ?_, ?_⟩
  · decide +kernel
  · decide +kernel
  · decide +kernel
  · decide +kernel
  · decide +kernel
  · decide +kernel
  · decide +kernel
  · decide +kernel
  · decide +kernel
  · decide +kernel
  · decide +kernel
  · decide +kernel
  · decide +kernel
  · decide +kernel
  · decide +kernel
  · decide +kernel
  · decide +kernel
  · decide +kernel
  · decide +kernel
  · decide +kernel
  · decide +kernel
  · decide +kernel

theorem witness_EventLogAndRegisterWrites :
    (base.flag Fld.glbClkLock = true ∧
      base.lockedOut 0 = false ∧
      (4294967296 % 2 ^ 32 + 2 ^ 32 - base.fld Fld.evtConsCons) % 2 ^ 32 ≤ base.evFill) ∧
    (base.flag Fld.glbClkLock = true ∧
      base.lockedOut 0 = false ∧
      base.evFill < (3 % 2 ^ 32 + 2 ^ 32 - base.fld Fld.evtConsCons) % 2 ^ 32) ∧
    (base.flag Fld.glbClkLock = true) ∧
    (sEv1.flag Fld.glbClkLock = true ∧
      sEv1.lockedOut (0 + 1) = false ∧
      sEv1.evFill ≠ 0) ∧
    (base.flag Fld.glbClkLock = true ∧
      base.lockedOut (0 + 1) = false ∧
      base.evFill = 0) ∧
    (sEvL.flag Fld.glbClkLock = true ∧
      sEvL.lockedOut (0 + 1) = true) ∧
    (sEvL.flag Fld.glbClkLock = true ∧
      sEvL.lockedOut (0 + 1) = true) ∧
    (sEv1.coreUp = true ∧
      sEv1.hostMay 64 = true ∧
      16 < 16711680 ∧
      16 % 8 = 0 ∧
      sEv1.isPriv 64 = true ∧
      Reg.find false 16 = some (Reg.glbSeamState, 0, 0) ∧
      (¬Reg.glbSeamState ∈ Claims.acting) ∧
      (∀ (e : Fld × Nat × Nat), e ∈ fieldLimits → e.fst.reg ≠ Reg.glbSeamState) ∧
      sEv1.flag Fld.twbCtrlGo = false) ∧
    (sRw.coreUp = true ∧
      sRw.hostMay 0 = true ∧
      0 < 16711680 ∧
      0 % 8 = 0 ∧
      sRw.isPriv 0 = false ∧
      (sRw.fn 0).vf = 0) ∧
    (sRw.coreUp = true ∧
      sRw.hostMay 64 = true ∧
      0 < 16711680 ∧
      0 % 8 = 0 ∧
      (sRw.fn 64).vf = 0 ∧
      0 < 65536) := by
  refine ⟨?_, ?_, ?_, ?_, ?_, ?_, ?_, ?_, ?_, ?_⟩
  · decide +kernel
  · decide +kernel
  · decide +kernel
  · decide +kernel
  · decide +kernel
  · decide +kernel
  · decide +kernel
  · decide +kernel
  · decide +kernel
  · decide +kernel

theorem witness_LayoutsReadBack :
    ({ seq := 4095, ack := 4095, nak := true, typ := 7, vc := 3, cvc := 3, ccount := 1023 : FlitHead }.seq < 2 ^ 12 ∧
      { seq := 4095, ack := 4095, nak := true, typ := 7, vc := 3, cvc := 3, ccount := 1023 : FlitHead }.ack < 2 ^ 12 ∧
      { seq := 4095, ack := 4095, nak := true, typ := 7, vc := 3, cvc := 3, ccount := 1023 : FlitHead }.typ < 8 ∧
      { seq := 4095, ack := 4095, nak := true, typ := 7, vc := 3, cvc := 3, ccount := 1023 : FlitHead }.vc < 4 ∧
      { seq := 4095, ack := 4095, nak := true, typ := 7, vc := 3, cvc := 3, ccount := 1023 : FlitHead }.cvc < 4 ∧
      { seq := 4095, ack := 4095, nak := true, typ := 7, vc := 3, cvc := 3, ccount := 1023 : FlitHead }.ccount < 2 ^ 10) ∧
    ({ seq := 4095, ack := 4095, nak := true, typ := 7, vc := 3, cvc := 3, ccount := 1023 : FlitHead }.seq < 2 ^ 12 ∧
      { seq := 4095, ack := 4095, nak := true, typ := 7, vc := 3, cvc := 3, ccount := 1023 : FlitHead }.ack < 2 ^ 12 ∧
      { seq := 4095, ack := 4095, nak := true, typ := 7, vc := 3, cvc := 3, ccount := 1023 : FlitHead }.typ < 8 ∧
      { seq := 4095, ack := 4095, nak := true, typ := 7, vc := 3, cvc := 3, ccount := 1023 : FlitHead }.vc < 4 ∧
      { seq := 4095, ack := 4095, nak := true, typ := 7, vc := 3, cvc := 3, ccount := 1023 : FlitHead }.cvc < 4 ∧
      { seq := 4095, ack := 4095, nak := true, typ := 7, vc := 3, cvc := 3, ccount := 1023 : FlitHead }.ccount < 2 ^ 10) ∧
    ((List.replicate 240 7#8).length = 240) ∧
    ({ dev := 1023, sys := 63, orgDev := 1023, orgSys := 63, kind := 255, blend := 63, tier := 3, len := 511, tag := 65535, fn := 255, epoch := 255, devwork := true, detour := true : MsgHead }.dev < 2 ^ 10 ∧
      { dev := 1023, sys := 63, orgDev := 1023, orgSys := 63, kind := 255, blend := 63, tier := 3, len := 511, tag := 65535, fn := 255, epoch := 255, devwork := true, detour := true : MsgHead }.sys < 2 ^ 6 ∧
      { dev := 1023, sys := 63, orgDev := 1023, orgSys := 63, kind := 255, blend := 63, tier := 3, len := 511, tag := 65535, fn := 255, epoch := 255, devwork := true, detour := true : MsgHead }.orgDev < 2 ^ 10 ∧
      { dev := 1023, sys := 63, orgDev := 1023, orgSys := 63, kind := 255, blend := 63, tier := 3, len := 511, tag := 65535, fn := 255, epoch := 255, devwork := true, detour := true : MsgHead }.orgSys < 2 ^ 6 ∧
      { dev := 1023, sys := 63, orgDev := 1023, orgSys := 63, kind := 255, blend := 63, tier := 3, len := 511, tag := 65535, fn := 255, epoch := 255, devwork := true, detour := true : MsgHead }.kind < 2 ^ 8 ∧
      { dev := 1023, sys := 63, orgDev := 1023, orgSys := 63, kind := 255, blend := 63, tier := 3, len := 511, tag := 65535, fn := 255, epoch := 255, devwork := true, detour := true : MsgHead }.blend < 2 ^ 6 ∧
      { dev := 1023, sys := 63, orgDev := 1023, orgSys := 63, kind := 255, blend := 63, tier := 3, len := 511, tag := 65535, fn := 255, epoch := 255, devwork := true, detour := true : MsgHead }.tier < 4 ∧
      { dev := 1023, sys := 63, orgDev := 1023, orgSys := 63, kind := 255, blend := 63, tier := 3, len := 511, tag := 65535, fn := 255, epoch := 255, devwork := true, detour := true : MsgHead }.len < 2 ^ 9 ∧
      { dev := 1023, sys := 63, orgDev := 1023, orgSys := 63, kind := 255, blend := 63, tier := 3, len := 511, tag := 65535, fn := 255, epoch := 255, devwork := true, detour := true : MsgHead }.tag < 2 ^ 16 ∧
      { dev := 1023, sys := 63, orgDev := 1023, orgSys := 63, kind := 255, blend := 63, tier := 3, len := 511, tag := 65535, fn := 255, epoch := 255, devwork := true, detour := true : MsgHead }.fn < 2 ^ 8 ∧
      { dev := 1023, sys := 63, orgDev := 1023, orgSys := 63, kind := 255, blend := 63, tier := 3, len := 511, tag := 65535, fn := 255, epoch := 255, devwork := true, detour := true : MsgHead }.epoch < 2 ^ 8 ∧
      { dev := 1023, sys := 63, orgDev := 1023, orgSys := 63, kind := 255, blend := 63, tier := 3, len := 511, tag := 65535, fn := 255, epoch := 255, devwork := true, detour := true : MsgHead }.lift = false) ∧
    ({ dev := 1023, sys := 63, orgDev := 1023, orgSys := 63, kind := 255, blend := 63, tier := 3, len := 511, tag := 65535, fn := 255, epoch := 255, devwork := true, detour := true : MsgHead }.dev < 2 ^ 10 ∧
      { dev := 1023, sys := 63, orgDev := 1023, orgSys := 63, kind := 255, blend := 63, tier := 3, len := 511, tag := 65535, fn := 255, epoch := 255, devwork := true, detour := true : MsgHead }.sys < 2 ^ 6 ∧
      { dev := 1023, sys := 63, orgDev := 1023, orgSys := 63, kind := 255, blend := 63, tier := 3, len := 511, tag := 65535, fn := 255, epoch := 255, devwork := true, detour := true : MsgHead }.orgDev < 2 ^ 10 ∧
      { dev := 1023, sys := 63, orgDev := 1023, orgSys := 63, kind := 255, blend := 63, tier := 3, len := 511, tag := 65535, fn := 255, epoch := 255, devwork := true, detour := true : MsgHead }.orgSys < 2 ^ 6 ∧
      { dev := 1023, sys := 63, orgDev := 1023, orgSys := 63, kind := 255, blend := 63, tier := 3, len := 511, tag := 65535, fn := 255, epoch := 255, devwork := true, detour := true : MsgHead }.kind < 2 ^ 8 ∧
      { dev := 1023, sys := 63, orgDev := 1023, orgSys := 63, kind := 255, blend := 63, tier := 3, len := 511, tag := 65535, fn := 255, epoch := 255, devwork := true, detour := true : MsgHead }.blend < 2 ^ 6 ∧
      { dev := 1023, sys := 63, orgDev := 1023, orgSys := 63, kind := 255, blend := 63, tier := 3, len := 511, tag := 65535, fn := 255, epoch := 255, devwork := true, detour := true : MsgHead }.tier < 4 ∧
      { dev := 1023, sys := 63, orgDev := 1023, orgSys := 63, kind := 255, blend := 63, tier := 3, len := 511, tag := 65535, fn := 255, epoch := 255, devwork := true, detour := true : MsgHead }.len < 2 ^ 9 ∧
      { dev := 1023, sys := 63, orgDev := 1023, orgSys := 63, kind := 255, blend := 63, tier := 3, len := 511, tag := 65535, fn := 255, epoch := 255, devwork := true, detour := true : MsgHead }.tag < 2 ^ 16 ∧
      { dev := 1023, sys := 63, orgDev := 1023, orgSys := 63, kind := 255, blend := 63, tier := 3, len := 511, tag := 65535, fn := 255, epoch := 255, devwork := true, detour := true : MsgHead }.fn < 2 ^ 8 ∧
      { dev := 1023, sys := 63, orgDev := 1023, orgSys := 63, kind := 255, blend := 63, tier := 3, len := 511, tag := 65535, fn := 255, epoch := 255, devwork := true, detour := true : MsgHead }.epoch < 2 ^ 8 ∧
      { dev := 1023, sys := 63, orgDev := 1023, orgSys := 63, kind := 255, blend := 63, tier := 3, len := 511, tag := 65535, fn := 255, epoch := 255, devwork := true, detour := true : MsgHead }.lift = false) ∧
    ({ dev := 1023, sys := 63, orgDev := 1023, orgSys := 63, kind := 255, blend := 63, tier := 3, len := 511, tag := 65535, fn := 255, epoch := 255, devwork := true, detour := true : MsgHead }.dev < 2 ^ 10 ∧
      { dev := 1023, sys := 63, orgDev := 1023, orgSys := 63, kind := 255, blend := 63, tier := 3, len := 511, tag := 65535, fn := 255, epoch := 255, devwork := true, detour := true : MsgHead }.sys < 2 ^ 6 ∧
      { dev := 1023, sys := 63, orgDev := 1023, orgSys := 63, kind := 255, blend := 63, tier := 3, len := 511, tag := 65535, fn := 255, epoch := 255, devwork := true, detour := true : MsgHead }.orgDev < 2 ^ 10 ∧
      { dev := 1023, sys := 63, orgDev := 1023, orgSys := 63, kind := 255, blend := 63, tier := 3, len := 511, tag := 65535, fn := 255, epoch := 255, devwork := true, detour := true : MsgHead }.orgSys < 2 ^ 6 ∧
      { dev := 1023, sys := 63, orgDev := 1023, orgSys := 63, kind := 255, blend := 63, tier := 3, len := 511, tag := 65535, fn := 255, epoch := 255, devwork := true, detour := true : MsgHead }.kind < 2 ^ 8 ∧
      { dev := 1023, sys := 63, orgDev := 1023, orgSys := 63, kind := 255, blend := 63, tier := 3, len := 511, tag := 65535, fn := 255, epoch := 255, devwork := true, detour := true : MsgHead }.blend < 2 ^ 6 ∧
      { dev := 1023, sys := 63, orgDev := 1023, orgSys := 63, kind := 255, blend := 63, tier := 3, len := 511, tag := 65535, fn := 255, epoch := 255, devwork := true, detour := true : MsgHead }.tier < 4 ∧
      { dev := 1023, sys := 63, orgDev := 1023, orgSys := 63, kind := 255, blend := 63, tier := 3, len := 511, tag := 65535, fn := 255, epoch := 255, devwork := true, detour := true : MsgHead }.len < 2 ^ 9 ∧
      { dev := 1023, sys := 63, orgDev := 1023, orgSys := 63, kind := 255, blend := 63, tier := 3, len := 511, tag := 65535, fn := 255, epoch := 255, devwork := true, detour := true : MsgHead }.tag < 2 ^ 16 ∧
      { dev := 1023, sys := 63, orgDev := 1023, orgSys := 63, kind := 255, blend := 63, tier := 3, len := 511, tag := 65535, fn := 255, epoch := 255, devwork := true, detour := true : MsgHead }.fn < 2 ^ 8 ∧
      { dev := 1023, sys := 63, orgDev := 1023, orgSys := 63, kind := 255, blend := 63, tier := 3, len := 511, tag := 65535, fn := 255, epoch := 255, devwork := true, detour := true : MsgHead }.epoch < 2 ^ 8 ∧
      { dev := 1023, sys := 63, orgDev := 1023, orgSys := 63, kind := 255, blend := 63, tier := 3, len := 511, tag := 65535, fn := 255, epoch := 255, devwork := true, detour := true : MsgHead }.lift = false) ∧
    ({ base := 2 ^ 36 - 1, count := 15, codec := 7, key := 1023, enc := true, check := 2 ^ 32 - 1, mapped := true, poison := true : PageEntry }.base < 2 ^ 36 ∧
      { base := 2 ^ 36 - 1, count := 15, codec := 7, key := 1023, enc := true, check := 2 ^ 32 - 1, mapped := true, poison := true : PageEntry }.count < 16 ∧
      { base := 2 ^ 36 - 1, count := 15, codec := 7, key := 1023, enc := true, check := 2 ^ 32 - 1, mapped := true, poison := true : PageEntry }.codec < 8 ∧
      { base := 2 ^ 36 - 1, count := 15, codec := 7, key := 1023, enc := true, check := 2 ^ 32 - 1, mapped := true, poison := true : PageEntry }.key < 2 ^ 10 ∧
      { base := 2 ^ 36 - 1, count := 15, codec := 7, key := 1023, enc := true, check := 2 ^ 32 - 1, mapped := true, poison := true : PageEntry }.check < 2 ^ 32) ∧
    ({ base := 2 ^ 36 - 1, count := 15, codec := 7, key := 1023, enc := true, check := 2 ^ 32 - 1, mapped := true, poison := true : PageEntry }.base < 2 ^ 36 ∧
      { base := 2 ^ 36 - 1, count := 15, codec := 7, key := 1023, enc := true, check := 2 ^ 32 - 1, mapped := true, poison := true : PageEntry }.count < 16 ∧
      { base := 2 ^ 36 - 1, count := 15, codec := 7, key := 1023, enc := true, check := 2 ^ 32 - 1, mapped := true, poison := true : PageEntry }.codec < 8 ∧
      { base := 2 ^ 36 - 1, count := 15, codec := 7, key := 1023, enc := true, check := 2 ^ 32 - 1, mapped := true, poison := true : PageEntry }.key < 2 ^ 10 ∧
      { base := 2 ^ 36 - 1, count := 15, codec := 7, key := 1023, enc := true, check := 2 ^ 32 - 1, mapped := true, poison := true : PageEntry }.check < 2 ^ 32) ∧
    ({ base := 2 ^ 36 - 1, count := 15, codec := 7, key := 1023, enc := true, check := 2 ^ 32 - 1, mapped := true, poison := true : PageEntry }.base < 2 ^ 36 ∧
      { base := 2 ^ 36 - 1, count := 15, codec := 7, key := 1023, enc := true, check := 2 ^ 32 - 1, mapped := true, poison := true : PageEntry }.count < 16 ∧
      { base := 2 ^ 36 - 1, count := 15, codec := 7, key := 1023, enc := true, check := 2 ^ 32 - 1, mapped := true, poison := true : PageEntry }.codec < 8 ∧
      { base := 2 ^ 36 - 1, count := 15, codec := 7, key := 1023, enc := true, check := 2 ^ 32 - 1, mapped := true, poison := true : PageEntry }.key < 2 ^ 10 ∧
      { base := 2 ^ 36 - 1, count := 15, codec := 7, key := 1023, enc := true, check := 2 ^ 32 - 1, mapped := true, poison := true : PageEntry }.check < 2 ^ 32) ∧
    ({ base := 2 ^ 36 - 1, count := 15, codec := 7, key := 1023, enc := true, check := 2 ^ 32 - 1, mapped := true, poison := true : PageEntry }.base < 2 ^ 36 ∧
      { base := 2 ^ 36 - 1, count := 15, codec := 7, key := 1023, enc := true, check := 2 ^ 32 - 1, mapped := true, poison := true : PageEntry }.count < 16 ∧
      { base := 2 ^ 36 - 1, count := 15, codec := 7, key := 1023, enc := true, check := 2 ^ 32 - 1, mapped := true, poison := true : PageEntry }.codec < 8 ∧
      { base := 2 ^ 36 - 1, count := 15, codec := 7, key := 1023, enc := true, check := 2 ^ 32 - 1, mapped := true, poison := true : PageEntry }.key < 2 ^ 10 ∧
      { base := 2 ^ 36 - 1, count := 15, codec := 7, key := 1023, enc := true, check := 2 ^ 32 - 1, mapped := true, poison := true : PageEntry }.check < 2 ^ 32) ∧
    (0 < 1 ∧
      1 < 256 ∧
      (List.replicate 16 255#8).length = 16) := by
  refine ⟨?_, ?_, ?_, ?_, ?_, ?_, ?_, ?_, ?_, ?_, ?_⟩
  · decide +kernel
  · decide +kernel
  · decide +kernel
  · decide +kernel
  · decide +kernel
  · decide +kernel
  · decide +kernel
  · decide +kernel
  · decide +kernel
  · decide +kernel
  · decide +kernel

/-- The device right after reset, with standby power about to rise. -/
def atStart : State := { State.reset with pending := [.vstbyRise 0x229] }

/-- No reset value has a reserved bit. -/
theorem resetValue_defined (r : Reg) : r.resetValue &&& r.mask = r.resetValue := by
  have h : ∀ n < 512, (Reg.ofNat n).resetValue &&& (Reg.ofNat n).mask = (Reg.ofNat n).resetValue := by decide +kernel
  simpa [Reg.ord, Reg.ofNat_ctorIdx] using h r.ord r.ord_lt

/-- A step that answers a next state. -/
theorem steps {s : State} (h : (match step s with | .next _ => true | _ => false) = true) : ∃ t, step s = .next t := by
  cases hs : step s <;> simp_all

theorem witness_StepKeepsSound : Claims.Sound atStart ∧ ∃ t, step atStart = .next t := by
  refine ⟨⟨by decide +kernel, fun r i j => ?_⟩, ?_⟩
  · exact resetValue_defined r
  · exact steps (by decide +kernel)

end Sys2Proof.Tests
end

section
/-! SUPPORT. Proofs about command transport (spec/03): the tail doorbell, and the writes of entries. -/

namespace Sys2Proof.Machine

variable (s : State)

/-! ### What a host's write leaves in place -/

@[simp] theorem State.hostInput_sqs (f : Nat) (bs : List Byte) : (s.hostInput f bs).sqs = s.sqs :=
  Only.hostInput s f bs .sqs (by decide)

@[simp] theorem State.hostInput_findSq (f g i : Nat) (bs : List Byte) : (s.hostInput f bs).findSq g i = s.findSq g i := by
  simp [State.findSq]

@[simp] theorem State.hostInput_hostMay (f g : Nat) (bs : List Byte) : (s.hostInput f bs).hostMay g = s.hostMay g := by
  have h : (s.hostInput f bs).fn g = s.fn g := congrArg (SMap.get · g) (Only.hostInput s f bs .fns (by decide))
  rw [State.hostMay, State.hostMay, h]

@[simp] theorem State.hostInput_poisoned (f off : Nat) (bs : List Byte) : (s.hostInput f bs).poisoned off = s.poisoned off := by
  have h : (s.hostInput f bs).urnPoison = s.urnPoison := Only.hostInput s f bs .urnPoison (by decide)
  simp [State.poisoned, h]

/-! ### An SQ enters ERROR (R76) -/

/-- Beyond the SQ's own record, ERROR changes what logging an event may change. -/
theorem Only.sqError_modSq (q v why : Nat) : Only logFields (s.modSq q fun r => { r with state := .error }) (s.sqError q v why) := by
  unfold State.sqError
  apply Only.trans ?_ ((Only.bump _ _ _ _ _).mono (by decide))
  apply Only.trans ?_ (Only.log _ _ _ _ _)
  split
  · exact ((Only.wr _ _ _ _ _).mono (by decide)).trans ((Only.sendVector _ _ _).mono (by decide))
  · exact (Only.wr _ _ _ _ _).mono (by decide)

theorem Only.sqError (q v why : Nat) : Only (.sqs :: logFields) s (s.sqError q v why) :=
  ((Only.modSq s q _).mono (by decide)).trans ((Only.sqError_modSq s q v why).mono (by decide))

theorem State.sqError_sqs (q v why : Nat) : (s.sqError q v why).sqs = s.sqs.upd q fun r => { r with state := .error } :=
  Only.sqError_modSq s q v why .sqs (by decide)

/-! ### Acceptance and the queues (R78) -/

theorem State.acceptEffect_sqs (tag : Nat) (c : Cmd) : (s.acceptEffect tag c).sqs = s.sqs := by
  unfold State.acceptEffect
  dsimp only
  split
  · rfl
  · split
    · split_ifs <;> rfl
    · split_ifs <;> rfl
    · rfl

@[simp] theorem State.modPair_sqs (a b : Nat) (g : Pair → Pair) : (s.modPair a b g).sqs = s.sqs := rfl

@[simp] theorem State.modRun_sqs (b : Nat) (g : BlendRun → BlendRun) : (s.modRun b g).sqs = s.sqs := rfl

theorem State.chargeWork_sqs (a b x : Nat) : (s.chargeWork a b x).1.sqs = s.sqs := by
  unfold State.chargeWork
  extract_lets p p'
  generalize s.tierAt a b p' = w
  obtain ⟨t, q⟩ := w
  dsimp only
  rw [State.tally_sqs, State.tally_sqs, State.modRun_sqs]
  split
  · rw [State.bump_sqs, State.modPair_sqs]
  · rw [State.modPair_sqs]

theorem State.charge_sqs (tag f e : Nat) : (s.charge tag f e).sqs = s.sqs := by
  have h := s.chargeWork_sqs f (Entry.blend e) (s.chargeBytes f e)
  unfold State.charge
  generalize s.chargeWork f (Entry.blend e) (s.chargeBytes f e) = w at h ⊢
  obtain ⟨t, tier⟩ := w
  exact h

/-- Of the SQs' records acceptance moves the head of its own, whether the entry is taken or refused. -/
theorem State.acceptOne_sqs (q : Nat) : (s.acceptOne q).sqs = s.sqs.upd q fun r => { r with head := (r.head + 1) % r.size } := by
  unfold State.acceptOne
  dsimp only
  split
  · rfl
  · split
    · split_ifs <;> rfl
    · rw [State.charge_sqs, State.acceptEffect_sqs]
      rfl

/-- However many entries are taken, the SQ's tail and every other SQ stay as they are. -/
theorem State.acceptEntries_sqs (q n : Nat) :
    ((s.acceptEntries q n).sqs.get q).tail = (s.sqs.get q).tail ∧ ∀ p, p ≠ q → (s.acceptEntries q n).sqs.get p = s.sqs.get p := by
  induction n generalizing s with
  | zero => exact ⟨rfl, fun _ _ => rfl⟩
  | succ n ih =>
    unfold State.acceptEntries
    dsimp only
    split
    · obtain ⟨htail, hother⟩ := ih (s.acceptOne q)
      refine ⟨?_, fun p hp => ?_⟩
      · rw [htail, State.acceptOne_sqs, SMap.get_upd_same]
      · rw [hother p hp, State.acceptOne_sqs, SMap.get_upd_ne _ _ hp]
    · exact ⟨rfl, fun _ _ => rfl⟩

/-! ### The tail doorbell (R73, R74) -/

theorem State.collide_sqs (busy : Bool) : (s.collide busy).sqs = s.sqs := by
  unfold State.collide
  split <;> rfl

/-- A doorbell of no queue is counted as stray. -/
theorem exec_sqTailDoorbell_stray {f i : Nat} (x : Nat) (hmay : s.hostMay f = true) (hq : s.findSq f i = none) :
    exec (.sqTailDoorbell f i x) s = .next ((s.hostInput f (leBytes 4 x)).bump Fld.cmdStatStray) := by
  change execSqTailDoorbell f i x s = _
  simp [execSqTailDoorbell, hmay, hq]

/-- A doorbell of an active SQ with a sound shadow word: the three cases of R74. -/
theorem exec_sqTailDoorbell_active {f i q : Nat} {r : Sq} (x : Nat) (hmay : s.hostMay f = true) (hq : s.findSq f i = some (q, r))
    (hact : r.state = .active) (hp : s.poisoned (0x400000 + 0x40 * q) = false) :
    exec (.sqTailDoorbell f i x) s = .next (
      let t := s.hostInput f (leBytes 4 x)
      if x < r.size ∧ ringCount r.size r.head r.tail ≤ ringCount r.size r.head x then
        if x = r.tail then t
        else ((t.collide (decide (r.head ≠ r.tail))).modSq q fun r => { r with tail := x }).acceptEntries q 64
      else t.sqError q x 0) := by
  change execSqTailDoorbell f i x s = _
  by_cases hgood : x < r.size ∧ ringCount r.size r.head r.tail ≤ ringCount r.size r.head x
  · by_cases htail : x = r.tail
    · subst htail
      simp [execSqTailDoorbell, hmay, hq, hact, hp, hgood.1]
    · simp [execSqTailDoorbell, hmay, hq, hact, hp, hgood, htail]
  · rw [if_neg hgood]
    simp [execSqTailDoorbell, hmay, hq, hact, hp, hgood]

/-- Settles O5: each clause reads off the matching case of the doorbell's meaning. -/
theorem tailDoorbell : Obligations.TailDoorbell := by
  unfold Obligations.TailDoorbell
  intro s f i x hmay
  have hin := Only.hostInput s f (leBytes 4 x)
  have hregs := RegsBut.hostInput s f (leBytes 4 x)
  refine ⟨fun hq => ?_, fun q r hq hget hact hp => ?_⟩
  · refine ⟨_, exec_sqTailDoorbell_stray s x hmay hq, ?_, ?_, ?_⟩
    · rw [State.fld_bump_same _ (by decide), hregs.fld _ _ _ (by decide)]
    · exact hin.trans ((Only.bump _ _ _ _ _).mono (by decide))
    · exact (hregs.mono (by decide)).trans ((RegsBut.bump _ _ _ _ _).mono (by decide))
  · rw [exec_sqTailDoorbell_active s x hmay hq hact hp]
    refine ⟨fun hx hle => ?_, fun heq hx => ?_, fun hbad => ?_⟩
    · rw [if_pos ⟨hx, hle⟩]
      by_cases heq : x = r.tail
      · rw [if_pos heq]
        exact ⟨_, rfl, by simp [hget, heq]⟩
      · rw [if_neg heq]
        obtain ⟨htail, hother⟩ := State.acceptEntries_sqs
          (((s.hostInput f (leBytes 4 x)).collide (decide (r.head ≠ r.tail))).modSq q fun r => { r with tail := x }) q 64
        refine ⟨_, rfl, ?_, fun p hne => ?_⟩
        · rw [htail]
          simp [State.modSq]
        · rw [hother p hne]
          simp [State.modSq, hne, State.collide_sqs]
    · rw [if_pos ⟨hx, heq ▸ le_rfl⟩, if_pos heq]
      exact ⟨_, rfl, hin, hregs⟩
    · rw [if_neg hbad]
      have hsq : ((s.hostInput f (leBytes 4 x)).sqError q x 0).sqs.get q = { r with state := .error } := by
        rw [State.sqError_sqs, SMap.get_upd_same, State.hostInput_sqs, hget]
      exact ⟨_, rfl, by rw [hsq], by rw [hsq], by rw [hsq], (hin.mono (by decide)).trans ((Only.sqError _ q x 0).mono (by decide))⟩

/-! ### Finding an SQ in a table of canonical form -/

/-- In a table of canonical form a search that no unlisted key meets finds the lowest key that meets it. -/
theorem SMap.find?_eq_some_iff {β : Type} [Inhabited β] [DecidableEq β] {m : SMap β} (hm : SMap.wf m = true) {p : Nat × β → Bool}
    (hp : ∀ k, p (k, default) = false) {q : Nat} {r : β} :
    m.find? p = some (q, r) ↔ SMap.get m q = r ∧ p (q, r) = true ∧ ∀ k < q, p (k, SMap.get m k) = false := by
  induction m with
  | nil =>
    simp only [List.find?_nil, SMap.get_nil, reduceCtorEq, false_iff]
    rintro ⟨rfl, h, -⟩
    simp [hp] at h
  | cons e m ih =>
    obtain ⟨a, v⟩ := e
    simp only [SMap.wf, Bool.and_eq_true] at hm
    obtain ⟨⟨-, habove⟩, hwf⟩ := hm
    have hlow : ∀ k ≤ a, SMap.get m k = default := fun k hk => SMap.above_get habove hk
    have hget : ∀ k, SMap.get ((a, v) :: m) k = if a = k then v else SMap.get m k := fun _ => rfl
    by_cases hv : p (a, v) = true
    · rw [List.find?_cons_of_pos hv, Option.some.injEq, Prod.mk.injEq]
      constructor
      · rintro ⟨rfl, rfl⟩
        exact ⟨by simp [hget], hv, fun k hk => by rw [hget, if_neg (by omega), hlow k hk.le, hp]⟩
      · rintro ⟨hr, hq, hmin⟩
        have hle : ¬ a < q := fun h => by simpa [hget, hv] using hmin a h
        by_cases haq : a = q
        · exact ⟨haq, by rwa [hget, if_pos haq] at hr⟩
        · rw [hget, if_neg haq, hlow q (by omega)] at hr
          rw [← hr, hp] at hq
          cases hq
    · have hsame : ∀ k, p (k, SMap.get ((a, v) :: m) k) = p (k, SMap.get m k) := by
        intro k
        by_cases hk : a = k
        · subst hk
          simp [hget, hlow, hp, hv]
        · rw [hget, if_neg hk]
      rw [List.find?_cons_of_neg hv, ih hwf]
      constructor
      · rintro ⟨rfl, hq, hmin⟩
        have haq : a ≠ q := by
          rintro rfl
          rw [hlow a le_rfl, hp] at hq
          cases hq
        exact ⟨by rw [hget, if_neg haq], hq, fun k hk => (hsame k).trans (hmin k hk)⟩
      · rintro ⟨rfl, hq, hmin⟩
        have haq : a ≠ q := by
          rintro rfl
          rw [hget, if_pos rfl] at hq
          exact hv hq
        rw [hget, if_neg haq] at hq ⊢
        exact ⟨rfl, hq, fun k hk => (hsame k).symm.trans (hmin k hk)⟩

/-- The record is of an SQ in use that function `f` numbers `i`. -/
def Sq.Named (f i : Nat) (r : Sq) : Prop := r.state ≠ .free ∧ r.owner = f ∧ r.loc = i

/-- In a table of canonical form a function's queue number names the lowest SQ that carries it. -/
theorem State.findSq_eq_some_iff (hwf : SMap.wf s.sqs = true) {f i q : Nat} {r : Sq} :
    s.findSq f i = some (q, r) ↔ s.sqs.get q = r ∧ r.Named f i ∧ ∀ k < q, ¬ (s.sqs.get k).Named f i := by
  rw [State.findSq, SMap.find?_eq_some_iff hwf (fun _ => by rfl)]
  simp [Sq.Named, and_assoc]

/-- In a table of canonical form an SQ keeps its number as another SQ in use enters ERROR. -/
theorem State.findSq_of_other_error {t : State} {f i p q : Nat} {r : Sq} (hwf : SMap.wf s.sqs = true) (hp : (s.sqs.get p).state ≠ .free)
    (ht : t.sqs = s.sqs.upd p fun r => { r with state := .error }) (hne : q ≠ p) (hq : s.findSq f i = some (q, r)) :
    t.findSq f i = some (q, r) := by
  have hnamed : ∀ k, (t.sqs.get k).Named f i ↔ (s.sqs.get k).Named f i := by
    intro k
    by_cases hk : k = p
    · subst hk
      simp [ht, Sq.Named, hp]
    · rw [ht, SMap.get_upd_ne _ _ hk]
  obtain ⟨hget, hr, hmin⟩ := (s.findSq_eq_some_iff hwf).mp hq
  refine (t.findSq_eq_some_iff (ht ▸ SMap.wf_upd _ _ hwf)).mpr ⟨?_, hr, fun k hk => (hnamed k).not.mpr (hmin k hk)⟩
  rw [ht, SMap.get_upd_ne _ _ hne, hget]

/-! ### Where a BAR2 write lands (R73, R75) -/

/-- Slot `e` of an active SQ holds an entry that is not yet accepted (R75). -/
def Sq.Holds (r : Sq) (e : Nat) : Prop := r.state = .active ∧ ringCount r.size r.head e < ringCount r.size r.head r.tail

/-- Bytes for a slot of an SQ land in the Cup; where the slot holds an entry the SQ enters ERROR too. -/
theorem State.landSlot_of_holds {f off q : Nat} {r : Sq} (bs : List Byte) (hq : s.findSq f (off / 0x1000) = some (q, r))
    (he : off % 0x1000 / 0x40 < r.size) (hh : r.Holds (off % 0x1000 / 0x40)) :
    s.landSlot f off bs = (s.urnWrite (slotOff q (off % 0x1000 / 0x40) + off % 0x40) bs).sqError q (off % 0x1000 / 0x40) 1 := by
  obtain ⟨hact, hcount⟩ := hh
  simp [State.landSlot, hq, he, hact, hcount]

theorem State.landSlot_of_not_holds {f off q : Nat} {r : Sq} (bs : List Byte) (hq : s.findSq f (off / 0x1000) = some (q, r))
    (he : off % 0x1000 / 0x40 < r.size) (hh : ¬ r.Holds (off % 0x1000 / 0x40)) :
    s.landSlot f off bs = s.urnWrite (slotOff q (off % 0x1000 / 0x40) + off % 0x40) bs := by
  rw [Sq.Holds] at hh
  simp [State.landSlot, hq, he, hh]

/-- Of the SQs' records a chunk changes at most one, which it puts in ERROR, and that SQ is the one addressed. -/
theorem State.landSlot_sqs (f off : Nat) (bs : List Byte) :
    (s.landSlot f off bs).sqs = s.sqs ∨ ∃ p r, s.findSq f (off / 0x1000) = some (p, r) ∧
      (s.landSlot f off bs).sqs = s.sqs.upd p fun r => { r with state := .error } := by
  cases hq : s.findSq f (off / 0x1000) with
  | none =>
    have h : s.landSlot f off bs = s.bump Fld.cmdStatStray := by simp [State.landSlot, hq]
    exact .inl (h ▸ s.bump_sqs _ _ _ _)
  | some w =>
    obtain ⟨p, r⟩ := w
    by_cases he : off % 0x1000 / 0x40 < r.size
    · by_cases hh : r.Holds (off % 0x1000 / 0x40)
      · exact .inr ⟨p, r, rfl, by rw [s.landSlot_of_holds bs hq he hh, State.sqError_sqs, State.urnWrite_sqs]⟩
      · exact .inl (by rw [s.landSlot_of_not_holds bs hq he hh, State.urnWrite_sqs])
    · have h : s.landSlot f off bs = s.bump Fld.cmdStatStray := by simp [State.landSlot, hq, Nat.le_of_not_lt he]
      exact .inl (h ▸ s.bump_sqs _ _ _ _)

/-- An SQ in ERROR stays there, whatever the host writes to its entries. -/
theorem State.landSlot_error {q : Nat} (f off : Nat) (bs : List Byte) (h : (s.sqs.get q).state = .error) :
    ((s.landSlot f off bs).sqs.get q).state = .error := by
  obtain hs | ⟨p, -, -, hs⟩ := s.landSlot_sqs f off bs
  · rw [hs, h]
  · by_cases hq : q = p
    · rw [hs, hq, SMap.get_upd_same]
    · rw [hs, SMap.get_upd_ne _ _ hq, h]

@[simp] theorem State.landWrite_nil (f off n : Nat) : s.landWrite f off [] n = s := by
  cases n <;> rfl

theorem State.landWrite_succ {f off : Nat} {bs : List Byte} (hne : bs ≠ []) (n : Nat) :
    s.landWrite f off bs (n + 1) =
      (s.landSlot f off (bs.take (0x40 - off % 0x40))).landWrite f (off + (0x40 - off % 0x40)) (bs.drop (0x40 - off % 0x40)) n := by
  simp [State.landWrite, hne]

theorem State.landWrite_error {q : Nat} (f off : Nat) (bs : List Byte) (n : Nat) (h : (s.sqs.get q).state = .error) :
    ((s.landWrite f off bs n).sqs.get q).state = .error := by
  induction n generalizing s off bs with
  | zero => exact h
  | succ n ih =>
    by_cases hne : bs = []
    · rw [hne, State.landWrite_nil, h]
    · rw [State.landWrite_succ _ hne]
      exact ih _ _ _ (s.landSlot_error f off _ h)

/-- A write over a slot that holds an entry puts the SQ in ERROR, in a table of canonical form: what the write does to other SQs before it comes to
the slot leaves this SQ and its number as they are. -/
theorem State.landWrite_over_held {f off a q n : Nat} {r : Sq} {bs : List Byte} (hwf : SMap.wf s.sqs = true) (hlen : bs.length ≤ n)
    (hlo : off ≤ a) (hhi : a < off + bs.length) (hq : s.findSq f (a / 0x1000) = some (q, r)) (he : a % 0x1000 / 0x40 < r.size)
    (hh : r.Holds (a % 0x1000 / 0x40)) : ((s.landWrite f off bs n).sqs.get q).state = .error := by
  induction n generalizing s off bs with
  | zero => omega
  | succ n ih =>
    have hne : bs ≠ [] := by
      rintro rfl
      simp only [List.length_nil] at hhi
      omega
    rw [State.landWrite_succ _ hne]
    by_cases hin : a < off + (0x40 - off % 0x40)
    · have hpage : off / 0x1000 = a / 0x1000 := by omega
      have hslot : off % 0x1000 / 0x40 = a % 0x1000 / 0x40 := by omega
      apply State.landWrite_error
      rw [State.landSlot_of_holds _ _ (hpage ▸ hq) (hslot ▸ he) (hslot ▸ hh), State.sqError_sqs, SMap.get_upd_same]
    · have hrest : (bs.drop (0x40 - off % 0x40)).length = bs.length - (0x40 - off % 0x40) := List.length_drop
      obtain hs | ⟨p, w, hp, hs⟩ := s.landSlot_sqs f off (bs.take (0x40 - off % 0x40))
      · exact ih _ (hs ▸ hwf) (by omega) (by omega) (by omega) (by rwa [State.findSq, hs])
      · by_cases hqp : q = p
        · apply State.landWrite_error
          rw [hs, hqp, SMap.get_upd_same]
        · obtain ⟨hget, hnamed, -⟩ := (s.findSq_eq_some_iff hwf).mp hp
          have hlive : (s.sqs.get p).state ≠ .free := hget ▸ hnamed.1
          exact ih _ (hs ▸ SMap.wf_upd _ _ hwf) (by omega) (by omega) (by omega) (s.findSq_of_other_error hwf hlive hs hqp hq)

/-! ### SQ_ENTRY_WRITE (R75)

Each clause of `Obligations.EntryWriteLandsInItsSlot` but the one on long writes holds of every state; that one holds where the SQ table is in its
canonical form, and fails on a table that lists one SQ twice. -/

/-- A write within the window lands, slot by slot. -/
theorem exec_sqEntryWrite {f off : Nat} {data : List Byte} (hmay : s.hostMay f = true) (hfit : off + data.length ≤ 2 ^ 20) :
    exec (.sqEntryWrite f off data) s = .next ((s.hostInput f data).landWrite f off data (data.length + 1)) := by
  change execSqEntryWrite f off data s = _
  rw [execSqEntryWrite, if_neg (Nat.not_lt.mpr hfit)]
  simp [hmay]

/-- A write that goes beyond the window addresses nothing. -/
theorem exec_sqEntryWrite_beyond {f off : Nat} {data : List Byte} (h : 2 ^ 20 < off + data.length) :
    exec (.sqEntryWrite f off data) s = .fault .noSuchAddress := by
  change execSqEntryWrite f off data s = _
  rw [execSqEntryWrite, if_pos h]

/-- What stands of the refuted clause on long writes: over an SQ table of canonical form, a byte on a slot that holds an entry puts its SQ in ERROR. -/
theorem sqEntryWrite_over_held_of_wf {f off q a : Nat} {r : Sq} {data : List Byte} (hwf : SMap.wf s.sqs = true) (hmay : s.hostMay f = true)
    (hfit : off + data.length ≤ 2 ^ 20) (hlo : off ≤ a) (hhi : a < off + data.length) (hq : s.findSq f (a / 0x1000) = some (q, r))
    (he : a % 0x1000 / 0x40 < r.size) (hh : r.Holds (a % 0x1000 / 0x40)) :
    Runs (exec (.sqEntryWrite f off data) s) fun t => (t.sqs.get q).state = .error :=
  ⟨_, exec_sqEntryWrite s hmay hfit, State.landWrite_over_held _ (by simpa using hwf) (by omega) hlo hhi (by simpa using hq) he hh⟩

/-- A write within one slot is one landing. -/
theorem exec_sqEntryWrite_slot {f i e o : Nat} {data : List Byte} (hmay : s.hostMay f = true) (hi : i < 256) (he : e < 64) (hne : data ≠ [])
    (ho : o + data.length ≤ 64) :
    exec (.sqEntryWrite f (0x1000 * i + 0x40 * e + o) data) s = .next ((s.hostInput f data).landSlot f (0x1000 * i + 0x40 * e + o) data) := by
  have hpos := List.length_pos_iff.mpr hne
  have hk : data.length ≤ 0x40 - (0x1000 * i + 0x40 * e + o) % 0x40 := by omega
  rw [exec_sqEntryWrite s hmay (by omega), State.landWrite_succ _ hne, List.take_of_length_le hk, List.drop_of_length_le hk, State.landWrite_nil]

/-- Queue, slot and byte of an address in the window. -/
theorem slotAddress_parts (i : Nat) {e o : Nat} (he : e < 64) (ho : o < 64) :
    (0x1000 * i + 0x40 * e + o) / 0x1000 = i ∧ (0x1000 * i + 0x40 * e + o) % 0x1000 / 0x40 = e ∧ (0x1000 * i + 0x40 * e + o) % 0x40 = o := by
  omega

section
variable {s} {f i e o q : Nat} {r : Sq} {data : List Byte} (hmay : s.hostMay f = true) (hi : i < 256) (hq : s.findSq f i = some (q, r))
  (hsize : e < r.size) (he : e < 64) (hne : data ≠ []) (ho : o + data.length ≤ 64)
include hmay hi hq hsize he hne ho

/-- On a slot that holds no entry the bytes land in its place and nowhere else. -/
theorem sqEntryWrite_of_not_holds (hh : ¬ r.Holds e) : Runs (exec (.sqEntryWrite f (0x1000 * i + 0x40 * e + o) data) s) fun t =>
    t.urnRead (0x1000 * q + 0x40 * e + o) data.length = data ∧
      (∀ a, a < 0x1000 * q + 0x40 * e + o ∨ 0x1000 * q + 0x40 * e + o + data.length ≤ a → t.urn.get a = (s.hostInput f data).urn.get a) ∧
      Only [.urn, .regs, .twbPos] s t ∧ RegsBut [.twbStatus, .twbCtrl] s t := by
  have hpos := List.length_pos_iff.mpr hne
  obtain ⟨hpage, hslot, hbyte⟩ := slotAddress_parts i he (show o < 64 by omega)
  have hland := (s.hostInput f data).landSlot_of_not_holds (off := 0x1000 * i + 0x40 * e + o) data
    (by rw [hpage, State.hostInput_findSq, hq]) (hslot.symm ▸ hsize) (hslot.symm ▸ hh)
  rw [hslot, hbyte] at hland
  refine ⟨_, (exec_sqEntryWrite_slot s hmay hi he hne ho).trans (congrArg _ hland), SMap.getN_putN _ _ _, fun a ha => SMap.get_putN_ne _ _ _ ha,
    ((Only.hostInput s f data).mono (by decide)).trans ((Only.urnWrite _ _ _).mono (by decide)),
    (RegsBut.hostInput s f data).trans ((RegsBut.of_only (Only.urnWrite _ _ _) (by decide)).mono (by decide))⟩

/-- On a slot that holds an entry the bytes land in its place, and the SQ enters ERROR. -/
theorem sqEntryWrite_of_holds (hh : r.Holds e) : Runs (exec (.sqEntryWrite f (0x1000 * i + 0x40 * e + o) data) s) fun t =>
    t.urnRead (0x1000 * q + 0x40 * e + o) data.length = data ∧ (t.sqs.get q).state = .error ∧
      Only [.urn, .regs, .twbPos, .sqs, .out, .fns, .evRing, .evSent, .attn] s t := by
  have hpos := List.length_pos_iff.mpr hne
  obtain ⟨hpage, hslot, hbyte⟩ := slotAddress_parts i he (show o < 64 by omega)
  have hland := (s.hostInput f data).landSlot_of_holds (off := 0x1000 * i + 0x40 * e + o) data
    (by rw [hpage, State.hostInput_findSq, hq]) (hslot.symm ▸ hsize) (hslot.symm ▸ hh)
  rw [hslot, hbyte] at hland
  refine ⟨_, (exec_sqEntryWrite_slot s hmay hi he hne ho).trans (congrArg _ hland), ?_, ?_, ?_⟩
  · have hurn := Only.sqError ((s.hostInput f data).urnWrite (slotOff q e + o) data) q e 1 .urn (by decide)
    exact (congrArg (SMap.getN · _ _) hurn).trans (SMap.getN_putN _ _ _)
  · rw [State.sqError_sqs, SMap.get_upd_same]
  · exact ((Only.hostInput s f data).mono (by decide)).trans
      (((Only.urnWrite _ _ _).mono (by decide)).trans ((Only.sqError _ q e 1).mono (by decide)))

end

/-- A state whose SQ table lists SQ 0 twice, so that it is not in the canonical form which every update of a table keeps (`SMap.wf_put`). A search by
number 0 finds the later listing, while the key reads as the earlier one, which is free and numbered 1 like SQ 1. -/
def sqListedTwice : State :=
  { State.reset with
    fns := [(0, { present := true })]
    sqs := [(0, { loc := 1, size := 1 }), (1, { state := .active, loc := 1, size := 2, tail := 1 }),
            (0, { state := .active, size := 64, head := 63 })] }

/-- Two bytes across the end of number 0 put the free listing in ERROR; it then takes number 1 from SQ 1, which the second byte misses. -/
theorem sqListedTwice_write_leaves_active :
    (match exec (.sqEntryWrite 0 0xFFF [0, 0]) sqListedTwice with
      | .next t => (t.sqs.get 1).state
      | _ => .error) = .active := by
  decide +kernel

/-- Refutes O4: its clause on long writes asks nothing of the SQ table, and on one that lists an SQ twice the write's first byte diverts its second;
`sqEntryWrite_over_held_of_wf` is the clause for tables in canonical form. -/
theorem not_entryWriteLandsInItsSlot : ¬ Obligations.EntryWriteLandsInItsSlot := by
  unfold Obligations.EntryWriteLandsInItsSlot
  rintro ⟨-, hlong, -⟩
  obtain ⟨t, ht, herror⟩ := hlong sqListedTwice 0 0xFFF 1 0x1000 { state := .active, loc := 1, size := 2, tail := 1 } [0, 0] (by decide +kernel)
    (by decide) (by decide) (by decide) (by decide +kernel) rfl rfl (by decide) (by decide)
  have hactive := sqListedTwice_write_leaves_active
  rw [ht] at hactive
  simp [herror] at hactive

end Sys2Proof.Machine
end

section
/-! SUPPORT. Proofs about naps (spec/16): what a link's transmitter and this device's own link-state notice may change, and how a nap ends. -/

namespace Sys2Proof.Machine

variable (s : State) {k : Nat}

/-! ### Registers, and a link's record -/

/-- After reset a register reads its reset value. -/
theorem State.rd_reset (r : Reg) (i j : Nat) : State.reset.rd r i j = r.resetValue := rfl

theorem State.fld_lt (f : Fld) (i j : Nat) : s.fld f i j < 2 ^ f.width := Nat.mod_lt _ (Nat.two_pow_pos _)

theorem Only.modLink (k : Nat) (g : Link → Link) : Only [.links] s (s.modLink k g) := by
  intro p hp
  cases p
  case links => exact absurd (by decide) hp
  all_goals rfl

theorem RegsBut.modLink (k : Nat) (g : Link → Link) : RegsBut [] s (s.modLink k g) := RegsBut.of_only (Only.modLink s k g) (by decide)

@[simp] theorem State.link_modLink_same (k : Nat) (g : Link → Link) : (s.modLink k g).link k = g (s.link k) := SMap.get_upd_same _ _ _

theorem State.link_modLink_ne {j : Nat} (g : Link → Link) (h : j ≠ k) : (s.modLink k g).link j = s.link j := SMap.get_upd_ne _ _ h

/-! ### What transmitting may change -/

/-- Registers that sending flits may write: the credits, the bytes sent, a trace's hash. -/
def transmitRegs : List Reg := [.wlkTxcred, .wlkBytesTx, .twbOutHash]

/-- `t` follows from `s` by flits and notices handed to links and sent: what a link's change of state can change, of the registers only those of the
transmitter, and no replay timer. -/
structure Transmits (s t : State) : Prop where
  only : Only Claims.linkParts s t
  regs : RegsBut transmitRegs s t
  timer : ∀ j, (t.link j).timer = (s.link j).timer

theorem Transmits.refl : Transmits s s := ⟨Only.refl _ _, RegsBut.refl _ _, fun _ => rfl⟩

variable {s} in
theorem Transmits.trans {t u : State} (h1 : Transmits s t) (h2 : Transmits t u) : Transmits s u :=
  ⟨h1.only.trans h2.only, h1.regs.trans h2.regs, fun j => (h2.timer j).trans (h1.timer j)⟩

variable {s} in
/-- A change that leaves the links' records alone. -/
theorem Transmits.of_only {t : State} {ps : List Field} (h : Only ps s t) (hps : ∀ p ∈ ps, p ∈ Claims.linkParts) (hl : Field.links ∉ ps)
    (hr : RegsBut transmitRegs s t) : Transmits s t :=
  ⟨h.mono hps, hr, fun j => congrArg (fun m => (SMap.get m j).timer) (h .links hl)⟩

theorem Transmits.modLink (k : Nat) {g : Link → Link} (hg : ∀ l, (g l).timer = l.timer) : Transmits s (s.modLink k g) where
  only := (Only.modLink s k g).mono (by decide)
  regs := (RegsBut.modLink s k g).mono (by decide)
  timer j := by
    by_cases h : j = k
    · subst h
      rw [State.link_modLink_same, hg]
    · rw [State.link_modLink_ne s g h]

theorem Transmits.emit (o : Output) : Transmits s (s.emit o) :=
  .of_only (Only.emit s o) (by decide) (by decide) ((RegsBut.emit s o).mono (by decide))

theorem Transmits.sendFlit (k typ vc seq : Nat) (p : List Byte) : Transmits s (s.sendFlit k typ vc seq p) :=
  .trans (Transmits.modLink s k (by intro; rfl)) (Transmits.emit _ _)

theorem Transmits.setCredit (k v n : Nat) : Transmits s (s.setCredit k v n) :=
  .of_only (Only.wr s _ _ _ _) (by decide) (by decide) ((RegsBut.wr s _ _ _ _).mono (by decide))

theorem Transmits.tallyBytes (n k : Nat) : Transmits s (s.tally Fld.wlkBytesTxBytes n k) :=
  .of_only (Only.tally s _ _ _ _) (by decide) (by decide) ((RegsBut.tally s _ _ _ _).mono (by decide))

theorem Transmits.sendNew (k i : Nat) (f : TxFlit) : Transmits s (s.sendNew k i f) := by
  unfold State.sendNew
  refine .trans ?_ (.trans (Transmits.tallyBytes _ 240 k) (Transmits.sendFlit _ _ _ _ _ _))
  split
  · exact Transmits.modLink s k fun _ => rfl
  · exact .trans (Transmits.modLink s k (by intro; rfl)) (Transmits.setCredit _ _ _ _)

theorem Transmits.flatTurn (k : Nat) : Transmits s (s.flatTurn k) := by
  unfold State.flatTurn
  split
  · refine List.foldlRecOn (motive := Transmits s) _ _ (Transmits.refl s) fun t ht v _ => ht.trans ?_
    dsimp only
    split
    · split
      · exact Transmits.modLink t k fun _ => rfl
      · exact Transmits.refl t
    · exact Transmits.refl t
  · exact Transmits.refl s

theorem Transmits.pump (k n : Nat) : Transmits s (s.pump k n) := by
  induction n generalizing s with
  | zero => exact Transmits.refl s
  | succ n ih =>
    unfold State.pump
    split
    · refine (Transmits.flatTurn s k).trans ?_
      dsimp only
      split
      · exact (Transmits.sendNew _ _ _ _).trans (ih _)
      · exact Transmits.refl _
    · exact Transmits.refl s

theorem Transmits.flush (k : Nat) : Transmits s (s.flush k) := Transmits.pump s k _

theorem Transmits.enqueue (k hops : Nat) (it : Item) : Transmits s (s.enqueue k hops it) :=
  .trans (Transmits.modLink s k (by intro; rfl)) (.trans (Transmits.emit _ _) (Transmits.flush _ k))

theorem Transmits.sendSlots (kind : Nat) (body : List Byte) (ks : List Nat) : Transmits s (s.sendSlots kind body ks) := by
  induction ks generalizing s with
  | nil => exact Transmits.refl s
  | cons k ks ih => exact (Transmits.enqueue s k 0 _).trans (ih _)

theorem Transmits.flood (kind : Nat) (body : List Byte) (ks : List Nat) : Transmits s (s.flood kind body ks) := by
  induction ks generalizing s with
  | nil => exact Transmits.refl s
  | cons k ks ih =>
    unfold State.flood
    refine .trans ?_ (ih _)
    split
    · exact Transmits.sendSlots s kind _ _
    · split
      · exact Transmits.refl s
      · split
        · exact Transmits.refl s
        · exact Transmits.enqueue s _ _ _

/-- This device's notice counts its number up and is stamped. -/
theorem Transmits.stampState (n us : Nat) : Transmits s { s with lsSeq := n, lsSent := us } := by
  refine .of_only (ps := [.lsSeq, .lsSent]) ?_ (by decide) (by decide) fun _ _ _ _ => rfl
  intro p hp
  cases p
  case lsSeq | lsSent => exact absurd (by decide) hp
  all_goals rfl

theorem Transmits.noteLinks (old : State) : Transmits s (s.noteLinks old) := by
  unfold State.noteLinks
  split
  · exact Transmits.refl s
  · exact (Transmits.stampState s _ _).trans (Transmits.flood _ _ _ _)

/-! ### Training states -/

theorem Only.setTstate (k n : Nat) : Only [.regs, .links] s (s.setTstate k n) :=
  (Only.setFld s _ _ _ _).append (Only.modLink _ _ _)

theorem RegsBut.setTstate (k n : Nat) : RegsBut [.wlkState] s (s.setTstate k n) :=
  (RegsBut.setFld s Fld.wlkStateTstate n k 0).trans ((RegsBut.modLink _ _ _).mono (by decide))

theorem State.tstate_setTstate (k n : Nat) : (s.setTstate k n).tstate k = n % 16 :=
  s.fld_setFld_same (f := Fld.wlkStateTstate) (by decide) n k 0

variable {s} in
theorem RegsBut.tstate {rs : List Reg} {t : State} (h : RegsBut rs s t) (hr : Reg.wlkState ∉ rs) : t.tstate k = s.tstate k :=
  h.fld Fld.wlkStateTstate k 0 hr

/-! ### A fast retrain (R416, R418) -/

/-- The link is in FAST, the retrain counted and the partner recorded; no notice of it has gone out. -/
def State.inFast (s : State) (k : Nat) : State :=
  ((s.setTstate k 7).bump Fld.wlkErrFastrt 1 k).modLink k fun l => { l with partner := some (s.partnerOf k), resume := false }

theorem Only.inFast (k : Nat) : Only [.regs, .links] s (s.inFast k) :=
  (Only.setTstate s k 7).trans (((Only.bump _ _ _ _ _).mono (by decide)).trans ((Only.modLink _ _ _).mono (by decide)))

theorem RegsBut.inFast (k : Nat) : RegsBut [.wlkState, .wlkErr] s (s.inFast k) :=
  ((RegsBut.setTstate s k 7).mono (by decide)).trans
    (((RegsBut.bump _ Fld.wlkErrFastrt _ _ _).mono (by decide)).trans ((RegsBut.modLink _ _ _).mono (by decide)))

@[simp] theorem State.tstate_inFast (k : Nat) : (s.inFast k).tstate k = 7 := by
  have hmod := RegsBut.modLink ((s.setTstate k 7).bump Fld.wlkErrFastrt 1 k) k fun l => { l with partner := some (s.partnerOf k), resume := false }
  rw [State.inFast, hmod.tstate (by decide), (RegsBut.bump _ Fld.wlkErrFastrt _ _ _).tstate (by decide), State.tstate_setTstate]

variable {s} in
theorem State.beginFast_eq (h : s.tstate k = 5 ∨ s.tstate k = 6) : s.beginFast k = (s.inFast k).noteLinks s := by
  rw [State.beginFast, if_pos h, State.inFast]

variable {s} in
/-- A fast retrain from ACTIVE or NAP: the link is in FAST, and of the registers its state, its error counts and the transmitter's are written. -/
theorem State.beginFast_frame (h : s.tstate k = 5 ∨ s.tstate k = 6) :
    (s.beginFast k).tstate k = 7 ∧ RegsBut (.wlkState :: .wlkErr :: transmitRegs) s (s.beginFast k) ∧ Only Claims.linkParts s (s.beginFast k) := by
  rw [State.beginFast_eq h]
  have hnote := Transmits.noteLinks (s.inFast k) s
  refine ⟨?_, ?_, ?_⟩
  · rw [hnote.regs.tstate (by decide), State.tstate_inFast]
  · exact ((RegsBut.inFast s k).mono (by decide)).trans (hnote.regs.mono (by decide))
  · exact ((Only.inFast s k).mono (by decide)).trans hnote.only

/-! ### The wake (R446, R448) -/

/-- The link is ACTIVE again and its idle time and replay timer start anew; its clean wakes are not counted yet. -/
def State.awake (s : State) (k : Nat) : State := (s.setTstate k 5).modLink k fun l => { l with used := s.us, timer := s.us }

theorem Only.awake (k : Nat) : Only [.regs, .links] s (s.awake k) :=
  (Only.setTstate s k 5).trans ((Only.modLink _ _ _).mono (by decide))

theorem RegsBut.awake (k : Nat) : RegsBut [.wlkState] s (s.awake k) :=
  (RegsBut.setTstate s k 5).trans ((RegsBut.modLink _ _ _).mono (by decide))

@[simp] theorem State.tstate_awake (k : Nat) : (s.awake k).tstate k = 5 :=
  ((RegsBut.modLink (s.setTstate k 5) k _).tstate (by decide)).trans (s.tstate_setTstate k 5)

@[simp] theorem State.timer_awake (k : Nat) : ((s.awake k).link k).timer = s.us := by simp [State.awake]

variable {s}

theorem exec_napWake_of_clean_ne_seven (hnap : s.tstate k = 6) (hw : (s.link k).napUntil ≤ s.us) (hc : s.fld Fld.wlkNapStateClean k ≠ 7) :
    exec (.napWake k) s = .next ((((s.awake k).setFld Fld.wlkNapStateClean (s.fld Fld.wlkNapStateClean k + 1) k).flush k).noteLinks s) := by
  change execNapWake k s = _
  simp [execNapWake, State.awake, hnap, hc, Nat.not_lt.mpr hw]

theorem exec_napWake_of_clean_eq_seven (hnap : s.tstate k = 6) (hw : (s.link k).napUntil ≤ s.us) (hc : s.fld Fld.wlkNapStateClean k = 7) :
    exec (.napWake k) s =
      .next (((((s.awake k).setFld Fld.wlkNapStateClean 0 k).setFld Fld.wlkNapStateCapUs (s.napMax k) k).flush k).noteLinks s) := by
  change execNapWake k s = _
  simp [execNapWake, State.awake, hnap, hc, Nat.not_lt.mpr hw]

/-- What counting the wake and sending leave of the wake: whatever is counted in WLK_NAP_STATE, the link is ACTIVE and its timer starts now. -/
theorem awake_counted_transmits {u t : State} (hu : Only [.regs] (s.awake k) u) (hr : RegsBut [.wlkNapState] (s.awake k) u) (ht : Transmits u t) :
    t.tstate k = 5 ∧ (t.link k).timer = s.us ∧ Only Claims.linkParts s t := by
  have hlinks : u.link k = (s.awake k).link k := congrArg (SMap.get · k) (hu .links (by decide))
  refine ⟨?_, ?_, ?_⟩
  · rw [ht.regs.tstate (by decide), hr.tstate (by decide), State.tstate_awake]
  · rw [ht.timer k, hlinks, State.timer_awake]
  · exact ((Only.awake s k).mono (by decide)).trans ((hu.mono (by decide)).trans ht.only)

theorem State.napMax_lt (k : Nat) : s.napMax k < 2 ^ Fld.wlkNapStateCapUs.width := by
  show max 100 (min 10000 _) < 16384
  omega

/-- A wake that is not the eighth clean one is counted, and the cap stays. -/
theorem napWake_of_clean_ne_seven (hnap : s.tstate k = 6) (hw : (s.link k).napUntil ≤ s.us) (hc : s.fld Fld.wlkNapStateClean k ≠ 7) :
    Runs (exec (.napWake k) s) fun t => (t.tstate k = 5 ∧ (t.link k).timer = s.us ∧ Only Claims.linkParts s t) ∧
      t.fld Fld.wlkNapStateClean k = (s.fld Fld.wlkNapStateClean k + 1) % 2 ^ Fld.wlkNapStateClean.width ∧
      t.fld Fld.wlkNapStateCapUs k = s.fld Fld.wlkNapStateCapUs k := by
  have ht := (Transmits.flush ((s.awake k).setFld Fld.wlkNapStateClean (s.fld Fld.wlkNapStateClean k + 1) k) k).trans (Transmits.noteLinks _ s)
  refine ⟨_, exec_napWake_of_clean_ne_seven hnap hw hc, awake_counted_transmits (Only.setFld _ _ _ _ _) (RegsBut.setFld _ Fld.wlkNapStateClean _ _ _) ht, ?_, ?_⟩
  · rw [ht.regs.fld _ _ _ (by decide), State.fld_setFld_same _ (by decide)]
  · rw [ht.regs.fld _ _ _ (by decide), State.fld_setFld_apart _ _ (by decide) (by decide), (RegsBut.awake s k).fld _ _ _ (by decide)]

/-- The eighth clean wake gives the cap back, and the count starts anew. -/
theorem napWake_of_clean_eq_seven (hnap : s.tstate k = 6) (hw : (s.link k).napUntil ≤ s.us) (hc : s.fld Fld.wlkNapStateClean k = 7) :
    Runs (exec (.napWake k) s) fun t => (t.tstate k = 5 ∧ (t.link k).timer = s.us ∧ Only Claims.linkParts s t) ∧
      t.fld Fld.wlkNapStateClean k = 0 ∧ t.fld Fld.wlkNapStateCapUs k = s.napMax k := by
  have ht := (Transmits.flush (((s.awake k).setFld Fld.wlkNapStateClean 0 k).setFld Fld.wlkNapStateCapUs (s.napMax k) k) k).trans
    (Transmits.noteLinks _ s)
  refine ⟨_, exec_napWake_of_clean_eq_seven hnap hw hc, awake_counted_transmits ((Only.setFld _ _ _ _ _).trans (Only.setFld _ _ _ _ _))
    ((RegsBut.setFld _ Fld.wlkNapStateClean _ _ _).trans (RegsBut.setFld _ Fld.wlkNapStateCapUs _ _ _)) ht, ?_, ?_⟩
  · rw [ht.regs.fld _ _ _ (by decide), State.fld_setFld_apart _ _ (by decide) (by decide), State.fld_setFld_same _ (by decide), Nat.zero_mod]
  · rw [ht.regs.fld _ _ _ (by decide), State.fld_setFld_same _ (by decide), Nat.mod_eq_of_lt (State.napMax_lt k)]

/-! ### The missed wake (R447, R448) -/

/-- What a missed wake writes: it is counted, the cap is halved, the clean wakes are none. -/
def State.wakeMissed (s : State) (k : Nat) : State :=
  ((s.bump Fld.wlkNapStatMissed 1 k).setFld Fld.wlkNapStateCapUs (max (s.fld Fld.wlkNapStateCapUs k / 2) 100) k).setFld Fld.wlkNapStateClean 0 k

variable (s) in
theorem Only.wakeMissed (k : Nat) : Only [.regs] s (s.wakeMissed k) :=
  (Only.bump s _ _ _ _).trans ((Only.setFld _ _ _ _ _).trans (Only.setFld _ _ _ _ _))

variable (s) in
theorem RegsBut.wakeMissed (k : Nat) : RegsBut [.wlkNapStat, .wlkNapState] s (s.wakeMissed k) :=
  ((RegsBut.bump s _ _ _ _).mono (by decide)).trans (((RegsBut.setFld _ _ _ _ _).mono (by decide)).trans ((RegsBut.setFld _ _ _ _ _).mono (by decide)))

@[simp] theorem State.wakeMissed_clean (k : Nat) : (s.wakeMissed k).fld Fld.wlkNapStateClean k = 0 := by
  rw [State.wakeMissed, State.fld_setFld_same _ (by decide), Nat.zero_mod]

@[simp] theorem State.wakeMissed_cap (k : Nat) : (s.wakeMissed k).fld Fld.wlkNapStateCapUs k = max (s.fld Fld.wlkNapStateCapUs k / 2) 100 := by
  have hcap : s.fld Fld.wlkNapStateCapUs k < 16384 := s.fld_lt _ _ _
  rw [State.wakeMissed, State.fld_setFld_apart _ _ (by decide) (by decide), State.fld_setFld_same _ (by decide)]
  show _ % 16384 = _
  omega

@[simp] theorem State.wakeMissed_missed (k : Nat) :
    (s.wakeMissed k).fld Fld.wlkNapStatMissed k = min (2 ^ Fld.wlkNapStatMissed.width - 1) (s.fld Fld.wlkNapStatMissed k + 1) := by
  rw [State.wakeMissed, State.fld_setFld_ne _ _ (.inl (by decide)), State.fld_setFld_ne _ _ (.inl (by decide)), State.fld_bump_same _ (by decide)]

theorem exec_napWakeMissed (hnap : s.tstate k = 6) (hw : (s.link k).napUntil + 2 ≤ s.us) :
    exec (.napWakeMissed k) s = .next ((s.wakeMissed k).beginFast k) := by
  change execNapWakeMissed k s = _
  simp [execNapWakeMissed, State.wakeMissed, hnap, Nat.not_lt.mpr hw]

theorem napWakeMissed_effect (hnap : s.tstate k = 6) (hw : (s.link k).napUntil + 2 ≤ s.us) : Runs (exec (.napWakeMissed k) s) fun t =>
    t.tstate k = 7 ∧ t.fld Fld.wlkNapStateClean k = 0 ∧ t.fld Fld.wlkNapStateCapUs k = max (s.fld Fld.wlkNapStateCapUs k / 2) 100 ∧
      t.fld Fld.wlkNapStatMissed k = min (2 ^ Fld.wlkNapStatMissed.width - 1) (s.fld Fld.wlkNapStatMissed k + 1) ∧ Only Claims.linkParts s t := by
  have hfrom : (s.wakeMissed k).tstate k = 6 := ((RegsBut.wakeMissed s k).tstate (by decide)).trans hnap
  obtain ⟨hfast, hregs, honly⟩ := State.beginFast_frame (.inr hfrom)
  refine ⟨_, exec_napWakeMissed hnap hw, hfast, ?_, ?_, ?_, ((Only.wakeMissed s k).mono (by decide)).trans honly⟩
  · rw [hregs.fld _ _ _ (by decide), State.wakeMissed_clean]
  · rw [hregs.fld _ _ _ (by decide), State.wakeMissed_cap]
  · rw [hregs.fld _ _ _ (by decide), State.wakeMissed_missed]

/-- Settles O50: a wake and a missed wake each write the nap's registers first, and what is sent afterwards (`Transmits`) writes none of them. -/
theorem napCapFollowsWakes : Obligations.NapCapFollowsWakes := by
  unfold Obligations.NapCapFollowsWakes
  refine ⟨fun k => ?_, fun s k hnap => ⟨fun hw => ?_, napWakeMissed_effect hnap⟩⟩
  · simp only [State.fld, State.rd_reset]
    decide
  · by_cases hc : s.fld Fld.wlkNapStateClean k = 7
    · obtain ⟨t, hrun, ⟨hactive, htimer, honly⟩, hclean, hcap⟩ := napWake_of_clean_eq_seven hnap hw hc
      exact ⟨t, hrun, hactive, htimer, honly, fun hne => absurd hc hne, fun _ => ⟨hclean, hcap⟩⟩
    · obtain ⟨t, hrun, ⟨hactive, htimer, honly⟩, hcount⟩ := napWake_of_clean_ne_seven hnap hw hc
      exact ⟨t, hrun, hactive, htimer, honly, fun _ => hcount, fun heq => absurd heq hc⟩

end Sys2Proof.Machine
end
